-- ==== Sys2Proof/Word.lean ====
section
/-! DEFINITION. The word types of the GH412's interfaces: shelf memory holds 1,048,576 words of 32 bits at
word addresses 00000h to FFFFFh (Conventions, "Addresses and words"), frames and buffers are counted in bytes. -/

namespace Sys2Proof

/-- One word of shelf memory, and one control page word. -/
abbrev Word := BitVec 32

/-- One byte of a word, of a frame or of a buffer. -/
abbrev Byte := BitVec 8

/-- A word address of shelf memory (00000h to FFFFFh). -/
abbrev Addr := BitVec 20

/-- The four byte enables of a bus access (CBEN, R2). That bit `j` enables bits `8j + 7` to `8j` is the model's choice
(DESIGN CHOICE, assumption log 41). -/
abbrev ByteEnables := BitVec 4

end Sys2Proof
end

