-- ==== Sys2Proof/Syntax.lean ====
section
/-! DEFINITION. The commands and events of the GH412: one constructor of `Instr` for each row of
spec/opcode_table.json, in the table's order, with the operands that the outside world (the controller's bus, the
card's lane, a pin) supplies with the event. -/

namespace Sys2Proof

/-- A slot: `i` stands for slot number `i + 1` (slots 1 to 12). -/
abbrev Slot := Fin 12

/-- The two backplane planes. -/
inductive Plane where
  | a
  | b
  deriving DecidableEq, Repr

/-- The other plane of a slot. -/
def Plane.other : Plane → Plane
  | .a => .b
  | .b => .a

/-- One row of the table of operations and events each.

Controller accesses carry what stands on CADDR, CDATA and CBEN. A command row (`loadSetup` … `alarmReset`,
`unknownCommand`) is the controller's full write of the command word at offset 00h, given by its parameter count
(bits 11:8) and its unread bits 31:12, followed by `params`, the full writes of offsets 01h, 02h, … that the
controller makes directly after it (none, some or all of them; the rest may come as `parameterWrite`). -/
inductive Instr where
  -- controller accesses (the memory path)
  | controllerRead (addr : Addr)
  | plainWrite (addr : Addr) (data : Word) (be : ByteEnables)
  | partialControlWrite (offset : BitVec 8) (data : Word) (be : ByteEnables)
  | guardedWrite (addr : Addr) (data : Word) (be : ByteEnables)
  | snoopedRingWrite (addr : Addr) (data : Word) (be : ByteEnables)
  | portAccessComplete
  -- control page words
  | parameterWrite (k : Fin 14) (data : Word)
  | attentionMaskWrite (data : Word)
  | attentionAcknowledge (data : Word)
  | consumerIndexWrite (data : Word)
  -- commands
  | unknownCommand (code : BitVec 8) (count : BitVec 4) (unread : BitVec 20) (params : List Word)
  | loadSetup (count : BitVec 4) (unread : BitVec 20) (params : List Word)
  | shutdown (count : BitVec 4) (unread : BitVec 20) (params : List Word)
  | counterSnapshot (count : BitVec 4) (unread : BitVec 20) (params : List Word)
  | setDiscipline (count : BitVec 4) (unread : BitVec 20) (params : List Word)
  | setTime (count : BitVec 4) (unread : BitVec 20) (params : List Word)
  | ringStart (count : BitVec 4) (unread : BitVec 20) (params : List Word)
  | ringStop (count : BitVec 4) (unread : BitVec 20) (params : List Word)
  | cycleStart (count : BitVec 4) (unread : BitVec 20) (params : List Word)
  | cycleStop (count : BitVec 4) (unread : BitVec 20) (params : List Word)
  | slotRelease (count : BitVec 4) (unread : BitVec 20) (params : List Word)
  | slotRetry (count : BitVec 4) (unread : BitVec 20) (params : List Word)
  | slotOverride (count : BitVec 4) (unread : BitVec 20) (params : List Word)
  | tableUpdate (count : BitVec 4) (unread : BitVec 20) (params : List Word)
  | alarmReset (count : BitVec 4) (unread : BitVec 20) (params : List Word)
  -- ends of command-unit transfers
  | setupBlockReadDone
  | loadImagesReadDone
  | loadWritebackDone
  | adoptWriteoutDone
  | shutdownComplete
  | statusRewriteDone
  | counterSnapshotDone
  | stagingRecordReadDone
  | imageEntryRewriteDone
  | imageWordRewriteDone
  -- resets
  | controllerReset
  | coldReset
  -- lanes: `bytes` are the frame's bytes that have arrived since the frame's start (or since the last event)
  | trainingComplete (slot : Slot) (plane : Plane)
  | lossOfSignal (slot : Slot) (plane : Plane)
  | frameStartReceived (slot : Slot) (plane : Plane) (bytes : List Byte)
  | frameEndReceived (slot : Slot) (plane : Plane) (bytes : List Byte)
  | frameTransmitEnd (slot : Slot) (plane : Plane)
  -- slot pins and slot timers
  | presenceArrival (slot : Slot)
  | presenceLoss (slot : Slot)
  | presenceDebounceExpiry (slot : Slot)
  | latchClosed (slot : Slot)
  | latchOpened (slot : Slot)
  | powerGoodArrival (slot : Slot)
  | powerGoodLoss (slot : Slot)
  | powerGoodWaitExpiry (slot : Slot)
  | trainingTimerExpiry (slot : Slot)
  | identWaitExpiry (slot : Slot)
  | drainTimerExpiry (slot : Slot)
  | backoffExpiry (slot : Slot)
  | drainEnd (slot : Slot)
  -- controller rings
  | heldFrameReoffer
  | rxMovementStart
  | rxWalkEnd
  | rxHoldExpiry
  | rxPlacementDone
  | rxFrameDelivered
  | rxMissMarkerDone
  | txExamineDone
  | txChainJudge
  | txLoadComplete
  | txReturnDone
  | ringHaltComplete
  -- time base
  | rollover
  | ppsOutPulseEnd
  | ppsInEdge
  | referenceWatchExpiry (entry : Fin 4)
  -- cycle engine
  | cycleEntryFetchDone
  | waitGapExpiry
  | waitBoundaryReached
  | pollResponseTimeout
  | cycleWriteBackDone
  -- alarm unit
  | alarmScan
  | logEntryWritten
  -- oscillator and contacts
  | oscillatorPeriod (periods : Nat)
  | contactLevelChange (input : Fin 8) (closed : Bool)
  deriving DecidableEq, Repr

end Sys2Proof
end

