-- ==== Sys2Proof/Decode.lean ====
section
/-! DEFINITION. Commands from words. The table of operations and events gives no row any bits (every row's list of
fields is empty): what reaches the GH412 is an access on its bus, a frame on a lane or a level on a pin, so no word
spells a row (assumption log 5). The words that carry codes are decoded where they are read: the command word in
`Machine.State.commandWord`, records, descriptors, cycle entries and frames in Machine/Operands.lean. -/

namespace Sys2Proof

/-- The command a word spells by the table's bits: none, since the table gives no row bits (assumption log 5). -/
def decodeTableWord (_nbits _w : Nat) : Option Instr := none

end Sys2Proof
end

