-- ==== Sys2Proof/Config.lean ====
section
/-! DEFINITION. What is fixed for the part (codes of chapter 12, durations in oscillator periods, sizes and limits),
and the free values: constants without a body that stand for what the manual leaves open. -/

namespace Sys2Proof.Config

/-- Status word 30h, bits 15:0 (12.2). -/
def partCode : Nat := 0x0412
/-- Status word 30h, bits 23:16 (12.2). -/
def revision : Nat := 0x01

/-- First word address of the control page (FFF00h; 2.1). -/
def controlPage : Nat := 0xFFF00
/-- Words of shelf memory (Conventions). -/
def memoryWords : Nat := 0x100000

/-- Blocks of the buffer pool (introduction; R85). -/
def poolBlocks : Nat := 512
/-- Payload bytes a frame may carry at most (3.2, R45). -/
def maxPayload : Nat := 2040
/-- Bytes of a received frame that the staging buffer keeps (R44). -/
def stagingBytes : Nat := 2052
/-- Largest value of a 32-bit saturating counter. -/
def sat32 : Nat := 4294967295
/-- Largest value of a 16-bit saturating counter (refusal count, overflow count). -/
def sat16 : Nat := 65535

/-- Oscillator periods in a microsecond (OSC100, 100 MHz). -/
def usPeriods : Nat := 100
/-- Oscillator periods in a millisecond. -/
def msPeriods : Nat := 100000

/-- R59: the slot timers. -/
def debouncePeriods : Nat := 50 * msPeriods
def powerGoodWaitPeriods : Nat := 200 * msPeriods
def trainingPeriods : Nat := 500 * msPeriods
def identWaitPeriods : Nat := 1000 * msPeriods
def drainPeriods : Nat := 100 * msPeriods
/-- R59: 1 s × 2^(attempts − 1). -/
def backoffPeriods (attempts : Nat) : Nat := 1000 * msPeriods * 2 ^ (attempts - 1)

/-- R115: the PPS_OUT pulse. -/
def ppsOutPeriods : Nat := 10 * msPeriods
/-- R119: accepted interval between arrivals of a reference. -/
def arrivalMinPeriods : Nat := 99900000
def arrivalMaxPeriods : Nat := 100100000
/-- R119, R120: the reference watch of 1,100 ms. -/
def watchPeriods : Nat := 1100 * msPeriods
/-- R166: the alarm scan period. -/
def scanPeriods : Nat := 100 * msPeriods

/-- One second in nanoseconds, and the residue's unit (7.1). -/
def second : Nat := 1000000000

/-- How many port accesses a row that waits for the end of a transfer may let pass before it gives up
(assumption log 4). Every transfer of the manual is shorter. -/
def portFuel : Nat := 4096

/-- FREE VALUE (assumption log 10). The plane written in result word 4 of an entry that submitted no frame: R149 and R151
name "the plane of the last attempt" and "of the last frame submitted", and there is none; a wait has no plane (8.2). -/
opaque freePlane : Nat → Bool

/-- FREE VALUE (assumption log 44). The STATUS flags and the alarm-code count in result word 4 where the entry received no
STATUS: R149 gives them for a last attempt that was SUCCESS only, R151 gives a TIME entry none, and R143 and R144 give a wait
no count. The count keeps the range of 8.2. -/
opaque freeFlags : Nat → BitVec 4
opaque freeCodes : Nat → Fin 9

/-- FREE VALUE (assumption log 44). Bits 13:0 of result word 5 where there is no RTT sample, and its bit 31 (RTT present) in a
TIME entry, of which R151 gives no RTT. -/
opaque freeRtt : Nat → BitVec 14
opaque freeRttPresent : Nat → Bool

/-- FREE VALUE (assumption log 11). Which bytes of the word being written when PORST arrives already hold the new
content (R16: "either its earlier content or the new one in each byte enabled"). -/
opaque tornBytes : Nat → BitVec 4

/-- FREE VALUE (assumption log 15). How many bytes of header and payload a lane had sent of the frame in transmission when
the frame was cut (R52) or abandoned (R53): the model keeps no time within a frame. -/
opaque bytesSent : Nat → Slot → Plane → Nat

end Sys2Proof.Config
end

