-- ==== Sys2Proof/Machine/State.lean ====
section
/-! DEFINITION. The state of the GH412, block by block as the introduction's block table gives it, as plain data, with
its value after a cold reset; and the ways a step can stop. Fields that are the MODEL's own (not the manual's) say so. -/

namespace Sys2Proof.Machine

open Sys2Proof

/-- Read entry `i` of a table. -/
def vget {α : Type} {n : Nat} (v : Vector α n) (i : Fin n) : α := v[i.val]

/-- Write entry `i` of a table. -/
def vset {α : Type} {n : Nat} (v : Vector α n) (i : Fin n) (x : α) : Vector α n := v.set i.val x i.isLt

/-! ## Codes and records of the manual -/

/-- LOAD_SETUP modes (12.1). -/
inductive LoadMode where
  | load
  | adopt
  deriving DecidableEq, Repr

/-- Hub states (2.6); LOADING carries the mode of the LOAD_SETUP executing. -/
inductive HubState where
  | unconfigured
  | loading (mode : LoadMode)
  | inService
  | carrying
  | shuttingDown
  deriving DecidableEq, Repr

/-- The commands of the catalogue (2.3). -/
inductive Command where
  | loadSetup
  | shutdown
  | counterSnapshot
  | setDiscipline
  | setTime
  | ringStart
  | ringStop
  | cycleStart
  | cycleStop
  | slotRelease
  | slotRetry
  | slotOverride
  | tableUpdate
  | alarmReset
  deriving DecidableEq, Repr

/-- Results of a command (2.4). -/
inductive CmdResult where
  | none
  | done
  | donePartial
  | cutShort
  | refusedState
  | refusedParameter
  | refusedUnknown
  | setupInvalid
  | updateInvalid
  deriving DecidableEq, Repr

/-- Reasons of a refused command word or ignored parameter write (2.1). -/
inductive RefusalReason where
  | none
  | busy
  | state
  | parameterIgnored
  deriving DecidableEq, Repr

/-- The failing item: a number, and a table code when a table is named (word 23h). -/
structure FailItem where
  number : Nat
  table : Nat
  deriving DecidableEq, Repr

/-- The four working tables (chapter 11). -/
inductive Table where
  | port
  | group
  | alarmPoint
  | reference
  deriving DecidableEq, Repr

/-- The twelve attention causes (2.5). -/
inductive Cause where
  | cmdDone
  | refusal
  | guard
  | rxFrame
  | txDone
  | ringError
  | cycleNotify
  | cycleEnd
  | cycleFault
  | slotChange
  | timeState
  | alarmLogged
  deriving DecidableEq, Repr

/-- The GH412's four requesters of the memory port, in the rotation's order (R13). -/
inductive Requester where
  | command
  | ring
  | cycle
  | alarm
  deriving DecidableEq, Repr

/-- The class of a DATA frame. -/
inductive Cls where
  | bulk
  | timed
  deriving DecidableEq, Repr

/-! ## Memory path (chapter 1) -/

/-- A zone: consecutive word addresses from `base` (1.3). -/
structure Zone where
  base : Nat
  len : Nat
  deriving DecidableEq, Repr

/-- The seven zones of an installed setup block. -/
structure ZoneSet where
  rx : Zone
  tx : Zone
  log : Zone
  portImage : Zone
  groupImage : Zone
  pointImage : Zone
  referenceImage : Zone
  deriving DecidableEq, Repr

/-- An access that the controller puts on its bus. -/
inductive BusAccess where
  | read (addr : Addr)
  | write (addr : Addr) (data : Word) (be : ByteEnables)
  deriving DecidableEq, Repr

/-- The two rings. -/
inductive RingSide where
  | rx
  | tx
  deriving DecidableEq, Repr

/-- The class of a controller access (R2). -/
inductive AccessClass where
  | read
  | control (offset : Nat)
  | consumerIndex
  | partialControl
  | guarded
  | snooped (side : RingSide) (word : Nat)
  | plain
  deriving DecidableEq, Repr

/-- A classed controller access. -/
structure Classed where
  acc : BusAccess
  cls : AccessClass
  deriving DecidableEq, Repr

/-- What a GH412 word access does at the port. -/
inductive DmaOp where
  | read (addr : Addr)
  | write (addr : Addr) (data : Word)
  deriving DecidableEq, Repr

/-- The work a GH412 word access belongs to. A status word carries whether it is the done-sequence word of a finished
command (R22); `dropped` is a word whose work was abandoned after its grant, which is not withdrawn (R11). -/
inductive Purpose where
  | status (offset : Nat) (cmdDone : Bool)
  | image
  | transfer
  | rx
  | tx
  | cycle
  | log
  | dropped
  deriving DecidableEq, Repr

/-- A granted GH412 word access. -/
structure Held where
  who : Requester
  purpose : Purpose
  op : DmaOp
  deriving DecidableEq, Repr

/-- What holds the memory port: an access of the controller, with its class, or a GH412 word. -/
inductive PortHolder where
  | controller (c : Classed)
  | word (h : Held)
  deriving DecidableEq, Repr

/-- State of the memory path. The guard follows the hub state (R5) and CWAIT follows `waiting` (R14), see
`State.guard` and `State.cwait`. -/
structure MemoryPath where
  /-- zone set: empty, or the seven zones installed -/
  zones : Option ZoneSet
  /-- port holder; an access of the controller that is granted in its own row completes inside that step
  (assumption log 13) -/
  holder : Option PortHolder
  /-- passed-over count, 0–16 -/
  passedOver : Nat
  /-- last GH412 requester served -/
  lastServed : Requester
  guardedCount : Nat
  lastGuarded : Addr
  partialCount : Nat
  /-- the controller access waiting for the port -/
  waiting : Option Classed
  /-- MODEL's own: accesses that the controller makes after the waiting one, each put on the bus when the one before
  it has completed (assumption log 3) -/
  line : List BusAccess
  /-- CDATA: the word returned by the last controller read -/
  cdata : Word
  deriving DecidableEq, Repr

def MemoryPath.cold : MemoryPath :=
  { zones := none, holder := none, passedOver := 0, lastServed := .alarm, guardedCount := 0, lastGuarded := 0,
    partialCount := 0, waiting := none, line := [], cdata := 0 }

/-! ## Command unit (chapter 2) -/

/-- Words 0–12 of a setup block (2.7). -/
structure Setup where
  rxBase : Nat
  rxSize : Nat
  txBase : Nat
  txSize : Nat
  holdMs : Nat
  logBase : Nat
  logSize : Nat
  portBase : Nat
  groupBase : Nat
  pointBase : Nat
  referenceBase : Nat
  pollUs : Nat
  mask : Word
  deriving DecidableEq, Repr

/-- Command status record (2.1). -/
structure CmdRecord where
  accepted : Nat
  done : Nat
  lastCode : Nat
  result : CmdResult
  fail : FailItem
  clamped : Bool
  refusals : Nat
  lastReason : RefusalReason
  lastOffset : Nat
  lastRefusedCode : Nat
  deriving DecidableEq, Repr

def CmdRecord.cold : CmdRecord :=
  { accepted := 0, done := 0, lastCode := 0, result := .none, fail := ⟨0, 0⟩, clamped := false, refusals := 0,
    lastReason := .none, lastOffset := 0, lastRefusedCode := 0 }

/-- Open command: its code, its parameter count and the parameters latched so far, in order. The next expected
parameter offset is one more than their number. -/
structure OpenCmd where
  cmd : Command
  count : Nat
  params : List Word
  deriving DecidableEq, Repr

/-- Collection state. -/
inductive Collection where
  | idle
  | collecting (o : OpenCmd)
  | executing (o : OpenCmd)
  deriving DecidableEq, Repr

/-- A word of a table image. -/
structure ImgWord where
  table : Table
  index : Nat
  word : Nat
  deriving DecidableEq, Repr

/-- The transfer of the command executing (R35): the words read so far, or the number of words written. -/
inductive Transfer where
  | setup (addr : Nat) (got : List Word)
  | images (done : List (List Word)) (got : List Word)
  | writeback (k : Nat)
  | writeout (k : Nat)
  | snapshot (addr : Nat) (clear : Bool) (k : Nat)
  | staging (table : Table) (index : Nat) (addr : Nat) (got : List Word)
  | entryRewrite (table : Table) (index : Nat) (k : Nat)
  deriving DecidableEq, Repr

/-- The three sources of the command unit's word accesses (R35). -/
inductive Source where
  | status
  | image
  | transfer
  deriving DecidableEq, Repr

/-- The word the command unit has waiting for the port. -/
inductive CmdWord where
  | status (offset : Nat)
  | image (w : ImgWord)
  | transfer
  deriving DecidableEq, Repr

/-- State of the command unit. ATTN follows `pending` (`State.attn`). -/
structure CommandUnit where
  collection : Collection
  hub : HubState
  record : CmdRecord
  mask : BitVec 12
  pending : BitVec 12
  /-- rewrite set: offsets 20h–5Bh awaiting a DMA rewrite, rising -/
  rewrite : List Nat
  /-- the done sequence belongs to a finished command whose done-sequence word has not been granted yet (R22) -/
  doneOwed : Bool
  /-- image rewrite set (R185) -/
  images : List ImgWord
  /-- the word waiting for the port -/
  place : Option CmdWord
  /-- source that supplied the last word (R35) -/
  lastSource : Source
  /-- transfer of the command executing -/
  transfer : Option Transfer
  /-- the setup block held from its validation (R29) -/
  setup : Option Setup
  /-- time snapshot, as last delivered by the time base (R115) -/
  snapSec : Nat
  snapNs : Nat
  deriving DecidableEq, Repr

/-- Every word of offsets 20h–5Bh. -/
def allStatusWords : List Nat := List.range' 0x20 60

def CommandUnit.cold : CommandUnit :=
  { collection := .idle, hub := .unconfigured, record := CmdRecord.cold, mask := 0, pending := 0,
    rewrite := allStatusWords, doneOwed := false, images := [], place := none, lastSource := .transfer,
    transfer := none, setup := none, snapSec := 0, snapNs := 0 }

/-! ## Lane ports (chapter 3) -/

inductive LaneState where
  | off
  | training
  | up
  deriving DecidableEq, Repr

/-- A stamp (R54): cabinet time with the adjustment mark at the start instant. `osc` is that instant by oscillator
(R119 measures the interval between REF arrivals by it). -/
structure Stamp where
  sec : Nat
  ns : Nat
  mark : Nat
  osc : Nat
  deriving DecidableEq, Repr

/-- The frame being received: bytes kept, bytes counted, the running check value over all bytes but the last four, and
those last four. -/
structure Staging where
  stamp : Stamp
  kept : List Byte
  count : Nat
  check : Word
  tail : List Byte
  deriving DecidableEq, Repr

/-- The submitter of a control frame. `tag` is MODEL's own: it tells the frames of an abandoned entry from those of
the present one (assumption log 9). -/
inductive Submitter where
  | slotManager
  | cycle (tag : Nat)
  deriving DecidableEq, Repr

inductive CtlKind where
  | poll (number : Nat)
  | time
  | identRequest
  | admission (active : Plane)
  deriving DecidableEq, Repr

/-- A control frame with its submitter. -/
structure CtlFrame where
  kind : CtlKind
  sender : Submitter
  deriving DecidableEq, Repr

/-- Frame in transmission. A control frame carries the header and payload as they go out, a DATA frame the egress
queue whose head it is and the stored frame. -/
inductive Tx where
  | none
  | control (f : CtlFrame) (bytes : List Byte)
  | data (c : Cls) (id : Nat)
  deriving DecidableEq, Repr

/-- MODEL's own record of what the lane last put on the backplane (what the card can see): a whole frame with its check
word, a frame ended early with the complement of the check value (R53), or a frame cut without one (R52). The last two
keep the bytes of header and payload that had gone out. -/
inductive LaneOut where
  | nothing
  | whole (bytes : List Byte) (check : Word)
  | abandoned (bytes : List Byte) (check : Word)
  | cut (bytes : List Byte)
  deriving DecidableEq, Repr

/-- MODEL's own record of an IDENT that was being received when the ident wait expired, and the oscillator moment: an end
that comes at that moment has arrived together with the expiry (R59; assumption log 40). -/
structure Overtaken where
  buffer : Staging
  osc : Nat
  deriving DecidableEq, Repr

structure LanePort where
  enable : Bool
  state : LaneState
  staging : Option Staging
  queue : List CtlFrame
  tx : Tx
  partialCount : Nat
  setAside : Nat
  resend : Nat
  notSent : Nat
  lastOut : LaneOut
  overtaken : Option Overtaken
  deriving DecidableEq, Repr

def LanePort.cold : LanePort :=
  { enable := false, state := .off, staging := none, queue := [], tx := .none, partialCount := 0, setAside := 0,
    resend := 0, notSent := 0, lastOut := .nothing, overtaken := none }

/-- The two lane ports of a slot. -/
structure Lanes where
  a : LanePort
  b : LanePort
  deriving DecidableEq, Repr

/-! ## Slot manager (chapters 4 and 9) -/

inductive PlanePolicy where
  | auto
  | pinA
  | pinB
  deriving DecidableEq, Repr

/-- Controller-set fields of a slot's port table entry (4.1). -/
structure PortCfg where
  provisioned : Bool
  allowed : List (BitVec 16)
  policy : PlanePolicy
  gate : Nat
  timedLimit : Nat
  bulkLimit : Nat
  missLimit : Nat
  deriving DecidableEq, Repr

def PortCfg.cold : PortCfg :=
  { provisioned := false, allowed := [], policy := .auto, gate := 4, timedLimit := 64, bulkLimit := 64, missLimit := 3 }

/-- Slot states (4.3). -/
inductive SlotState where
  | empty
  | seated
  | powering
  | training
  | identifying
  | admitted
  | draining
  | released
  | faulted
  | lockedOut
  | rejected
  deriving DecidableEq, Repr

inductive DrainCause where
  | none
  | release
  | unprovision
  | shutdown
  deriving DecidableEq, Repr

inductive FailReason where
  | none
  | power
  | link
  | ident
  | type
  | payload
  deriving DecidableEq, Repr

/-- A delay with its valid flag. -/
structure Delay where
  value : Nat
  valid : Bool
  deriving DecidableEq, Repr

/-- Admitted card record. -/
structure Card where
  cardType : BitVec 16
  serial1 : Word
  serial2 : Word
  maxPayload : Nat
  revision : BitVec 16
  deriving DecidableEq, Repr

/-- A slot: its port table entry, its slot timer and its pins. -/
structure SlotEntry where
  cfg : PortCfg
  state : SlotState
  fenced : Bool
  active : Plane
  laneA : LaneState
  laneB : LaneState
  delayA : Delay
  delayB : Delay
  attempts : Nat
  missed : Nat
  alt : Nat
  override : Bool
  drainCause : DrainCause
  reason : FailReason
  card : Option Card
  /-- slot timer: the oscillator count at which it expires -/
  timer : Option Nat
  /-- PRES, LATCH and PGOOD as last sampled -/
  pres : Bool
  latch : Bool
  pgood : Bool
  /-- PWREN -/
  pwren : Bool
  deriving DecidableEq, Repr

def SlotEntry.cold : SlotEntry :=
  { cfg := PortCfg.cold, state := .empty, fenced := false, active := .a, laneA := .off, laneB := .off,
    delayA := ⟨0, false⟩, delayB := ⟨0, false⟩, attempts := 0, missed := 0, alt := 0, override := false,
    drainCause := .none, reason := .none, card := none, timer := none, pres := false, latch := false, pgood := false,
    pwren := false }

/-- State of the slot manager. -/
structure SlotManager where
  slots : Vector SlotEntry 12
  /-- queue 0 limit, the port 0 entry's field -/
  q0Limit : Nat
  /-- discarded-sample count (R164) -/
  discarded : Nat
  deriving DecidableEq, Repr

def SlotManager.cold : SlotManager :=
  { slots := Vector.replicate 12 SlotEntry.cold, q0Limit := 128, discarded := 0 }

/-! ## Switch core (chapter 5) -/

/-- A stored frame: header and payload, block count, reference count and load state. `id` is MODEL's own name of it. -/
structure Stored where
  id : Nat
  header : List Byte
  payload : List Byte
  blocks : Nat
  refs : Nat
  loading : Bool
  deriving DecidableEq, Repr

/-- An egress queue: the frames it holds, oldest first, and its reservations (R87), both by frame name. -/
structure EgressQueue where
  frames : List Nat
  reserved : List Nat
  deriving DecidableEq, Repr

/-- A slot's two queues. -/
structure SlotQueues where
  timed : EgressQueue
  bulk : EgressQueue
  deriving DecidableEq, Repr

/-- Group table entry: enabled flag and member set of ports 0–12. -/
structure Group where
  enabled : Bool
  members : BitVec 13
  deriving DecidableEq, Repr

/-- Per-port counters (R94). -/
structure PortCounters where
  framesIn : Nat
  framesOut : Nat
  check : Nat
  overlength : Nat
  spoofed : Nat
  notAdmitted : Nat
  badDestination : Nat
  poolEmpty : Nat
  notServing : Nat
  portClosed : Nat
  queueFull : Nat
  timeGated : Nat
  flushed : Nat
  deriving DecidableEq, Repr

def PortCounters.zero : PortCounters :=
  { framesIn := 0, framesOut := 0, check := 0, overlength := 0, spoofed := 0, notAdmitted := 0, badDestination := 0,
    poolEmpty := 0, notServing := 0, portClosed := 0, queueFull := 0, timeGated := 0, flushed := 0 }

def EgressQueue.nil : EgressQueue := { frames := [], reserved := [] }
def SlotQueues.nil : SlotQueues := { timed := EgressQueue.nil, bulk := EgressQueue.nil }
def Group.none : Group := { enabled := false, members := 0 }

/-- State of the switch core. -/
structure SwitchCore where
  /-- pool free-block count -/
  free : Nat
  stored : List Stored
  /-- MODEL's own: the name the next stored frame gets -/
  nextId : Nat
  queues : Vector SlotQueues 12
  queue0 : EgressQueue
  groups : Vector Group 64
  /-- the last quality delivered by the time base -/
  quality : Nat
  counters : Vector PortCounters 13
  deriving DecidableEq, Repr

def SwitchCore.cold : SwitchCore :=
  { free := 512, stored := [], nextId := 0, queues := Vector.replicate 12 SlotQueues.nil, queue0 := EgressQueue.nil,
    groups := Vector.replicate 64 Group.none, quality := 4, counters := Vector.replicate 13 PortCounters.zero }

/-! ## Ring engine (chapter 6) -/

inductive RingState where
  | stopped
  | running
  | halting
  deriving DecidableEq, Repr

/-- Ring parameters (setup words 0–4). -/
structure RingParams where
  rxBase : Nat
  rxSize : Nat
  txBase : Nat
  txSize : Nat
  holdMs : Nat
  deriving DecidableEq, Repr

/-- A receive descriptor found by the look-ahead. -/
structure RxDesc where
  index : Nat
  size : Nat
  deriving DecidableEq, Repr

/-- Phase of the receive movement. `looking` holds the descriptors accepted so far and whether the owner word of the
next one has been read; `placing` the descriptor being filled, its buffer address once read and the next word;
`returning` the number of hand-back words written; `marking` (the miss marker of R105) the number of its words done. -/
inductive RxPhase where
  | looking (descs : List RxDesc) (ownerRead : Bool)
  | held
  | placing (descs : List RxDesc) (d : Nat) (addr : Option Nat) (w : Nat)
  | returning (descs : List RxDesc) (n : Nat)
  | marking (n : Nat)
  deriving DecidableEq, Repr

/-- Receive movement: the frame with its payload length, source port and class, its phase, its hold timer (the
oscillator count at which it expires) and its rewalk mark. -/
structure RxMove where
  id : Nat
  len : Nat
  src : Nat
  cls : Cls
  phase : RxPhase
  hold : Option Nat
  rewalk : Bool
  deriving DecidableEq, Repr

/-- A transmit descriptor read by the fetch. -/
structure TxDesc where
  owner : Word
  addr : Nat
  size : Nat
  deriving DecidableEq, Repr

/-- Outcomes of a transmit chain (completion status). -/
inductive TxOutcome where
  | accepted
  | someLost
  | undeliverable
  | overlength
  | badDestination
  deriving DecidableEq, Repr

/-- The next word of the descriptor being fetched, or the wait for its hand-over. -/
inductive FetchStep where
  | owner
  | addr (owner : Word)
  | size (owner : Word) (addr : Nat)
  | waiting
  deriving DecidableEq, Repr

/-- Phase of the transmit movement. `held` carries whether a room report has come since the last offer (R88). -/
inductive TxPhase where
  | fetching (f : FetchStep)
  | held (room : Bool)
  | loading (id : Nat) (out : TxOutcome) (d : Nat) (w : Nat) (bytes : List Byte)
  | returning (out : TxOutcome) (n : Nat)
  deriving DecidableEq, Repr

structure TxMove where
  descs : List TxDesc
  phase : TxPhase
  deriving DecidableEq, Repr

/-- Ring engine counters (R113). -/
structure RingCounters where
  placed : Nat
  missed : Nat
  badBuffer : Nat
  accepted : Nat
  someLost : Nat
  undeliverable : Nat
  overlength : Nat
  badDestination : Nat
  malformed : Nat
  deriving DecidableEq, Repr

def RingCounters.zero : RingCounters :=
  { placed := 0, missed := 0, badBuffer := 0, accepted := 0, someLost := 0, undeliverable := 0, overlength := 0,
    badDestination := 0, malformed := 0 }

/-- State of the ring engine. `exam` is an examination of the transmit index in progress (R106), with whether a snooped
write has come during it. -/
structure RingEngine where
  state : RingState
  params : Option RingParams
  rxIdx : Nat
  txIdx : Nat
  rx : Option RxMove
  tx : Option TxMove
  exam : Option Bool
  /-- the movement whose word waits for the port -/
  place : Option RingSide
  /-- movement whose word was supplied last; DESIGN CHOICE transmit after a reset, so that receive goes first (log 34) -/
  lastSide : RingSide
  counters : RingCounters
  deriving DecidableEq, Repr

def RingEngine.cold : RingEngine :=
  { state := .stopped, params := none, rxIdx := 0, txIdx := 0, rx := none, tx := none, exam := none, place := none,
    lastSide := .tx, counters := RingCounters.zero }

/-! ## Time base (chapter 7) -/

inductive TimeState where
  | free
  | acquiring
  | locked
  | holdover
  deriving DecidableEq, Repr

/-- Discipline parameters (R130). -/
structure Discipline where
  kp : Nat
  ki : Nat
  stepLimit : Nat
  lockWindow : Nat
  lockCount : Nat
  holdoverLimit : Nat
  deriving DecidableEq, Repr

def Discipline.cold : Discipline :=
  { kp := 2, ki := 6, stepLimit := 100000, lockWindow := 100, lockCount := 16, holdoverLimit := 14400 }

/-- Source kinds of a reference entry. -/
inductive RefKind where
  | ppsInput
  | slot
  deriving DecidableEq, Repr

/-- Controller-set fields of a reference entry (7.3). -/
structure RefCfg where
  kind : RefKind
  slot : Nat
  enabled : Bool
  deriving DecidableEq, Repr

/-- A reference table entry, with the oscillator instant of its last arrival and its watch. -/
structure RefEntry where
  cfg : RefCfg
  qualified : Bool
  good : Nat
  last : Option Nat
  watch : Option Nat
  deriving DecidableEq, Repr

def RefCfg.cold : RefCfg := { kind := .ppsInput, slot := 0, enabled := false }
def RefEntry.cold : RefEntry := { cfg := RefCfg.cold, qualified := false, good := 0, last := none, watch := none }

/-- State of the time base. The quality follows from `state` and `beyond` (`TimeBase.quality`). -/
structure TimeBase where
  sec : Nat
  ns : Nat
  residue : Int
  trim : Int
  integral : Int
  state : TimeState
  beyond : Bool
  holdover : Nat
  lockRun : Nat
  unlockRun : Nat
  selected : Option (Fin 4)
  lastError : Int
  pendingSet : Option Nat
  mark : Nat
  stepOccurred : Bool
  disc : Discipline
  refs : Vector RefEntry 4
  /-- PPS_OUT: low, or pulsing until the oscillator count given -/
  ppsOut : Option Nat
  steps : Nat
  setApplied : Nat
  discardedRefs : Nat
  intervalRejects : Nat
  watchExpiries : Nat
  deriving DecidableEq, Repr

def TimeBase.cold : TimeBase :=
  { sec := 0, ns := 0, residue := 0, trim := 0, integral := 0, state := .free, beyond := false, holdover := 0,
    lockRun := 0, unlockRun := 0, selected := none, lastError := 0, pendingSet := none, mark := 0,
    stepOccurred := false, disc := Discipline.cold, refs := Vector.replicate 4 RefEntry.cold, ppsOut := none,
    steps := 0, setApplied := 0, discardedRefs := 0, intervalRejects := 0, watchExpiries := 0 }

/-! ## Cycle engine (chapter 8) -/

inductive CycleState where
  | idle
  | running
  | halting
  | faulted
  deriving DecidableEq, Repr

inductive CycleFaultKind where
  | none
  | illegalAddress
  | illegalKind
  | illegalField
  | stack
  | runaway
  deriving DecidableEq, Repr

/-- Plane choice of a POLL or TIME entry. -/
inductive PlaneChoice where
  | active
  | named (p : Plane)
  deriving DecidableEq, Repr

/-- What a SUCCESS attempt measured (R149). -/
structure Response where
  flags : BitVec 4
  turnaround : Nat
  codes : List Byte
  t1 : Option Stamp
  t4 : Stamp
  deriving DecidableEq, Repr

inductive AttemptOutcome where
  | success (r : Response)
  | noResponse
  | badResponse
  | absent
  deriving DecidableEq, Repr

/-- An ended attempt that had a plane. -/
structure AttemptRec where
  plane : Plane
  outcome : AttemptOutcome
  deriving DecidableEq, Repr

/-- The attempt in progress: its plane and poll number, its start stamp once the POLL has started, whether the POLL has
been reported sent, and the response timeout. -/
structure Attempt where
  plane : Plane
  number : Nat
  tag : Nat
  t1 : Option Stamp
  sent : Bool
  timeout : Option Nat
  deriving DecidableEq, Repr

/-- A POLL entry being carried out. -/
structure PollWork where
  slot : Slot
  retries : Nat
  choice : PlaneChoice
  alternate : Bool
  conditions : BitVec 6
  branch : Bool
  first : Option Plane
  made : Nat
  log : List AttemptRec
  cur : Option Attempt
  deriving DecidableEq, Repr

/-- A TIME entry being carried out: frames whose report is awaited, sent, not sent, and the plane of the last one. -/
structure TimeWork where
  tag : Nat
  awaited : Nat
  sent : Nat
  notSent : Nat
  plane : Option Plane
  deriving DecidableEq, Repr

/-- Working values of an entry in RUN. A boundary wait keeps its remaining distance in ns. -/
inductive Work where
  | gap (expiry : Nat)
  | boundary (remaining : Int)
  | poll (w : PollWork)
  | time (w : TimeWork)
  deriving DecidableEq, Repr

/-- Result words of an entry in WRITE_BACK, the number of them performed, and the address the walk goes on at. -/
structure WriteBack where
  w4 : Word
  w5 : Word
  w6 : Word
  w7 : Word
  n : Nat
  next : Addr
  deriving DecidableEq, Repr

inductive EntryPhase where
  | fetch (got : List Word)
  | run (words : List Word) (w : Work)
  | writeBack (words : List Word) (b : WriteBack)
  deriving DecidableEq, Repr

/-- The entry in progress and the address it was fetched from. -/
structure EntryProg where
  addr : Addr
  phase : EntryPhase
  deriving DecidableEq, Repr

/-- Cycle engine counters (R153). -/
structure CycleCounters where
  attempts : Nat
  succeeded : Nat
  unanswered : Nat
  absent : Nat
  stray : Nat
  slips : Nat
  timeNotSent : Nat
  faults : Nat
  deriving DecidableEq, Repr

def CycleCounters.zero : CycleCounters :=
  { attempts := 0, succeeded := 0, unanswered := 0, absent := 0, stray := 0, slips := 0, timeNotSent := 0, faults := 0 }

structure CycleEngine where
  state : CycleState
  fault : CycleFaultKind
  cur : Addr
  /-- return stack, the most recently pushed address first -/
  stack : List Addr
  zeroRun : Nat
  entry : Option EntryProg
  pollNumber : Nat
  timeoutUs : Nat
  notify : Word
  counters : CycleCounters
  /-- MODEL's own: tag of the next control frames submitted -/
  tag : Nat
  deriving DecidableEq, Repr

def CycleEngine.cold : CycleEngine :=
  { state := .idle, fault := .none, cur := 0, stack := [], zeroRun := 0, entry := none, pollNumber := 0,
    timeoutUs := 20, notify := 0, counters := CycleCounters.zero, tag := 0 }

/-! ## Alarm unit (chapter 10) -/

inductive SourceKind where
  | contact
  | slot
  | cardFlag
  | cardCode
  | time
  | reference
  | traffic
  | cycleFaulted
  deriving DecidableEq, Repr

inductive Severity where
  | critical
  | major
  | minor
  | warning
  deriving DecidableEq, Repr

/-- Persistence states (10.3). -/
inductive PointState where
  | clear
  | pendingRaise
  | raised
  | pendingClear
  deriving DecidableEq, Repr

/-- Controller-set fields of an alarm point; the selector is its instance byte `which` and condition byte `cond`. -/
structure PointCfg where
  enabled : Bool
  kind : SourceKind
  which : Nat
  cond : Nat
  severity : Severity
  raiseCount : Nat
  clearCount : Nat
  latching : Bool
  masked : Bool
  whenOpen : Bool
  deriving DecidableEq, Repr

/-- A point with no record. R179 gives a cold point as disabled; the other controller-set fields are the model's DESIGN
CHOICE, every field at its code 0 (assumption log 35). -/
def PointCfg.cold : PointCfg :=
  { enabled := false, kind := .contact, which := 0, cond := 0, severity := .critical, raiseCount := 0, clearCount := 0,
    latching := false, masked := false, whenOpen := false }

structure Point where
  cfg : PointCfg
  state : PointState
  count : Nat
  sourceCleared : Bool
  deriving DecidableEq, Repr

def Point.cold : Point := { cfg := PointCfg.cold, state := .clear, count := 0, sourceCleared := false }

/-- Content of a log entry (12.6). -/
inductive LogBody where
  | change (point : Nat) (raised : Bool) (severity : Severity) (slot : Nat)
  | overflow (count : Nat)
  deriving DecidableEq, Repr

/-- An assigned log entry. `stale` marks an entry of an earlier service period still being completed (R177). -/
structure LogEntry where
  addr : Addr
  pos : Nat
  seq : Nat
  body : LogBody
  sec : Nat
  ns : Nat
  stale : Bool
  deriving DecidableEq, Repr

/-- Event marks (R168). -/
structure Marks where
  linkError : Vector Bool 12
  surprise : Vector Bool 12
  queueDrop : Vector Bool 13
  rxMissed : Bool
  deriving DecidableEq, Repr

def Marks.clear : Marks :=
  { linkError := Vector.replicate 12 false, surprise := Vector.replicate 12 false,
    queueDrop := Vector.replicate 13 false, rxMissed := false }

structure AlarmUnit where
  points : Vector Point 64
  /-- contact levels, true for CLOSED -/
  contacts : Vector Bool 8
  marks : Marks
  logBase : Nat
  /-- log size N; 0 while there are no log parameters -/
  logSize : Nat
  writeIdx : Nat
  producer : Nat
  consumer : Nat
  queue : List LogEntry
  /-- words of the head entry performed -/
  headDone : Nat
  seq : Nat
  overflow : Nat
  /-- relays, true for energised -/
  major : Bool
  minor : Bool
  ignored : Nat
  /-- the oscillator count of the next scan -/
  scanAt : Nat
  deriving DecidableEq, Repr

def AlarmUnit.cold : AlarmUnit :=
  { points := Vector.replicate 64 Point.cold, contacts := Vector.replicate 8 false, marks := Marks.clear, logBase := 0,
    logSize := 0, writeIdx := 0, producer := 0, consumer := 0, queue := [], headDone := 0, seq := 0, overflow := 0,
    major := false, minor := false, ignored := 0, scanAt := Config.scanPeriods }

/-! ## The machine -/

/-- Shelf memory as (byte address, byte) pairs; byte `j` of the word at address `a` is at byte address `4a + j`.
Canonical form: addresses strictly rising and no entry equal to what an unlisted address reads as (`Memory.WF`). -/
abbrev Memory := List Host.Cell

/-- The GH412 with its shelf memory and the queue of commands and events that have not been taken yet. -/
structure State where
  /-- commands and events waiting, first in, first out -/
  pending : List Instr
  mem : Memory
  path : MemoryPath
  cmd : CommandUnit
  lanes : Vector Lanes 12
  sm : SlotManager
  sw : SwitchCore
  ring : RingEngine
  time : TimeBase
  cyc : CycleEngine
  alarm : AlarmUnit
  /-- MODEL's own: oscillator periods since the cold reset, by which timers are measured -/
  osc : Nat
  /-- MODEL's own: number of free values drawn so far -/
  draws : Nat
  deriving DecidableEq, Repr

/-- Why a step of this model stops with a fault. The manual gives every command and every event an effect in every
state (a refusal of the GH412 is recorded in its own registers), so no meaning raises this: it is safe. -/
inductive Fault where
  /-- raised by no meaning (safe) -/
  | neverRaised
  deriving DecidableEq, Repr

/-- Why a step of this model refuses. -/
inductive Refusal where
  /-- an arm of `exec` that has no meaning yet answers with its row's mnemonic (safe); no arm does -/
  | notModelled (mnemonic : String)
  deriving DecidableEq, Repr

/-- The machine right after a cold reset (R16, R38, R57, R78, R97, R112, R133, R153, R179), no card in any slot, every
contact open and nothing written to shelf memory (assumption log 1, 2). -/
def State.reset : State :=
  { pending := [], mem := [], path := MemoryPath.cold, cmd := CommandUnit.cold,
    lanes := Vector.replicate 12 { a := LanePort.cold, b := LanePort.cold }, sm := SlotManager.cold,
    sw := SwitchCore.cold, ring := RingEngine.cold, time := TimeBase.cold, cyc := CycleEngine.cold,
    alarm := AlarmUnit.cold, osc := 0, draws := 0 }

end Sys2Proof.Machine
end

