-- ==== Sys2Proof/Machine/Ops.lean ====
section
/-! DEFINITION. Operations over memory, tables and plain fields that every block uses. -/

namespace Sys2Proof.Machine

open Sys2Proof

/-! ## Counters and fields -/

/-- Add `k` to a counter that saturates at `top`. -/
def satAdd (top n k : Nat) : Nat := min (n + k) top

/-- Add 1 to a 32-bit saturating counter. -/
def inc32 (n : Nat) : Nat := satAdd Config.sat32 n 1

/-- The field of `len` bits of a word from bit `lo` up. -/
def field (w : Word) (lo len : Nat) : Nat := w.toNat / 2 ^ lo % 2 ^ len

/-- Bit `k` of a word. -/
def bit (w : Word) (k : Nat) : Bool := w.getLsbD k

/-- A word from a number (modulo 2^32). -/
def wordOf (n : Nat) : Word := BitVec.ofNat 32 n

/-- 1 for set, 0 for clear. -/
def flag (b : Bool) : Nat := if b then 1 else 0

/-- A number from bytes, most significant byte first (12.7). -/
def beNat (bs : List Byte) : Nat := bs.foldl (fun n b => n * 256 + b.toNat) 0

/-- The `n` bytes of a number, most significant byte first. -/
def beBytes : Nat → Nat → List Byte
  | 0, _ => []
  | n + 1, v => BitVec.ofNat 8 (v / 256 ^ n) :: beBytes n v

/-- Byte `k` of a byte list, 0 when there is none. -/
def byteAt (bs : List Byte) (k : Nat) : Byte := bs.getD k 0

/-! ## Shelf memory -/

namespace Memory

/-- What an address that is not listed reads as (assumption log 2). -/
def unlisted : Byte := 0

/-- The byte at a byte address. -/
def read : Memory → Nat → Byte
  | [], _ => unlisted
  | (k, v) :: m, a => if a = k then v else if a < k then unlisted else read m a

/-- Write one byte, keeping the list in canonical form. -/
def write : Memory → Nat → Byte → Memory
  | [], a, b => if b = unlisted then [] else [(a, b)]
  | (k, v) :: m, a, b =>
    if a < k then (if b = unlisted then (k, v) :: m else (a, b) :: (k, v) :: m)
    else if a = k then (if b = unlisted then m else (a, b) :: m)
    else (k, v) :: write m a b

/-- Canonical form: byte addresses strictly rising, no entry equal to what an unlisted address reads as. -/
abbrev WF (m : Memory) : Prop := m.Pairwise (fun x y => x.1 < y.1) ∧ ∀ c ∈ m, c.2 ≠ unlisted

/-- Byte `j` of a word: bits 8j + 7 to 8j (12.3). -/
def byteOf (w : Word) (j : Nat) : Byte := w.extractLsb' (8 * j) 8

/-- The word at a word address. -/
def readWord (m : Memory) (a : Addr) : Word :=
  read m (4 * a.toNat + 3) ++ read m (4 * a.toNat + 2) ++ read m (4 * a.toNat + 1) ++ read m (4 * a.toNat)

/-- Write byte `j` of `w` when its byte enable is set: bit `j` of the enables (DESIGN CHOICE, assumption log 41). -/
def writeLane (m : Memory) (a : Addr) (w : Word) (be : ByteEnables) (j : Nat) : Memory :=
  if be.getLsbD j then write m (4 * a.toNat + j) (byteOf w j) else m

/-- Write the enabled bytes of a word (R2, R3, R7). -/
def writeWord (m : Memory) (a : Addr) (w : Word) (be : ByteEnables) : Memory :=
  writeLane (writeLane (writeLane (writeLane m a w be 0) a w be 1) a w be 2) a w be 3

end Memory

/-- All four byte enables. -/
def allBytes : ByteEnables := 0xF

/-- A word address from a number, modulo 2^20 (R103). -/
def addrOf (n : Nat) : Addr := BitVec.ofNat 20 n

/-! ## Access to the tables of the state -/

/-- Every slot, in slot order. -/
def allSlots : List Slot := List.finRange 12

/-- Port number of a slot. -/
def portOf (i : Slot) : Fin 13 := ⟨i.val + 1, by omega⟩

/-- The slot of a port number from 1 to 12. -/
def slotOf (n : Nat) : Option Slot := if h : 1 ≤ n ∧ n ≤ 12 then some ⟨n - 1, by omega⟩ else none

def State.slot (s : State) (i : Slot) : SlotEntry := vget s.sm.slots i

def State.setSlot (s : State) (i : Slot) (e : SlotEntry) : State :=
  { s with sm := { s.sm with slots := vset s.sm.slots i e } }

def Lanes.get (l : Lanes) : Plane → LanePort
  | .a => l.a
  | .b => l.b

def Lanes.set (l : Lanes) (p : Plane) (x : LanePort) : Lanes :=
  match p with
  | .a => { l with a := x }
  | .b => { l with b := x }

def State.lane (s : State) (i : Slot) (p : Plane) : LanePort := (vget s.lanes i).get p

def State.setLane (s : State) (i : Slot) (p : Plane) (l : LanePort) : State :=
  { s with lanes := vset s.lanes i ((vget s.lanes i).set p l) }

def State.point (s : State) (k : Fin 64) : Point := vget s.alarm.points k

def State.ref (s : State) (k : Fin 4) : RefEntry := vget s.time.refs k

/-- The lane state copy of a slot entry (4.1). -/
def SlotEntry.laneState (e : SlotEntry) : Plane → LaneState
  | .a => e.laneA
  | .b => e.laneB

def SlotEntry.setLaneState (e : SlotEntry) (p : Plane) (x : LaneState) : SlotEntry :=
  match p with
  | .a => { e with laneA := x }
  | .b => { e with laneB := x }

def SlotEntry.delay (e : SlotEntry) : Plane → Delay
  | .a => e.delayA
  | .b => e.delayB

def SlotEntry.setDelay (e : SlotEntry) (p : Plane) (d : Delay) : SlotEntry :=
  match p with
  | .a => { e with delayA := d }
  | .b => { e with delayB := d }

/-- A delay invalidated: it keeps its last value (R157). -/
def Delay.invalidate (d : Delay) : Delay := { d with valid := false }

/-- 4.3: a slot is serving while it is ADMITTED with FENCED clear. -/
def SlotEntry.serving (e : SlotEntry) : Bool := e.state == .admitted && !e.fenced

/-- R39: the lane enable is on in these states. -/
def SlotState.laneOn : SlotState → Bool
  | .training | .identifying | .admitted | .draining => true
  | _ => false

/-- R60: the power enable is on in these states. -/
def SlotState.powered : SlotState → Bool
  | .powering | .training | .identifying | .admitted | .draining => true
  | _ => false

/-- 4.3: the hub allows powering. -/
def HubState.allowsPowering : HubState → Bool
  | .inService | .carrying | .loading .adopt => true
  | _ => false

/-- R5: the guard. -/
def HubState.guard : HubState → Bool
  | .loading _ | .inService | .shuttingDown => true
  | _ => false

/-- The guard (R5). -/
def State.guard (s : State) : Bool := s.cmd.hub.guard

/-- CWAIT (R14): a controller access waits for the port. -/
def State.cwait (s : State) : Bool := s.path.waiting.isSome

/-- ATTN (R26). -/
def State.attn (s : State) : Bool := s.cmd.pending != 0

/-- 7: the quality follows from the time state and the beyond-limit flag. -/
def TimeBase.quality (t : TimeBase) : Nat :=
  match t.state with
  | .locked => 0
  | .holdover => if t.beyond then 3 else 1
  | .acquiring => 2
  | .free => 4

/-- Cabinet time now, as a stamp (R54). -/
def State.stamp (s : State) : Stamp := { sec := s.time.sec, ns := s.time.ns, mark := s.time.mark, osc := s.osc }

/-- Put `x` into a rising list of numbers, once. -/
def insertOrd (x : Nat) : List Nat → List Nat
  | [] => [x]
  | y :: l => if x < y then x :: y :: l else if x = y then y :: l else y :: insertOrd x l

/-! ## Zones (1.3) -/

/-- Does the address lie in the zone? -/
def Zone.has (z : Zone) (a : Nat) : Bool := z.base ≤ a && a < z.base + z.len

/-- Do `n` words from `a` overlap the zone? -/
def Zone.overlaps (z : Zone) (a n : Nat) : Bool := a < z.base + z.len && z.base < a + n

/-- The seven zones in the order in which validation checks them (R29). -/
def ZoneSet.toList (z : ZoneSet) : List Zone :=
  [z.rx, z.tx, z.log, z.portImage, z.groupImage, z.pointImage, z.referenceImage]

/-- The control page as a range. -/
def controlZone : Zone := { base := Config.controlPage, len := 256 }

/-- Do `n` words from `a` overlap the control page or an installed zone? -/
def MemoryPath.touchesKept (p : MemoryPath) (a n : Nat) : Bool :=
  controlZone.overlaps a n || (match p.zones with | some z => z.toList.any (·.overlaps a n) | none => false)

end Sys2Proof.Machine
end

