-- ==== Sys2Proof/Machine/Operands.lean ====
section
/-! DEFINITION. The word-level layouts of chapter 12: codes, setup block, staging records and table images with the
checks of R29 and R181, descriptors, cycle list entries, frames with their check word (R42, R43), log entries and the
counter snapshot (12.8, R186). -/

namespace Sys2Proof.Machine

open Sys2Proof

/-! ## Codes (12.1) -/

def Command.code : Command → Nat
  | .loadSetup => 0x01
  | .shutdown => 0x02
  | .counterSnapshot => 0x03
  | .setDiscipline => 0x04
  | .setTime => 0x05
  | .ringStart => 0x06
  | .ringStop => 0x07
  | .cycleStart => 0x08
  | .cycleStop => 0x09
  | .slotRelease => 0x0A
  | .slotRetry => 0x0B
  | .slotOverride => 0x0C
  | .tableUpdate => 0x0D
  | .alarmReset => 0x0E

/-- The command of a code, none when the code is not in the catalogue. -/
def Command.ofCode (n : Nat) : Option Command :=
  match n with
  | 0x01 => some .loadSetup
  | 0x02 => some .shutdown
  | 0x03 => some .counterSnapshot
  | 0x04 => some .setDiscipline
  | 0x05 => some .setTime
  | 0x06 => some .ringStart
  | 0x07 => some .ringStop
  | 0x08 => some .cycleStart
  | 0x09 => some .cycleStop
  | 0x0A => some .slotRelease
  | 0x0B => some .slotRetry
  | 0x0C => some .slotOverride
  | 0x0D => some .tableUpdate
  | 0x0E => some .alarmReset
  | _ => none

/-- The parameter count a command allows (2.3, R17). -/
def Command.allowsCount (c : Command) (n : Nat) : Bool :=
  match c with
  | .setDiscipline => n ≤ 6
  | .loadSetup | .counterSnapshot => n = 2
  | .tableUpdate => n = 3
  | .setTime | .cycleStart | .slotRelease | .slotRetry | .slotOverride | .alarmReset => n = 1
  | .shutdown | .ringStart | .ringStop | .cycleStop => n = 0

/-- The hub states in which a command is taken (2.3); LOAD_SETUP is judged by R28 instead. -/
def Command.allowedIn (c : Command) (h : HubState) : Bool :=
  match c with
  | .loadSetup => true
  | .setDiscipline | .setTime => h == .unconfigured || h == .inService || h == .carrying
  | _ => h == .inService

def CmdResult.code : CmdResult → Nat
  | .none => 0
  | .done => 1
  | .donePartial => 2
  | .cutShort => 3
  | .refusedState => 4
  | .refusedParameter => 5
  | .refusedUnknown => 6
  | .setupInvalid => 7
  | .updateInvalid => 8

def RefusalReason.code : RefusalReason → Nat
  | .none => 0
  | .busy => 1
  | .state => 2
  | .parameterIgnored => 3

def HubState.code : HubState → Nat
  | .unconfigured => 0
  | .loading _ => 1
  | .inService => 2
  | .carrying => 3
  | .shuttingDown => 4

def RingState.code : RingState → Nat
  | .stopped => 0
  | .running => 1
  | .halting => 2

def CycleState.code : CycleState → Nat
  | .idle => 0
  | .running => 1
  | .halting => 2
  | .faulted => 3

def CycleFaultKind.code : CycleFaultKind → Nat
  | .none => 0
  | .illegalAddress => 1
  | .illegalKind => 2
  | .illegalField => 3
  | .stack => 4
  | .runaway => 5

def TimeState.code : TimeState → Nat
  | .free => 0
  | .acquiring => 1
  | .locked => 2
  | .holdover => 3

def SlotState.code : SlotState → Nat
  | .empty => 0
  | .seated => 1
  | .powering => 2
  | .training => 3
  | .identifying => 4
  | .admitted => 5
  | .draining => 6
  | .released => 7
  | .faulted => 8
  | .lockedOut => 9
  | .rejected => 10

def LaneState.code : LaneState → Nat
  | .off => 0
  | .training => 1
  | .up => 2

def planeCode : Plane → Nat
  | .a => 0
  | .b => 1

def PlanePolicy.code : PlanePolicy → Nat
  | .auto => 0
  | .pinA => 1
  | .pinB => 2

def DrainCause.code : DrainCause → Nat
  | .none => 0
  | .release => 1
  | .unprovision => 2
  | .shutdown => 3

def FailReason.code : FailReason → Nat
  | .none => 0
  | .power => 1
  | .link => 2
  | .ident => 3
  | .type => 4
  | .payload => 5

/-- Bit position of a cause in a cause set. -/
def Cause.position : Cause → Nat
  | .cmdDone => 0
  | .refusal => 1
  | .guard => 2
  | .rxFrame => 3
  | .txDone => 4
  | .ringError => 5
  | .cycleNotify => 6
  | .cycleEnd => 7
  | .cycleFault => 8
  | .slotChange => 9
  | .timeState => 10
  | .alarmLogged => 11

def Table.code : Table → Nat
  | .port => 1
  | .group => 2
  | .alarmPoint => 3
  | .reference => 4

def Table.ofCode (n : Nat) : Option Table :=
  match n with
  | 1 => some .port
  | 2 => some .group
  | 3 => some .alarmPoint
  | 4 => some .reference
  | _ => none

/-- Number of entries of a table (chapter 11). -/
def Table.entries : Table → Nat
  | .port => 13
  | .group => 64
  | .alarmPoint => 64
  | .reference => 4

/-- Words of a record of a table. -/
def Table.words : Table → Nat
  | .port => 8
  | .group => 2
  | .alarmPoint => 4
  | .reference => 2

/-- How many words of a record carry controller-set fields: they come first in every layout (12.5). -/
def Table.cfgWords (t : Table) (index : Nat) : Nat :=
  match t with
  | .port => if index = 0 then 1 else 3
  | .group => 2
  | .alarmPoint => 3
  | .reference => 1

def SourceKind.code : SourceKind → Nat
  | .contact => 0
  | .slot => 1
  | .cardFlag => 2
  | .cardCode => 3
  | .time => 4
  | .reference => 5
  | .traffic => 6
  | .cycleFaulted => 7

def SourceKind.ofCode (n : Nat) : SourceKind :=
  match n with
  | 0 => .contact
  | 1 => .slot
  | 2 => .cardFlag
  | 3 => .cardCode
  | 4 => .time
  | 5 => .reference
  | 6 => .traffic
  | _ => .cycleFaulted

def Severity.code : Severity → Nat
  | .critical => 0
  | .major => 1
  | .minor => 2
  | .warning => 3

def Severity.ofCode (n : Nat) : Severity :=
  match n with
  | 0 => .critical
  | 1 => .major
  | 2 => .minor
  | _ => .warning

def PointState.code : PointState → Nat
  | .clear => 0
  | .pendingRaise => 1
  | .raised => 2
  | .pendingClear => 3

def clsCode : Cls → Nat
  | .bulk => 0
  | .timed => 1

/-- Class of a header bit or descriptor bit. -/
def clsOf (b : Bool) : Cls := if b then .timed else .bulk

/-! ## Setup block (2.7, R29) -/

/-- The thirteen words read, as a setup block. -/
def Setup.ofWords (ws : List Word) : Setup :=
  let n (k : Nat) : Nat := (ws.getD k 0).toNat
  { rxBase := n 0, rxSize := n 1, txBase := n 2, txSize := n 3, holdMs := n 4, logBase := n 5, logSize := n 6,
    portBase := n 7, groupBase := n 8, pointBase := n 9, referenceBase := n 10, pollUs := n 11, mask := ws.getD 12 0 }

/-- The seven zones of a setup block (1.3). -/
def Setup.zones (b : Setup) : ZoneSet :=
  { rx := ⟨b.rxBase, 4 * b.rxSize⟩, tx := ⟨b.txBase, 4 * b.txSize⟩, log := ⟨b.logBase, 4 * b.logSize⟩,
    portImage := ⟨b.portBase, 104⟩, groupImage := ⟨b.groupBase, 128⟩, pointImage := ⟨b.pointBase, 256⟩,
    referenceImage := ⟨b.referenceBase, 8⟩ }

/-- The ring parameters of a setup block. -/
def Setup.rings (b : Setup) : RingParams :=
  { rxBase := b.rxBase, rxSize := b.rxSize, txBase := b.txBase, txSize := b.txSize, holdMs := b.holdMs }

def ringSizes : List Nat := [4, 8, 16, 32, 64, 128, 256]
def logSizes : List Nat := [16, 32, 64, 128, 256]

/-- The field checks of the setup table in the order of R29, each with the word number it reports. -/
def Setup.fieldChecks (b : Setup) : List (Nat × Bool) :=
  [(1, ringSizes.contains b.rxSize), (0, b.rxBase % (4 * b.rxSize) = 0),
   (3, ringSizes.contains b.txSize), (2, b.txBase % (4 * b.txSize) = 0),
   (4, b.holdMs ≤ 100), (6, logSizes.contains b.logSize), (5, b.logBase % 4 = 0),
   (7, b.portBase % 8 = 0), (8, b.groupBase % 2 = 0), (9, b.pointBase % 4 = 0), (10, b.referenceBase % 2 = 0),
   (11, 2 ≤ b.pollUs && b.pollUs ≤ 200)]

/-- The zone checks of R29, in zone order: the first zone that fails is reported by its base's word number. -/
def zonesFail : List Zone → List (Nat × Zone) → Option Nat
  | _, [] => none
  | before, (n, z) :: rest =>
    if z.base + z.len ≤ Config.memoryWords && !controlZone.overlaps z.base z.len &&
        !before.any (·.overlaps z.base z.len)
    then zonesFail (z :: before) rest else some n

/-- R29: the word number of the first failure of a setup block, none when it is valid. -/
def Setup.fail (b : Setup) : Option Nat :=
  match b.fieldChecks.find? (fun c => !c.2) with
  | some c => some c.1
  | none => zonesFail [] ([0, 2, 5, 7, 8, 9, 10].zip b.zones.toList)

/-! ## Records of the tables (12.5, R181) -/

/-- PORT record of a slot from its words 0–2. -/
def PortCfg.ofWords (ws : List Word) : PortCfg :=
  let w (k : Nat) : Word := ws.getD k 0
  let types : List (BitVec 16) :=
    [(w 1).extractLsb' 0 16, (w 1).extractLsb' 16 16, (w 2).extractLsb' 0 16, (w 2).extractLsb' 16 16]
  { provisioned := bit (w 0) 0
    policy := match field (w 0) 1 2 with | 0 => .auto | 1 => .pinA | _ => .pinB
    gate := field (w 0) 3 3
    missLimit := field (w 0) 6 4
    allowed := types.take (field (w 0) 10 3)
    timedLimit := field (w 0) 13 9
    bulkLimit := field (w 0) 22 9 }

/-- Group entry from its two words. -/
def Group.ofWords (ws : List Word) : Group :=
  { enabled := bit (ws.getD 0 0) 0, members := (ws.getD 1 0).extractLsb' 0 13 }

/-- ALARM_POINT record from its words 0–2. -/
def PointCfg.ofWords (ws : List Word) : PointCfg :=
  let w (k : Nat) : Word := ws.getD k 0
  { enabled := bit (w 0) 0, kind := SourceKind.ofCode (field (w 0) 4 3), severity := Severity.ofCode (field (w 0) 8 2),
    latching := bit (w 0) 12, masked := bit (w 0) 13, whenOpen := bit (w 0) 14,
    which := field (w 1) 0 8, cond := field (w 1) 8 8, raiseCount := field (w 2) 0 8, clearCount := field (w 2) 8 8 }

/-- REFERENCE record from its word 0. -/
def RefCfg.ofWords (ws : List Word) : RefCfg :=
  let w := ws.getD 0 0
  { kind := if bit w 0 then .slot else .ppsInput, slot := field w 8 4, enabled := bit w 16 }

/-- R181, field 3: the selector lies in the range its source kind requires (R167, 12.5). -/
def PointCfg.selectorOk (c : PointCfg) : Bool :=
  let slotOk := 1 ≤ c.which && c.which ≤ 12
  match c.kind with
  | .contact => c.which ≤ 7
  | .slot => slotOk && c.cond ≤ 6
  | .cardFlag => slotOk && c.cond ≤ 2
  | .cardCode => slotOk
  | .time => c.cond ≤ 4
  | .reference => c.which ≤ 3
  | .traffic => c.cond ≤ 2 && (c.cond ≠ 2 || c.which ≤ 12)
  | .cycleFaulted => true

/-- R183: the part of the selector that the source kind reads (12.5, "the instance byte is read only by the kinds that
name an instance"). -/
def PointCfg.selector (c : PointCfg) : Nat × Nat :=
  match c.kind with
  | .contact | .reference => (c.which, 0)
  | .slot | .cardFlag | .cardCode => (c.which, c.cond)
  | .time => (0, c.cond)
  | .traffic => if c.cond = 2 then (c.which, c.cond) else (0, c.cond)
  | .cycleFaulted => (0, 0)

/-- The checks of R181 on a record's controller-set words, each with its field number. -/
def recordChecks (t : Table) (index : Nat) (ws : List Word) : List (Nat × Bool) :=
  let w (k : Nat) : Word := ws.getD k 0
  match t with
  | .port =>
    if index = 0 then [(1, 4 ≤ field (w 0) 0 10 && field (w 0) 0 10 ≤ 512)]
    else
      let c := PortCfg.ofWords ws
      [(2, field (w 0) 10 3 ≤ 4), (3, c.allowed.all (· ≠ 0)), (4, field (w 0) 1 2 ≠ 3), (5, c.gate ≤ 4),
       (6, 4 ≤ c.timedLimit && c.timedLimit ≤ 256), (7, 4 ≤ c.bulkLimit && c.bulkLimit ≤ 256), (8, 1 ≤ c.missLimit)]
  | .group => [(2, (w 1).toNat < 2 ^ 13)]
  | .alarmPoint =>
    let c := PointCfg.ofWords ws
    [(3, c.selectorOk), (5, 1 ≤ c.raiseCount), (6, 1 ≤ c.clearCount)]
  | .reference =>
    let c := RefCfg.ofWords ws
    [(2, c.kind ≠ .slot || (1 ≤ c.slot && c.slot ≤ 12))]

/-- R181: the number of the first field of a record that fails, none when the record is valid. -/
def recordFail (t : Table) (index : Nat) (ws : List Word) : Option Nat :=
  ((recordChecks t index ws).find? (fun c => !c.2)).map (·.1)

/-! ## Table images (12.5) -/

/-- A word of a slot's image entry. -/
def SlotEntry.imageWord (e : SlotEntry) (k : Nat) : Word :=
  let c := e.cfg
  let ty (j : Nat) : Nat := (c.allowed.getD j 0).toNat
  match k with
  | 0 => wordOf (flag c.provisioned + 2 * c.policy.code + 2 ^ 3 * c.gate + 2 ^ 6 * c.missLimit
      + 2 ^ 10 * c.allowed.length + 2 ^ 13 * c.timedLimit + 2 ^ 22 * c.bulkLimit)
  | 1 => wordOf (ty 0 + 2 ^ 16 * ty 1)
  | 2 => wordOf (ty 2 + 2 ^ 16 * ty 3)
  | 3 => wordOf (e.state.code + 2 ^ 4 * flag e.fenced + 2 ^ 5 * planeCode e.active + 2 ^ 6 * e.laneA.code
      + 2 ^ 8 * e.laneB.code + 2 ^ 10 * e.missed + 2 ^ 14 * flag e.override + 2 ^ 15 * e.drainCause.code
      + 2 ^ 17 * e.reason.code + (match e.card with | some d => 2 ^ 20 + 2 ^ 21 * d.maxPayload | none => 0))
  | 4 => wordOf (e.delayA.value + 2 ^ 13 * flag e.delayA.valid + 2 ^ 14 * e.alt + 2 ^ 16 * e.delayB.value
      + 2 ^ 29 * flag e.delayB.valid + 2 ^ 30 * e.attempts)
  | 5 => (match e.card with | some d => wordOf (d.cardType.toNat + 2 ^ 16 * d.revision.toNat) | none => 0)
  | 6 => (match e.card with | some d => d.serial1 | none => 0)
  | 7 => (match e.card with | some d => d.serial2 | none => 0)
  | _ => 0

def Group.imageWord (g : Group) (k : Nat) : Word :=
  match k with
  | 0 => wordOf (flag g.enabled)
  | 1 => wordOf g.members.toNat
  | _ => 0

def Point.imageWord (p : Point) (k : Nat) : Word :=
  let c := p.cfg
  match k with
  | 0 => wordOf (flag c.enabled + 2 ^ 4 * c.kind.code + 2 ^ 8 * c.severity.code + 2 ^ 12 * flag c.latching
      + 2 ^ 13 * flag c.masked + 2 ^ 14 * flag c.whenOpen)
  | 1 => wordOf (c.which + 2 ^ 8 * c.cond)
  | 2 => wordOf (c.raiseCount + 2 ^ 8 * c.clearCount)
  | 3 => wordOf (p.state.code + 2 ^ 8 * p.count + 2 ^ 16 * flag p.sourceCleared)
  | _ => 0

def RefEntry.imageWord (r : RefEntry) (k : Nat) : Word :=
  match k with
  | 0 => wordOf ((match r.cfg.kind with | .ppsInput => 0 | .slot => 1) + 2 ^ 8 * r.cfg.slot + 2 ^ 16 * flag r.cfg.enabled)
  | 1 => wordOf (flag r.qualified + 2 ^ 8 * r.good)
  | _ => 0

/-- The working value of an image word. -/
def State.imageValue (s : State) (w : ImgWord) : Word :=
  match w.table with
  | .port =>
    match slotOf w.index with
    | some i => (s.slot i).imageWord w.word
    | none => if w.word = 0 then wordOf s.sm.q0Limit else 0
  | .group => if h : w.index < 64 then (vget s.sw.groups ⟨w.index, h⟩).imageWord w.word else 0
  | .alarmPoint => if h : w.index < 64 then (s.point ⟨w.index, h⟩).imageWord w.word else 0
  | .reference => if h : w.index < 4 then (s.ref ⟨w.index, h⟩).imageWord w.word else 0

/-- The base of a table's image in the installed zones. -/
def ZoneSet.imageBase (z : ZoneSet) : Table → Nat
  | .port => z.portImage.base
  | .group => z.groupImage.base
  | .alarmPoint => z.pointImage.base
  | .reference => z.referenceImage.base

/-- The address of an image word. -/
def ZoneSet.imageAddr (z : ZoneSet) (w : ImgWord) : Nat := z.imageBase w.table + w.table.words * w.index + w.word

/-- Image words `lo`, …, `hi − 1` of every entry of a table from entry `first` on, in entry order. -/
def tableWords (t : Table) (first lo hi : Nat) : List ImgWord :=
  (List.range' first (t.entries - first)).flatMap (fun i => (List.range' lo (hi - lo)).map (fun k => ⟨t, i, k⟩))

/-- The image words of GH412-maintained fields, in the order in which a LOAD writes them back (R30). -/
def writebackWords : List ImgWord :=
  tableWords .port 1 3 8 ++ tableWords .alarmPoint 0 3 4 ++ tableWords .reference 0 1 2

/-- Every image word, in the order in which an ADOPT writes them out (R31): 496 words. -/
def writeoutWords : List ImgWord :=
  tableWords .port 0 0 8 ++ tableWords .group 0 0 2 ++ tableWords .alarmPoint 0 0 4 ++ tableWords .reference 0 0 2

/-- The entries whose images a LOAD reads, in order (R30): 145 entries. -/
def loadEntries : List (Table × Nat) :=
  ([Table.port, .group, .alarmPoint, .reference]).flatMap (fun t => (List.range t.entries).map (fun i => (t, i)))

/-! ## Descriptors (12.3) -/

/-- Owner field of a descriptor: 1 is GH412. -/
def descOwned (w : Word) : Bool := bit w 31
def descStart (w : Word) : Bool := bit w 30
def descEnd (w : Word) : Bool := bit w 29
/-- Destination and class of a transmit descriptor's owner word. -/
def descDestination (w : Word) : Nat := field w 16 7
def descClass (w : Word) : Cls := clsOf (bit w 8)
/-- Buffer size (word 2, 13:0) and buffer address (word 1, 19:0). -/
def descSize (w : Word) : Nat := field w 0 14
def descAddr (w : Word) : Nat := field w 0 20

/-- R101: a receive buffer size the look-ahead accepts. -/
def bufferSizeOk (n : Nat) : Bool := 64 ≤ n && n ≤ 8192 && n % 4 = 0

/-- Owner word of a receive descriptor handed back (R104, R105). -/
def rxOwnerWord (start fin : Bool) (error src : Nat) (c : Cls) : Word :=
  wordOf (2 ^ 30 * flag start + 2 ^ 29 * flag fin + 2 ^ 24 * error + 2 ^ 16 * src + 2 ^ 8 * clsCode c)

/-- Length word of a receive descriptor. -/
def rxLengthWord (stored frameLength : Nat) : Word := wordOf (stored + 2 ^ 16 * frameLength)

def TxOutcome.code : TxOutcome → Nat
  | .accepted => 1
  | .someLost => 2
  | .undeliverable => 3
  | .overlength => 4
  | .badDestination => 5

/-- Owner word of a transmit descriptor handed back (R109): start and end flags, destination and class as written. -/
def txOwnerWord (owner : Word) (out : TxOutcome) : Word :=
  wordOf (2 ^ 30 * flag (descStart owner) + 2 ^ 29 * flag (descEnd owner) + 2 ^ 24 * out.code
    + 2 ^ 16 * descDestination owner + 2 ^ 8 * clsCode (descClass owner))

/-! ## Cycle list entries (12.4) -/

inductive EntryKind where
  | stop
  | waitGap
  | waitBoundary
  | jump
  | call
  | ret
  | poll
  | time
  | notify
  deriving DecidableEq, Repr

def EntryKind.ofWord (w : Word) : Option EntryKind :=
  match field w 0 4 with
  | 0 => some .stop
  | 1 => some .waitGap
  | 2 => some .waitBoundary
  | 3 => some .jump
  | 4 => some .call
  | 5 => some .ret
  | 6 => some .poll
  | 7 => some .time
  | 8 => some .notify
  | _ => none

/-- Plane choice field; 3 names none. -/
def PlaneChoice.ofNat (n : Nat) : Option PlaneChoice :=
  match n with
  | 0 => some .active
  | 1 => some (.named .a)
  | 2 => some (.named .b)
  | _ => none

/-- R138: the periods a WAIT_BOUNDARY accepts, in ms. -/
def boundaryPeriods : List Nat := [1, 2, 4, 5, 8, 10, 20, 25, 40, 50, 100, 125, 200, 250, 500, 1000]

/-- Outcome codes of result word 4. -/
inductive EntryOutcome where
  | elapsed
  | slipped
  | stopped
  | success
  | noResponse
  | badResponse
  | absent
  | sent
  | notSent
  deriving DecidableEq, Repr

def EntryOutcome.code : EntryOutcome → Nat
  | .elapsed => 1
  | .slipped => 2
  | .stopped => 3
  | .success => 4
  | .noResponse => 5
  | .badResponse => 6
  | .absent => 7
  | .sent => 8
  | .notSent => 9

/-- Result word 4. -/
def resultWord (o : EntryOutcome) (attempts : Nat) (planeB : Bool) (flags codes : Nat) : Word :=
  wordOf (o.code + 2 ^ 8 * attempts + 2 ^ 12 * flag planeB + 2 ^ 16 * flags + 2 ^ 24 * codes)

/-- Result word 5: RTT present, and the bits of the RTT sample. -/
def rttWord (present : Bool) (sample : Nat) : Word := wordOf (2 ^ 31 * flag present + sample)

/-! ## Frames (12.7) and the check word (R42) -/

/-- One bit fed into the check register. -/
def checkBit (r : Word) (b : Bool) : Word :=
  if r.msb ≠ b then (r <<< 1) ^^^ 0x04C11DB7#32 else r <<< 1

/-- One byte fed into the check register, least significant bit first. -/
def checkByte (r : Word) (b : Byte) : Word :=
  (List.range 8).foldl (fun r k => checkBit r (b.getLsbD k)) r

/-- The check register after some bytes, from all ones. -/
def checkRun (bs : List Byte) : Word := bs.foldl checkByte 0xFFFFFFFF#32

/-- The check word of a header and payload. -/
def checkWord (bs : List Byte) : Word := ~~~ checkRun bs

/-- The check word as sent: least significant byte first. -/
def checkBytes (w : Word) : List Byte := [Memory.byteOf w 0, Memory.byteOf w 1, Memory.byteOf w 2, Memory.byteOf w 3]

/-- The eight defined frame kinds. -/
inductive FrameKind where
  | data
  | poll
  | status
  | time
  | identRequest
  | ident
  | admission
  | ref
  deriving DecidableEq, Repr

def FrameKind.code : FrameKind → Nat
  | .data => 1
  | .poll => 2
  | .status => 3
  | .time => 4
  | .identRequest => 5
  | .ident => 6
  | .admission => 7
  | .ref => 8

def FrameKind.ofCode (n : Nat) : Option FrameKind :=
  match n with
  | 1 => some .data
  | 2 => some .poll
  | 3 => some .status
  | 4 => some .time
  | 5 => some .identRequest
  | 6 => some .ident
  | 7 => some .admission
  | 8 => some .ref
  | _ => none

/-- Header fields. -/
def hdrKind (bs : List Byte) : Option FrameKind := FrameKind.ofCode (byteAt bs 0).toNat
def hdrDestination (bs : List Byte) : Nat := (byteAt bs 1).toNat % 128
def hdrSource (bs : List Byte) : Nat := (byteAt bs 2).toNat
def hdrClass (bs : List Byte) : Cls := clsOf ((byteAt bs 3).getLsbD 0)
def hdrLength (bs : List Byte) : Nat := (byteAt bs 4).toNat * 256 + (byteAt bs 5).toNat

/-- A header as the GH412 builds it (R43). -/
def headerBytes (k : FrameKind) (dst src : Nat) (c : Cls) (len : Nat) : List Byte :=
  [BitVec.ofNat 8 k.code, BitVec.ofNat 8 dst, BitVec.ofNat 8 src, BitVec.ofNat 8 (clsCode c)] ++ beBytes 2 len ++ [0, 0]

/-- A control frame's header and payload: source 0, destination the slot number, class BULK. -/
def controlFrame (i : Slot) (k : FrameKind) (payload : List Byte) : List Byte :=
  headerBytes k (i.val + 1) 0 .bulk payload.length ++ payload

def pollPayload (n : Nat) : List Byte := beBytes 2 n ++ [0, 0]
def admitPayload (i : Slot) (p : Plane) : List Byte := [BitVec.ofNat 8 (i.val + 1), BitVec.ofNat 8 (planeCode p), 0, 0]
def timePayload (sec ns quality : Nat) (delayValid : Bool) (p : Plane) : List Byte :=
  beBytes 4 sec ++ beBytes 4 ns ++
    [BitVec.ofNat 8 quality, BitVec.ofNat 8 (flag delayValid), BitVec.ofNat 8 (planeCode p), 0]

/-- STATUS payload fields. -/
def statusNumber (bs : List Byte) : Nat := beNat (bs.take 2)
def statusFlags (bs : List Byte) : BitVec 4 := (byteAt bs 2).extractLsb' 0 4
def statusCount (bs : List Byte) : Nat := (byteAt bs 3).toNat
def statusTurnaround (bs : List Byte) : Nat := beNat ((bs.drop 4).take 2)
def statusCodes (bs : List Byte) : List Byte := (bs.drop 8).take (statusCount bs)

/-- IDENT payload fields. -/
def identType (bs : List Byte) : BitVec 16 := BitVec.ofNat 16 (beNat (bs.take 2))
def identPayload (bs : List Byte) : Nat := beNat ((bs.drop 2).take 2)
def identSerial1 (bs : List Byte) : Word := wordOf (beNat ((bs.drop 4).take 4))
def identSerial2 (bs : List Byte) : Word := wordOf (beNat ((bs.drop 8).take 4))
def identRevision (bs : List Byte) : BitVec 16 := BitVec.ofNat 16 (beNat ((bs.drop 12).take 2))

/-- R83: blocks of a frame of `p` payload bytes. -/
def blocksFor (p : Nat) : Nat := (8 + p + 63) / 64

/-! ## Alarm log entries (12.6) -/

/-- Word `k` of a log entry. -/
def LogEntry.wordAt (e : LogEntry) (k : Nat) : Word :=
  match k, e.body with
  | 0, .change p _ _ _ => wordOf (e.seq + 2 ^ 16 * p)
  | 0, .overflow _ => wordOf (e.seq + 2 ^ 16 * 255)
  | 1, .change _ r v i => wordOf (flag r + 2 ^ 8 * v.code + 2 ^ 16 * i)
  | 1, .overflow n => wordOf n
  | 2, _ => wordOf e.sec
  | _, _ => wordOf e.ns

/-! ## Counter snapshot (12.8, R186) -/

/-- The eight counters of port 0. -/
def PortCounters.port0Words (c : PortCounters) : List Nat :=
  [c.framesIn, c.framesOut, c.badDestination, c.poolEmpty, c.notServing, c.portClosed, c.queueFull, c.flushed]

/-- The twelve counters of a slot. -/
def PortCounters.slotWords (c : PortCounters) : List Nat :=
  [c.framesIn, c.framesOut, c.check, c.overlength, c.spoofed, c.notAdmitted, c.badDestination, c.poolEmpty,
   c.notServing, c.queueFull, c.timeGated, c.flushed]

/-- R186: the sum of a count over the twelve lane ports of a plane, at most 4,294,967,295. -/
def State.laneSum (s : State) (p : Plane) (f : LanePort → Nat) : Nat :=
  min (allSlots.foldl (fun n i => n + f (s.lane i p)) 0) Config.sat32

/-- The four lane words of a plane. -/
def State.laneWords (s : State) (p : Plane) : List Nat :=
  [s.laneSum p (·.partialCount), s.laneSum p (·.setAside), s.laneSum p (·.resend), s.laneSum p (·.notSent)]

def RingCounters.words (c : RingCounters) : List Nat :=
  [c.placed, c.missed, c.badBuffer, c.accepted, c.someLost, c.undeliverable, c.overlength, c.badDestination, c.malformed]

def CycleCounters.words (c : CycleCounters) : List Nat :=
  [c.attempts, c.succeeded, c.unanswered, c.absent, c.stray, c.slips, c.timeNotSent, c.faults]

/-- The 192 words of a COUNTER_SNAPSHOT as they stand now. -/
def State.snapshotWords (s : State) (clear : Bool) : List Nat :=
  [Config.partCode + 2 ^ 16 * Config.revision, s.cmd.record.accepted + 2 ^ 16 * flag clear, s.time.sec, s.time.ns,
   s.time.mark, s.sw.free]
  ++ (vget s.sw.counters 0).port0Words
  ++ allSlots.flatMap (fun i => (vget s.sw.counters (portOf i)).slotWords)
  ++ s.laneWords .a ++ s.laneWords .b
  ++ [s.path.guardedCount, s.path.partialCount]
  ++ s.ring.counters.words
  ++ s.cyc.counters.words
  ++ [s.time.steps, s.time.setApplied, s.time.discardedRefs, s.time.intervalRejects, s.time.watchExpiries]
  ++ [s.sm.discarded, s.alarm.ignored]

end Sys2Proof.Machine
end

