-- ==== Sys2Proof/Machine/Flags.lean ====
section
/-! DEFINITION. What every block reports to the command unit: the words of the status area, slot summary and command
status record (12.2), the rewrite sets that keep memory in step with them (R34, R185), the attention causes (R23, R26), and
the word that the command unit has waiting for the port (R35). -/

namespace Sys2Proof.Machine

open Sys2Proof

/-- The value of the word at a control page offset from 20h to 5Bh (12.2). -/
def State.statusWord (s : State) (off : Nat) : Word :=
  let r := s.cmd.record
  match off with
  | 0x20 => wordOf r.accepted
  | 0x21 => wordOf r.done
  | 0x22 => wordOf (r.lastCode + 2 ^ 8 * r.result.code + 2 ^ 16 * flag r.clamped)
  | 0x23 => wordOf (r.fail.number + 2 ^ 8 * r.fail.table)
  | 0x24 => wordOf (r.refusals + 2 ^ 16 * r.lastReason.code + 2 ^ 24 * r.lastOffset)
  | 0x25 => wordOf r.lastRefusedCode
  | 0x30 => wordOf (Config.partCode + 2 ^ 16 * Config.revision)
  | 0x31 => wordOf (s.cmd.hub.code + 2 ^ 4 * s.ring.state.code + 2 ^ 8 * s.cyc.state.code
      + 2 ^ 12 * (if s.cyc.state = .faulted then s.cyc.fault.code else 0))
  | 0x32 => wordOf s.cyc.cur.toNat
  | 0x33 => s.cyc.notify
  | 0x34 => wordOf (s.time.state.code + 2 ^ 4 * s.time.quality + 2 ^ 8 * flag s.time.beyond
      + 2 ^ 12 * (match s.time.selected with | some k => k.val | none => 7))
  | 0x35 => BitVec.ofInt 32 s.time.lastError
  | 0x36 => BitVec.ofInt 32 s.time.trim
  | 0x37 => wordOf s.time.holdover
  | 0x38 => wordOf s.cmd.snapSec
  | 0x39 => wordOf s.cmd.snapNs
  | 0x3A => wordOf s.cmd.pending.toNat
  | 0x3B => wordOf (s.alarm.producer + 2 ^ 16 * s.alarm.overflow)
  | 0x3C => wordOf s.sw.free
  | 0x3D => wordOf s.path.guardedCount
  | 0x3E => wordOf s.path.lastGuarded.toNat
  | n =>
    if h : 0x50 ≤ n ∧ n ≤ 0x5B then
      let e := s.slot ⟨n - 0x50, by omega⟩
      wordOf (e.state.code + 2 ^ 4 * flag e.fenced + 2 ^ 5 * planeCode e.active)
    else 0

/-- Put a status word into the rewrite set. -/
def State.touch (s : State) (off : Nat) : State := { s with cmd := { s.cmd with rewrite := insertOrd off s.cmd.rewrite } }

/-- R34: after a change from `s` to `t`, each of the words named joins the rewrite set unless its new value equals
the value already held. -/
def retouch (offs : List Nat) (s t : State) : State :=
  { t with cmd := { t.cmd with
      rewrite := offs.foldl (fun l o => if s.statusWord o = t.statusWord o then l else insertOrd o l) t.cmd.rewrite } }

/-- R185: image words join the image rewrite set while the zone set is installed and the hub is LOADING, IN_SERVICE or
SHUTTING_DOWN. -/
def State.imagesKept (s : State) : Bool := s.path.zones.isSome && s.guard

/-- R185: after a change from `s` to `t`, each of the image words named whose value has changed joins the image rewrite
set, when images are kept. -/
def reimage (ws : List ImgWord) (s t : State) : State :=
  { t with cmd := { t.cmd with
      images := if t.imagesKept
        then ws.foldl (fun l w => if s.imageValue w = t.imageValue w || l.contains w then l else l ++ [w]) t.cmd.images
        else t.cmd.images } }

/-- A cause's set. -/
def Cause.bits (c : Cause) : BitVec 12 := BitVec.ofNat 12 (2 ^ c.position)

/-- Change the attention pending set (R23, R26). -/
def State.setPending (s : State) (p : BitVec 12) : State :=
  retouch [0x3A] s { s with cmd := { s.cmd with pending := p } }

/-- R23: a cause delivered to the command unit enters the pending set if the mask holds it, and is discarded otherwise. -/
def State.deliver (s : State) (c : Cause) : State :=
  s.setPending (s.cmd.pending ||| (c.bits &&& s.cmd.mask))

/-- Change the command status record. -/
def State.setRecord (s : State) (r : CmdRecord) : State :=
  retouch [0x20, 0x21, 0x22, 0x23, 0x24, 0x25] s { s with cmd := { s.cmd with record := r } }

/-- Change the ring engine; a change of its state reaches word 31h (R98). -/
def State.setRing (s : State) (r : RingEngine) : State := retouch [0x31] s { s with ring := r }

/-- Change the cycle engine; its state, entry address and notify code are status words (R134). -/
def State.setCyc (s : State) (c : CycleEngine) : State := retouch [0x31, 0x32, 0x33] s { s with cyc := c }

/-- Change the switch core; the free-block count is a status word (R95). -/
def State.setSw (s : State) (w : SwitchCore) : State := retouch [0x3C] s { s with sw := w }

/-- Change the alarm unit; the producer index and the overflow count are a status word (R174, R175). -/
def State.setAlarm (s : State) (a : AlarmUnit) : State := retouch [0x3B] s { s with alarm := a }

/-- Deliver a time snapshot to the command unit (R115, R124). -/
def State.snapshot (s : State) (sec ns : Nat) : State :=
  retouch [0x38, 0x39] s { s with cmd := { s.cmd with snapSec := sec, snapNs := ns } }

/-- R8: count a guarded write, record its address and deliver GUARD. -/
def State.guardHit (s : State) (a : Addr) : State :=
  let t := { s with path := { s.path with guardedCount := inc32 s.path.guardedCount, lastGuarded := a } }
  (retouch [0x3D, 0x3E] s t).deliver .guard

/-- The image words of a slot's GH412-maintained fields. -/
def slotImageWords (i : Slot) : List ImgWord := (List.range' 3 5).map (fun k => ⟨.port, i.val + 1, k⟩)

/-- The summary of a slot: what R77 delivers each change of. -/
def SlotEntry.summary (e : SlotEntry) : SlotState × Bool × Plane := (e.state, e.fenced, e.active)

/-- R77: replace a slot's entry. The summary word and the image words that change join the rewrite sets, and a change of
the slot state, the FENCED flag or the active plane delivers SLOT_CHANGE. -/
def State.putSlot (s : State) (i : Slot) (e : SlotEntry) : State :=
  let t := reimage (slotImageWords i) s (retouch [0x50 + i.val] s (s.setSlot i e))
  if (s.slot i).summary = e.summary then t else t.deliver .slotChange

/-- Replace an alarm point; its state word joins the image rewrite set when it changes (R165). -/
def State.putPoint (s : State) (k : Fin 64) (p : Point) : State :=
  reimage [⟨.alarmPoint, k.val, 3⟩] s { s with alarm := { s.alarm with points := vset s.alarm.points k p } }

/-! ## The port as the requesters see it -/

/-- Is a word of one of the purposes named holding the port? -/
def State.inFlight (s : State) (p : Purpose → Bool) : Bool :=
  match s.path.holder with
  | some (.word h) => p h.purpose
  | _ => false

/-- The address of an image word in the installed zones. -/
def State.imageAddr (s : State) (w : ImgWord) : Addr :=
  match s.path.zones with | some z => addrOf (z.imageAddr w) | none => 0

/-! ## The command unit's place (R35) -/

/-- Is the offset a word of the command status record? -/
def recordOffset (o : Nat) : Bool := 0x20 ≤ o && o ≤ 0x2F

/-- R35: the word the rewrite set supplies: the lowest offset, the done-sequence word only when no other word of the
record is in the set. -/
def pickStatus (set : List Nat) : Option Nat :=
  set.find? (fun o => o ≠ 0x21 || !set.any (fun x => recordOffset x && x ≠ 0x21))

/-- R185: the word the image rewrite set supplies: the lowest address. -/
def State.pickImage (s : State) : Option ImgWord :=
  s.cmd.images.foldl (fun best w =>
    match best with
    | some b => if (s.imageAddr w).toNat < (s.imageAddr b).toNat then some w else some b
    | none => some w) none

/-- The word a source supplies. A transfer asks for its next word when the one before has completed (DESIGN CHOICE,
assumption log 36). -/
def State.supply (s : State) (x : Source) : Option CmdWord :=
  match x with
  | .status => (pickStatus s.cmd.rewrite).map CmdWord.status
  | .image => s.pickImage.map CmdWord.image
  | .transfer => if s.cmd.transfer.isSome && !s.inFlight (· == .transfer) then some .transfer else none

/-- R35: the order in which the sources are tried after the one that supplied the last word. -/
def Source.after : Source → List Source
  | .status => [.image, .transfer, .status]
  | .image => [.transfer, .status, .image]
  | .transfer => [.status, .image, .transfer]

/-- Does the word in the place still have its work? A word whose work has gone is withdrawn (R11), and the done-sequence
word of a finished command gives way to the record's other words (R22, assumption log 21). -/
def State.placeStands (s : State) (w : CmdWord) : Bool :=
  match w with
  | .status o =>
    s.cmd.rewrite.contains o &&
      (o ≠ 0x21 || !s.cmd.doneOwed || !s.cmd.rewrite.any (fun x => recordOffset x && x ≠ 0x21))
  | .image w => s.cmd.images.contains w
  | .transfer => s.cmd.transfer.isSome

/-- R35: the command unit's place is filled whenever it is free, whoever holds the port (assumption log 36). -/
def State.fillCommand (s : State) : State :=
  match s.cmd.place.filter s.placeStands with
  | some _ => s
  | none =>
    match s.cmd.lastSource.after.find? (fun x => (s.supply x).isSome) with
    | some x => { s with cmd := { s.cmd with place := s.supply x, lastSource := x } }
    | none => { s with cmd := { s.cmd with place := none } }

end Sys2Proof.Machine
end

