-- ==== Sys2Proof/Machine/Alarm.lean ====
section
/-! DEFINITION. The alarm unit (chapter 10): observations, persistence, the log, the relays and the consumer index. -/

namespace Sys2Proof.Machine

open Sys2Proof

/-! ## Relays (R178) -/

/-- 2.6, R178: the hub states in which a relay may be energised. -/
def HubState.relaysOn : HubState → Bool
  | .inService | .carrying | .loading .adopt => true
  | _ => false

/-- Is an unmasked point of one of the severities RAISED? -/
def AlarmUnit.anyRaised (a : AlarmUnit) (sevs : List Severity) : Bool :=
  a.points.toList.any (fun p => p.state == .raised && !p.cfg.masked && sevs.contains p.cfg.severity)

/-- R178: judge both relays. -/
def State.judgeRelays (s : State) : State :=
  { s with alarm := { s.alarm with
      major := s.cmd.hub.relaysOn && !s.alarm.anyRaised [.critical, .major]
      minor := s.cmd.hub.relaysOn && !s.alarm.anyRaised [.minor] } }

/-! ## The log (R173 to R177) -/

/-- R174: positions of the log not yet taken. -/
def AlarmUnit.freePositions (a : AlarmUnit) : Nat :=
  a.logSize - 1 - (a.writeIdx + a.logSize - a.consumer) % a.logSize

/-- R174: assign an entry with the content given: it takes the next sequence number and the write index. -/
def State.assignEntry (s : State) (b : LogBody) : State :=
  let a := s.alarm
  let e : LogEntry :=
    { addr := addrOf (a.logBase + 4 * a.writeIdx), pos := a.writeIdx, seq := a.seq, body := b, sec := s.time.sec,
      ns := s.time.ns, stale := false }
  { s with alarm := { a with queue := a.queue ++ [e], writeIdx := (a.writeIdx + 1) % a.logSize,
                             seq := (a.seq + 1) % 65536 } }

/-- Add to the overflow count (saturating at 65,535). -/
def State.addOverflow (s : State) (n : Nat) : State :=
  s.setAlarm { s.alarm with overflow := satAdd Config.sat16 s.alarm.overflow n }

/-- R174, R177: an OVERFLOW entry carrying the count is assigned and the count becomes 0. -/
def State.assignOverflow (s : State) : State :=
  let t := s.assignEntry (.overflow s.alarm.overflow)
  t.setAlarm { t.alarm with overflow := 0 }

/-- R174: place the entry of a change of an unmasked point, or count it. -/
def State.placeChange (s : State) (b : LogBody) : State :=
  if s.cmd.hub = .inService then
    if s.alarm.overflow = 0 then
      if 1 ≤ s.alarm.freePositions then s.assignEntry b else s.addOverflow 1
    else if 2 ≤ s.alarm.freePositions then s.assignOverflow.assignEntry b else s.addOverflow 1
  else s.addOverflow 1

/-- The slot a log entry names: 1–12 for SLOT, CARD_FLAG and CARD_CODE, 0 for every other kind (R174). -/
def PointCfg.logSlot (c : PointCfg) : Nat :=
  match c.kind with
  | .slot | .cardFlag | .cardCode => c.which
  | _ => 0

/-- Does the log report the point as standing (RAISED or PENDING_CLEAR)? R173. -/
def PointState.standing : PointState → Bool
  | .raised | .pendingClear => true
  | _ => false

/-- R173: move a point to new persistence values. A change into RAISED or into CLEAR of a point that is not masked
places a log entry, and both relays are judged. -/
def State.movePoint (s : State) (k : Fin 64) (p : Point) : State :=
  let old := s.point k
  let t := s.putPoint k p
  if p.cfg.masked then t
  else
    let b (r : Bool) : LogBody := .change k.val r p.cfg.severity p.cfg.logSlot
    let t := if !old.state.standing && p.state == .raised then t.placeChange (b true)
      else if old.state.standing && p.state == .clear then t.placeChange (b false) else t
    t.judgeRelays

/-! ## Persistence (R170, R171) -/

/-- CLEAR with count 0 and the source-cleared flag clear. -/
def Point.cleared (p : Point) : Point := { p with state := .clear, count := 0, sourceCleared := false }

/-- A true observation in CLEAR or PENDING_RAISE (R170; also for a latching point, R171). -/
def Point.rise (p : Point) (n : Nat) : Point :=
  if p.cfg.raiseCount ≤ n then { p with state := .raised, count := 0, sourceCleared := false }
  else { p with state := .pendingRaise, count := n }

/-- R170: one observation of a non-latching point. -/
def Point.observePlain (p : Point) (seen : Bool) : Point :=
  match p.state, seen with
  | .clear, false => { p with count := 0 }
  | .clear, true => p.rise 1
  | .pendingRaise, true => p.rise (p.count + 1)
  | .pendingRaise, false => { p with state := .clear, count := 0 }
  | .raised, true => { p with count := 0 }
  | .raised, false =>
    if p.cfg.clearCount ≤ 1 then { p with state := .clear, count := 0 } else { p with state := .pendingClear, count := 1 }
  | .pendingClear, false =>
    if p.cfg.clearCount ≤ p.count + 1 then { p with state := .clear, count := 0 } else { p with count := p.count + 1 }
  | .pendingClear, true => { p with state := .raised, count := 0 }

/-- R171: one observation of a latching point in RAISED. -/
def Point.observeLatched (p : Point) (seen : Bool) : Point :=
  match p.sourceCleared, seen with
  | false, true => { p with count := 0 }
  | false, false =>
    if p.cfg.clearCount ≤ p.count + 1 then { p with sourceCleared := true, count := 0 } else { p with count := p.count + 1 }
  | true, false => p
  | true, true => { p with sourceCleared := false, count := 0 }

/-- R170, R171: one observation. -/
def Point.observe (p : Point) (seen : Bool) : Point :=
  if p.cfg.latching && p.state == .raised then p.observeLatched seen else p.observePlain seen

/-! ## Observations (R166 to R169) -/

/-- Exactly one lane of the slot is UP. -/
def SlotEntry.singlePlane (e : SlotEntry) : Bool := (e.laneA == .up) != (e.laneB == .up)

/-- R167: a SLOT condition. For UNPROVISIONED_SEATED the latch is not asked (assumption log 37). -/
def State.slotCondition (s : State) (i : Slot) (cond : Nat) : Bool :=
  let e := s.slot i
  match cond with
  | 0 => e.state == .faulted || e.state == .lockedOut
  | 1 => e.state == .rejected
  | 2 => e.state == .admitted && e.fenced
  | 3 => (e.state == .admitted || e.state == .draining) && e.singlePlane
  | 4 => vget s.alarm.marks.surprise i
  | 5 => e.state == .seated && !e.cfg.provisioned && s.cmd.hub.allowsPowering
  | _ => vget s.alarm.marks.linkError i

/-- R167: a TIME condition. -/
def TimeBase.condition (t : TimeBase) (cond : Nat) : Bool :=
  match cond with
  | 0 => t.state != .locked
  | 1 => t.state == .holdover
  | 2 => t.beyond
  | 3 => t.state == .free
  | _ => t.stepOccurred

/-- R167: the truth of a point's source at the scan. -/
def State.sourceTrue (s : State) (c : PointCfg) : Bool :=
  match c.kind with
  | .contact => if h : c.which < 8 then (vget s.alarm.contacts ⟨c.which, h⟩) != c.whenOpen else false
  | .slot => match slotOf c.which with | some i => s.slotCondition i c.cond | none => false
  | .time => s.time.condition c.cond
  | .reference =>
    if h : c.which < 4 then (s.ref ⟨c.which, h⟩).cfg.enabled && !(s.ref ⟨c.which, h⟩).qualified else false
  | .traffic =>
    match c.cond with
    | 0 => s.sw.free < 64
    | 1 => s.alarm.marks.rxMissed
    | _ => if h : c.which < 13 then vget s.alarm.marks.queueDrop ⟨c.which, h⟩ else false
  | .cycleFaulted => s.cyc.state == .faulted
  | .cardFlag | .cardCode => false

/-- A card source (R166: not observed at the scan). -/
def SourceKind.isCard : SourceKind → Bool
  | .cardFlag | .cardCode => true
  | _ => false

/-- R166: observe one point at the scan whose conditions stand in `at0`. -/
def State.scanPoint (at0 s : State) (k : Fin 64) : State :=
  let p := s.point k
  if p.cfg.enabled && !p.cfg.kind.isCard then s.movePoint k (p.observe (at0.sourceTrue p.cfg)) else s

/-- R166: one scan. In LOADING of LOAD mode the installed points are not observed; the event marks and STEP_OCCURRED are
cleared at the end of every scan. -/
def State.scan (s : State) : State :=
  let t := if s.cmd.hub = .loading .load then s else (List.finRange 64).foldl (State.scanPoint s) s
  { t with alarm := { t.alarm with marks := Marks.clear }, time := { t.time with stepOccurred := false } }

/-- R169: the truth of a card point in a STATUS's flags (BUSY, SERVICE_REQUEST, FAULT, ALARM_PENDING) and codes. -/
def PointCfg.cardTrue (c : PointCfg) (flags : BitVec 4) (codes : List Byte) : Bool :=
  match c.kind with
  | .cardFlag => flags.getLsbD c.cond
  | .cardCode => codes.any (fun b => b.toNat = c.cond)
  | _ => false

/-- R169: the card points of a slot are observed from the STATUS of a successful poll. -/
def State.observeCard (s : State) (i : Slot) (flags : BitVec 4) (codes : List Byte) : State :=
  (List.finRange 64).foldl (fun s k =>
    let p := s.point k
    if p.cfg.enabled && p.cfg.kind.isCard && p.cfg.which = i.val + 1
    then s.movePoint k (p.observe (p.cfg.cardTrue flags codes)) else s) s

/-- R172: the card points of a slot that has left ADMITTED go to CLEAR. -/
def State.clearCardPoints (s : State) (i : Slot) : State :=
  (List.finRange 64).foldl (fun s k =>
    let p := s.point k
    if p.cfg.kind.isCard && p.cfg.which = i.val + 1 then s.movePoint k p.cleared else s) s

/-- R171: ALARM_RESET of one point. -/
def State.resetPoint (s : State) (k : Fin 64) : State :=
  let p := s.point k
  if p.cfg.latching && p.state == .raised && p.sourceCleared then s.movePoint k p.cleared else s

/-- R171: ALARM_RESET, of the point named or of every point for 255; none when the value is refused. -/
def State.alarmResetOp (s : State) (v : Nat) : Option State :=
  if h : v < 64 then some (s.resetPoint ⟨v, h⟩)
  else if v = 255 then some ((List.finRange 64).foldl State.resetPoint s)
  else none

/-- R165: the alarm point table is emptied; a point that was standing and unmasked has changed into CLEAR. -/
def State.emptyPoints (s : State) : State :=
  (List.finRange 64).foldl (fun s k => (s.movePoint k (s.point k).cleared).putPoint k Point.cold) s

/-! ## Marks (R168) -/

def State.markLinkError (s : State) (i : Slot) : State :=
  { s with alarm := { s.alarm with marks := { s.alarm.marks with linkError := vset s.alarm.marks.linkError i true } } }

def State.markSurprise (s : State) (i : Slot) : State :=
  { s with alarm := { s.alarm with marks := { s.alarm.marks with surprise := vset s.alarm.marks.surprise i true } } }

def State.markDrop (s : State) (p : Fin 13) : State :=
  { s with alarm := { s.alarm with marks := { s.alarm.marks with queueDrop := vset s.alarm.marks.queueDrop p true } } }

def State.markMissed (s : State) : State :=
  { s with alarm := { s.alarm with marks := { s.alarm.marks with rxMissed := true } } }

/-! ## Consumer index and hub states (R176, R177) -/

/-- R176: a full write of offset 12h. -/
def State.consumerWrite (s : State) (v : Word) : State :=
  if s.cmd.hub = .inService then
    let a := s.alarm
    let ok := v.toNat < a.logSize &&
      (v.toNat + a.logSize - a.consumer) % a.logSize ≤ (a.producer + a.logSize - a.consumer) % a.logSize
    if ok then { s with alarm := { a with consumer := v.toNat } }
    else { s with alarm := { a with ignored := inc32 a.ignored } }
  else s

/-- R177: what a dropped entry adds to the overflow count. -/
def LogEntry.owed (e : LogEntry) : Nat :=
  match e.body with
  | .change _ _ _ _ => 1
  | .overflow n => n

/-- Has the first word of the head entry been granted? -/
def State.headBegun (s : State) : Bool :=
  0 < s.alarm.headDone || s.inFlight (· == .log)

/-- R177: leaving IN_SERVICE. The entry begun is completed, every other entry of the write queue is dropped and counted,
and the write index and the sequence are set back. -/
def State.alarmLeaves (s : State) : State :=
  let a := s.alarm
  let kept := if s.headBegun then a.queue.take 1 else []
  let dropped := if s.headBegun then a.queue.drop 1 else a.queue
  let a1 : AlarmUnit :=
    { a with queue := kept
             writeIdx := (match kept with
               | e :: _ => if e.stale then a.producer else (e.pos + 1) % a.logSize
               | [] => a.producer)
             seq := (match dropped with | e :: _ => e.seq | [] => a.seq)
             overflow := dropped.foldl (fun n e => satAdd Config.sat16 n e.owed) a.overflow }
  s.setAlarm a1

/-- R177: entering IN_SERVICE with the log parameters of the new setup block. -/
def State.alarmEnters (s : State) (base size : Nat) : State :=
  let a := s.alarm
  let t := s.setAlarm { a with logBase := base, logSize := size, producer := 0, writeIdx := 0, consumer := 0,
                               queue := a.queue.map (fun e => { e with stale := true }) }
  if t.alarm.overflow = 0 then t else t.assignOverflow

/-- R175: a word of the head entry has been performed. After the fourth the entry leaves the queue, the producer index
advances and ALARM_LOGGED is delivered. An entry of an earlier service period does not move the index (R177). -/
def State.logWordDone (s : State) : State :=
  let a := s.alarm
  match a.queue with
  | [] => s
  | e :: rest =>
    if a.headDone < 3 then { s with alarm := { a with headDone := a.headDone + 1 } }
    else
      let p := if e.stale then a.producer else (a.producer + 1) % a.logSize
      (s.setAlarm { a with queue := rest, headDone := 0, producer := p }).deliver .alarmLogged

end Sys2Proof.Machine
end

