-- ==== Sys2Proof/Machine/Pool.lean ====
section
/-! DEFINITION. The buffer pool, the egress queues and the per-port counters as plain data (5.4, R84, R85, R94), and the
room report of R88. -/

namespace Sys2Proof.Machine

open Sys2Proof

/-! ## Per-port counters (R94) -/

/-- Change the counters of a port. -/
def SwitchCore.bump (w : SwitchCore) (p : Fin 13) (f : PortCounters → PortCounters) : SwitchCore :=
  { w with counters := vset w.counters p (f (vget w.counters p)) }

/-- Change the counters of a port. -/
def State.bump (s : State) (p : Fin 13) (f : PortCounters → PortCounters) : State := { s with sw := s.sw.bump p f }

/-- Reasons of a discard by a lane port (R45). -/
inductive Discard where
  | check
  | overlength
  | spoofed
  | notAdmitted
  deriving DecidableEq, Repr

/-- R47, R94: count a frame discarded under R45. -/
def PortCounters.discard (c : PortCounters) : Discard → PortCounters
  | .check => { c with check := inc32 c.check }
  | .overlength => { c with overlength := inc32 c.overlength }
  | .spoofed => { c with spoofed := inc32 c.spoofed }
  | .notAdmitted => { c with notAdmitted := inc32 c.notAdmitted }

/-- Reasons for which a destination is lost (R80 to R83). -/
inductive Loss where
  | notServing
  | portClosed
  | timeGated
  | queueFull
  deriving DecidableEq, Repr

/-- R94: count a destination lost at its port. -/
def PortCounters.lose (c : PortCounters) : Loss → PortCounters
  | .notServing => { c with notServing := inc32 c.notServing }
  | .portClosed => { c with portClosed := inc32 c.portClosed }
  | .timeGated => { c with timeGated := inc32 c.timeGated }
  | .queueFull => { c with queueFull := inc32 c.queueFull }

def PortCounters.countIn (c : PortCounters) : PortCounters := { c with framesIn := inc32 c.framesIn }
def PortCounters.countOut (c : PortCounters) : PortCounters := { c with framesOut := inc32 c.framesOut }
def PortCounters.countFlushed (n : Nat) (c : PortCounters) : PortCounters :=
  { c with flushed := satAdd Config.sat32 c.flushed n }

/-! ## Queues -/

def SlotQueues.get (q : SlotQueues) : Cls → EgressQueue
  | .bulk => q.bulk
  | .timed => q.timed

def SlotQueues.set (q : SlotQueues) (c : Cls) (x : EgressQueue) : SlotQueues :=
  match c with
  | .bulk => { q with bulk := x }
  | .timed => { q with timed := x }

/-- A slot's queue of a class. -/
def SwitchCore.queue (w : SwitchCore) (i : Slot) (c : Cls) : EgressQueue := (vget w.queues i).get c

def SwitchCore.setQueue (w : SwitchCore) (i : Slot) (c : Cls) (x : EgressQueue) : SwitchCore :=
  { w with queues := vset w.queues i ((vget w.queues i).set c x) }

/-- The head of a queue: its oldest frame. -/
def EgressQueue.head (q : EgressQueue) : Option Nat := q.frames.head?

/-- R87: a queue that holds a frame or a reservation is not empty. -/
def EgressQueue.isEmpty (q : EgressQueue) : Bool := q.frames.isEmpty && q.reserved.isEmpty

/-- R71: both of a slot's egress queues are empty. -/
def State.queuesEmpty (s : State) (i : Slot) : Bool := (s.sw.queue i .timed).isEmpty && (s.sw.queue i .bulk).isEmpty

/-! ## Stored frames -/

/-- The stored frame of a name. -/
def SwitchCore.find (w : SwitchCore) (id : Nat) : Option Stored := w.stored.find? (fun f => f.id = id)

/-- The blocks of a stored frame. -/
def SwitchCore.blocksOf (w : SwitchCore) (id : Nat) : Nat := match w.find id with | some f => f.blocks | none => 0

/-- The bytes of a stored frame: header and payload (R43). -/
def SwitchCore.bytesOf (w : SwitchCore) (id : Nat) : List Byte :=
  match w.find id with | some f => f.header ++ f.payload | none => []

/-- R84: a queue's occupancy, the blocks of its frames and of its reservations. -/
def SwitchCore.occupancy (w : SwitchCore) (q : EgressQueue) : Nat :=
  ((q.frames ++ q.reserved).map w.blocksOf).sum

/-- Change a stored frame. -/
def SwitchCore.modify (w : SwitchCore) (id : Nat) (f : Stored → Stored) : SwitchCore :=
  { w with stored := w.stored.map (fun x => if x.id = id then f x else x) }

/-- R85: one more reference (a claim) on a stored frame. -/
def SwitchCore.addRef (w : SwitchCore) (id : Nat) : SwitchCore := w.modify id (fun x => { x with refs := x.refs + 1 })

/-- R85: one reference of a stored frame is dropped; at 0 its blocks return to the pool. -/
def SwitchCore.dropRef (w : SwitchCore) (id : Nat) : SwitchCore :=
  match w.find id with
  | none => w
  | some x =>
    if x.refs ≤ 1 then { w with stored := w.stored.filter (fun y => y.id ≠ id), free := w.free + x.blocks }
    else w.modify id (fun y => { y with refs := y.refs - 1 })

/-- References dropped one after another. -/
def SwitchCore.dropRefs (w : SwitchCore) (ids : List Nat) : SwitchCore := ids.foldl SwitchCore.dropRef w

/-! ## Room reports (R88) -/

/-- The transmit movement told that room may have appeared. -/
def TxMove.roomSeen (m : TxMove) : TxMove :=
  match m.phase with
  | .held _ => { m with phase := .held true }
  | _ => m

/-- R88: the switch core tells the ring engine that room may have appeared. A held transmit frame is then offered again
(`heldFrameReoffer`). -/
def State.roomReport (s : State) : State := { s with ring := { s.ring with tx := s.ring.tx.map TxMove.roomSeen } }

/-- Drop a claim: a reference of a stored frame. Blocks that return are told to the ring engine (R88). -/
def State.dropClaim (s : State) (id : Nat) : State :=
  let t := s.setSw (s.sw.dropRef id)
  if s.sw.free < t.sw.free then t.roomReport else t

end Sys2Proof.Machine
end

