-- ==== Sys2Proof/Machine/Lanes.lean ====
section
/-! DEFINITION. The lane ports (chapter 3): the control-frame queue, the choice and start of transmissions, the staging
buffer and what a lane settles when it leaves UP. -/

namespace Sys2Proof.Machine

open Sys2Proof

/-! ## Counts (R56) -/

def LanePort.countPartial (l : LanePort) : LanePort := { l with partialCount := inc32 l.partialCount }
def LanePort.countSetAside (l : LanePort) : LanePort := { l with setAside := inc32 l.setAside }
def LanePort.countResend (l : LanePort) : LanePort := { l with resend := inc32 l.resend }
def LanePort.countNotSent (l : LanePort) (n : Nat) : LanePort := { l with notSent := satAdd Config.sat32 l.notSent n }

/-! ## Starting a transmission (R50, R55, R158) -/

/-- R158: the seconds and ns of a TIME frame: the start stamp plus the delay of the lane's plane when it is valid, with
the carry into the seconds. -/
def timeFields (sec ns : Nat) (d : Delay) : Nat × Nat :=
  if d.valid then
    if Config.second ≤ ns + d.value then ((sec + 1) % 2 ^ 32, ns + d.value - Config.second) else (sec, ns + d.value)
  else (sec, ns)

/-- R43, R55: header and payload of a control frame as it starts on a lane. -/
def State.controlBytes (s : State) (i : Slot) (p : Plane) : CtlKind → List Byte
  | .poll n => controlFrame i .poll (pollPayload n)
  | .time =>
    let d := (s.slot i).delay p
    let f := timeFields s.time.sec s.time.ns d
    controlFrame i .time (timePayload f.1 f.2 s.time.quality d.valid p)
  | .identRequest => controlFrame i .identRequest []
  | .admission active => controlFrame i .admission (admitPayload i active)

/-- The attempt told the start stamp of its POLL. -/
def PollWork.started (w : PollWork) (tag : Nat) (t : Stamp) : PollWork :=
  match w.cur with
  | some a => if a.tag = tag then { w with cur := some { a with t1 := some t } } else w
  | none => w

/-- R54, R145: the start stamp of a POLL is reported to the cycle engine; a report for an abandoned entry is passed
over. -/
def State.reportStart (s : State) (f : CtlFrame) : State :=
  match f.kind, f.sender, s.cyc.entry with
  | .poll _, .cycle tag, some ⟨a, .run ws (.poll w)⟩ =>
    { s with cyc := { s.cyc with entry := some ⟨a, .run ws (.poll (w.started tag s.stamp))⟩ } }
  | _, _, _ => s

/-- R50: may this lane draw the slot's egress queues? -/
def State.draws? (s : State) (i : Slot) (p : Plane) : Bool :=
  let e := s.slot i
  (e.state == .admitted || e.state == .draining) && e.active == p

/-- R50: the head of a queue when the lane may send it. -/
def State.eligible (s : State) (i : Slot) (p : Plane) (c : Cls) : Option Nat :=
  match (s.sw.queue i c).head with
  | some id => if (s.lane i p.other).tx = .data c id then none else some id
  | none => none

/-- Start a DATA frame: it stays at its queue head, under the lane's claim (R50, R85). -/
def State.startData (s : State) (i : Slot) (p : Plane) (c : Cls) (id : Nat) : State :=
  let t := s.setLane i p { s.lane i p with tx := .data c id }
  { t with sw := t.sw.addRef id }

/-- R50: a lane that is UP with no frame in transmission starts the first eligible frame. -/
def State.kickLane (s : State) (i : Slot) (p : Plane) : State :=
  let l := s.lane i p
  if l.state = .up && l.tx = .none then
    match l.queue with
    | f :: rest =>
      (s.setLane i p { l with queue := rest, tx := .control f (s.controlBytes i p f.kind) }).reportStart f
    | [] =>
      if s.draws? i p then
        match s.eligible i p .timed, s.eligible i p .bulk with
        | some id, _ => s.startData i p .timed id
        | none, some id => s.startData i p .bulk id
        | none, none => s
      else s
  else s

/-- R50 for both lanes of a slot. -/
def State.kickSlot (s : State) (i : Slot) : State := (s.kickLane i .a).kickLane i .b

/-! ## Submissions (R49) -/

/-- R49: a control frame is submitted to a lane. The answer says whether it was queued; a refusal adds 1 to the
control-not-sent count. -/
def State.submit (s : State) (i : Slot) (p : Plane) (f : CtlFrame) : State × Bool :=
  let l := s.lane i p
  if l.state = .up && l.queue.length < 2 then
    ((s.setLane i p { l with queue := l.queue ++ [f] }).kickLane i p, true)
  else (s.setLane i p (l.countNotSent 1), false)

/-! ## Leaving UP (R41, R44, R52) -/

/-- The control frame in transmission. -/
def Tx.control? : Tx → List CtlFrame
  | .control f _ => [f]
  | _ => []

/-- What a lane that leaves UP reports as not sent, in order: the control frame cut, then those queued. -/
def LanePort.unsent (l : LanePort) : List CtlFrame := l.tx.control? ++ l.queue

/-- Header and payload of the frame in transmission on a lane. -/
def State.txBytes (s : State) : Tx → List Byte
  | .none => []
  | .control _ bs => bs
  | .data _ id => s.sw.bytesOf id

/-- What a lane had sent of the frame in transmission: a free number of its bytes (assumption log 15). -/
def State.sentPart (s : State) (i : Slot) (p : Plane) (x : Tx) : List Byte :=
  (s.txBytes x).take (Config.bytesSent s.draws i p)

/-- The lane port after it has settled and taken its new state; `sent` is what had gone out of a frame now cut (R52). -/
def LanePort.settled (l : LanePort) (st : LaneState) (sent : List Byte) : LanePort :=
  let l1 := if l.staging.isSome then l.countPartial else l
  let l2 :=
    match l.tx with
    | .none => l1
    | .control _ _ => { l1 with lastOut := .cut sent }
    | .data _ _ => { l1.countResend with lastOut := .cut sent }
  { l2.countNotSent l.unsent.length with state := st, staging := none, queue := [], tx := .none }

/-- R41: a lane leaves UP for `st`. Its claim on a DATA frame cut is dropped and the slot's other lane chooses again
(R50); the frames reported not sent are `LanePort.unsent`. -/
def State.leaveUp (s : State) (i : Slot) (p : Plane) (st : LaneState) : State :=
  let l := s.lane i p
  let t := s.setLane i p (l.settled st (s.sentPart i p l.tx))
  match l.tx with
  | .none => t
  | .control _ _ => { t with draws := t.draws + 1 }
  | .data _ id => (({ t with draws := t.draws + 1 } : State).dropClaim id).kickLane i p.other

/-! ## Receiving (R44) -/

/-- One byte taken into the staging buffer. The last four bytes stand aside of the running check value. -/
def Staging.byte (g : Staging) (b : Byte) : Staging :=
  let g1 := { g with kept := if g.count < Config.stagingBytes then g.kept ++ [b] else g.kept, count := g.count + 1 }
  match g.tail with
  | x :: rest => if g.tail.length < 4 then { g1 with tail := g.tail ++ [b] }
                 else { g1 with check := checkByte g.check x, tail := rest ++ [b] }
  | [] => { g1 with tail := [b] }

/-- Bytes taken into the staging buffer. -/
def Staging.feed (g : Staging) (bs : List Byte) : Staging := bs.foldl Staging.byte g

/-- An empty buffer for a frame that starts now. -/
def Staging.begin (t : Stamp) : Staging := { stamp := t, kept := [], count := 0, check := 0xFFFFFFFF#32, tail := [] }

/-- R44: a frame start. It is taken on a lane in UP; a frame still being received becomes a partial frame. -/
def State.frameStart (s : State) (i : Slot) (p : Plane) (bs : List Byte) : State :=
  let l := s.lane i p
  if l.state = .up then
    let l1 := if l.staging.isSome then l.countPartial else l
    s.setLane i p { l1 with staging := some ((Staging.begin s.stamp).feed bs) }
  else s

/-- R45, check 1: the frame is whole. -/
def Staging.whole (g : Staging) : Bool :=
  12 ≤ g.count && g.count = 12 + hdrLength g.kept && g.tail = checkBytes (~~~ g.check)

/-- The payload kept of a frame whose length has passed. -/
def Staging.payload (g : Staging) : List Byte := (g.kept.drop 8).take (hdrLength g.kept)

/-- R45, check 2: the payload length. -/
def State.lengthOk (s : State) (i : Slot) (n : Nat) : Bool :=
  n ≤ Config.maxPayload && (match (s.slot i).card with | some d => n ≤ d.maxPayload | none => true)

/-- R46: the kinds a slot state accepts. -/
def SlotState.accepts (st : SlotState) (k : FrameKind) : Bool :=
  match st, k with
  | .identifying, .ident => true
  | .admitted, .data | .admitted, .status | .admitted, .ident | .admitted, .ref => true
  | .draining, .data | .draining, .status | .draining, .ref => true
  | _, _ => false

/-- R46: the payload a kind requires. -/
def payloadOk (k : FrameKind) (bs : List Byte) : Bool :=
  match k with
  | .ident => bs.length = 16
  | .ref => bs.length = 4
  | .status =>
    8 ≤ bs.length && bs.length = 8 + statusCount bs && statusCount bs ≤ 8 &&
      ((statusFlags bs).getLsbD 3 || statusCount bs = 0)
  | _ => true

/-- R45: the judgement of a frame at its end: the discard reason, or the kind accepted. -/
def State.judgeFrame (s : State) (i : Slot) (g : Staging) : Except Discard FrameKind :=
  if !g.whole then .error .check
  else if !s.lengthOk i (hdrLength g.kept) then .error .overlength
  else if hdrSource g.kept ≠ i.val + 1 then .error .spoofed
  else match hdrKind g.kept with
    | some k => if (s.slot i).state.accepts k && payloadOk k g.payload then .ok k else .error .notAdmitted
    | none => .error .notAdmitted

end Sys2Proof.Machine
end

