-- ==== Sys2Proof/Machine/Switch.lean ====
section
/-! DEFINITION. The switch core (chapter 5): decisions, the frames that leave a queue, and the flushes. -/

namespace Sys2Proof.Machine

open Sys2Proof

/-! ## Destination decode (R80, R81) -/

/-- What a destination field names: nothing (bad destination), a broadcast that finds no serving slot, or the candidate
ports. -/
inductive Decoded where
  | bad
  | noneServing
  | ports (ps : List (Fin 13))
  deriving DecidableEq, Repr

/-- Every port, in port order. -/
def allPorts : List (Fin 13) := List.finRange 13

/-- Is the port a serving slot? -/
def State.servingPort (s : State) (p : Fin 13) : Bool :=
  match slotOf p.val with | some i => (s.slot i).serving | none => false

/-- R80, R81: the decode of a destination from a source port. -/
def State.decodeDest (s : State) (src d : Nat) : Decoded :=
  if h : d < 13 then (if d = src then .bad else .ports [⟨d, h⟩])
  else if h : 16 ≤ d ∧ d < 80 then
    let g := vget s.sw.groups ⟨d - 16, by omega⟩
    let ms := allPorts.filter (fun p => g.members.getLsbD p.val && p.val ≠ src)
    if !g.enabled || ms.isEmpty then .bad else .ports ms
  else if d = 127 then
    let ms := allPorts.filter (fun p => s.servingPort p && p.val ≠ src)
    if ms.isEmpty then .noneServing else .ports ms
  else .bad

/-! ## Candidates (R80, R82, R83) -/

/-- R80, R82: is a candidate lost at the decode or at the time gate? -/
def State.gateLoss (s : State) (c : Cls) (p : Fin 13) : Option Loss :=
  match slotOf p.val with
  | none => if s.ring.state = .running then none else some .portClosed
  | some i =>
    if !(s.slot i).serving then some .notServing
    else if c = .timed && (s.slot i).cfg.gate < s.sw.quality then some .timeGated else none

/-- The queue of a port for a class, and its limit (R79, R84). -/
def State.portQueue (s : State) (c : Cls) (p : Fin 13) : EgressQueue × Nat :=
  match slotOf p.val with
  | none => (s.sw.queue0, s.sm.q0Limit)
  | some i => (s.sw.queue i c, match c with | .timed => (s.slot i).cfg.timedLimit | .bulk => (s.slot i).cfg.bulkLimit)

/-- R83: has the queue of a port room for `b` blocks? -/
def State.hasRoom (s : State) (c : Cls) (b : Nat) (p : Fin 13) : Bool :=
  let q := s.portQueue c p
  s.sw.occupancy q.1 + b ≤ q.2

/-- What the switch core answers to a frame: discarded whole for a bad destination, for a broadcast that finds no
serving slot or for want of blocks, or placed in some ports (none: discarded whole) with the destinations lost. -/
inductive Verdict where
  | badDestination
  | noneServing
  | poolEmpty (lost : List (Fin 13 × Loss))
  | placed (into : List (Fin 13)) (lost : List (Fin 13 × Loss))
  deriving DecidableEq, Repr

/-- R79 to R83: the decision, read from the state as it stands. -/
def State.verdict (s : State) (src d : Nat) (c : Cls) (b : Nat) : Verdict :=
  match s.decodeDest src d with
  | .bad => .badDestination
  | .noneServing => .noneServing
  | .ports ps =>
    let gated := ps.filterMap (fun p => (s.gateLoss c p).map (fun l => (p, l)))
    let left := ps.filter (fun p => (s.gateLoss c p).isNone)
    if !left.isEmpty && s.sw.free < b then .poolEmpty gated
    else
      .placed (left.filter (s.hasRoom c b))
        (gated ++ (left.filter (fun p => !s.hasRoom c b p)).map (fun p => (p, .queueFull)))

/-! ## Placing (R83, R87) -/

/-- R94, R95: a destination lost is counted at its port; a queue-full loss is a queue drop to the alarm unit. -/
def State.countLoss (s : State) (x : Fin 13 × Loss) : State :=
  let t := s.bump x.1 (·.lose x.2)
  if x.2 = .queueFull then t.markDrop x.1 else t

def State.countLosses (s : State) (xs : List (Fin 13 × Loss)) : State := xs.foldl State.countLoss s

/-- A frame appended at the tail of a queue. -/
def EgressQueue.append (q : EgressQueue) (id : Nat) : EgressQueue := { q with frames := q.frames ++ [id] }
/-- A reservation taken in a queue. -/
def EgressQueue.reserve (q : EgressQueue) (id : Nat) : EgressQueue := { q with reserved := q.reserved ++ [id] }
/-- A frame taken out of a queue. -/
def EgressQueue.remove (q : EgressQueue) (id : Nat) : EgressQueue := { q with frames := q.frames.filter (· ≠ id) }
/-- A reservation taken out of a queue. -/
def EgressQueue.unreserve (q : EgressQueue) (id : Nat) : EgressQueue :=
  { q with reserved := q.reserved.filter (· ≠ id) }

/-- Change the queue of a port. -/
def SwitchCore.onPort (w : SwitchCore) (c : Cls) (f : EgressQueue → EgressQueue) (p : Fin 13) : SwitchCore :=
  match slotOf p.val with
  | none => { w with queue0 := f w.queue0 }
  | some i => w.setQueue i c (f (w.queue i c))

/-- The lanes of the slots named choose their next frame (R50). -/
def State.kickPorts (s : State) (ps : List (Fin 13)) : State :=
  ps.foldl (fun s p => match slotOf p.val with | some i => s.kickSlot i | none => s) s

/-- R83: store a frame and append it to the queues of the ports. -/
def State.place (s : State) (c : Cls) (header payload : List Byte) (b : Nat) (ps : List (Fin 13)) : State :=
  let id := s.sw.nextId
  let f : Stored := { id := id, header := header, payload := payload, blocks := b, refs := ps.length, loading := false }
  let w := { s.sw with free := s.sw.free - b, stored := s.sw.stored ++ [f], nextId := id + 1 }
  (s.setSw (ps.foldl (fun w p => w.onPort c (·.append id) p) w)).kickPorts ps

/-- R87: store a controller frame's header with the load claim and a reservation in each queue. -/
def State.placeLoading (s : State) (c : Cls) (header : List Byte) (b : Nat) (ps : List (Fin 13)) : State :=
  let id := s.sw.nextId
  let f : Stored :=
    { id := id, header := header, payload := [], blocks := b, refs := ps.length + 1, loading := true }
  let w := { s.sw with free := s.sw.free - b, stored := s.sw.stored ++ [f], nextId := id + 1 }
  s.setSw (ps.foldl (fun w p => w.onPort c (·.reserve id) p) w)

/-- R79 to R83: a card's frame from slot `i` is decided: placed, or discarded whole. -/
def State.takeCardFrame (s : State) (i : Slot) (header payload : List Byte) : State :=
  let c := hdrClass header
  let b := blocksFor payload.length
  let s1 := s.bump (portOf i) PortCounters.countIn
  match s.verdict (i.val + 1) (hdrDestination header) c b with
  | .badDestination => s1.bump (portOf i) (fun k => { k with badDestination := inc32 k.badDestination })
  | .noneServing => s1.bump (portOf i) (·.lose .notServing)
  | .poolEmpty lost => (s1.countLosses lost).bump (portOf i) (fun k => { k with poolEmpty := inc32 k.poolEmpty })
  | .placed into lost =>
    let s2 := s1.countLosses lost
    if into.isEmpty then s2 else s2.place c header payload b into

/-- Answers to an offer of the ring engine (R86). An acceptance names the stored frame. -/
inductive OfferAnswer where
  | held
  | accepted (id : Nat) (some? : Bool)
  | badDestination
  | undeliverable
  deriving DecidableEq, Repr

/-- R86: is the destination a unicast to a slot? -/
def unicastSlot (d : Nat) : Bool := 1 ≤ d && d ≤ 12

/-- R86: the ring engine offers a controller frame of `n` payload bytes. -/
def State.offer (s : State) (d : Nat) (c : Cls) (n : Nat) : State × OfferAnswer :=
  let b := blocksFor n
  let s1 := s.bump 0 PortCounters.countIn
  match s.verdict 0 d c b with
  | .badDestination => (s1.bump 0 (fun k => { k with badDestination := inc32 k.badDestination }), .badDestination)
  | .noneServing => (s1.bump 0 (·.lose .notServing), .undeliverable)
  | .poolEmpty lost =>
    if unicastSlot d then (s, .held)
    else ((s1.countLosses lost).bump 0 (fun k => { k with poolEmpty := inc32 k.poolEmpty }), .undeliverable)
  | .placed into lost =>
    if into.isEmpty then
      if unicastSlot d && lost.all (fun x => x.2 = .queueFull) then (s, .held) else (s1.countLosses lost, .undeliverable)
    else
      ((s1.countLosses lost).placeLoading c (headerBytes .data d 0 c n) b into, .accepted s.sw.nextId (!lost.isEmpty))

/-! ## Loading a controller frame (R87) -/

/-- Does a queue hold a reservation of the frame? -/
def EgressQueue.hasReserved (q : EgressQueue) (id : Nat) : Bool := q.reserved.contains id

/-- Ports and classes of all twenty-five queues. -/
def allQueues : List (Fin 13 × Cls) := (0, .bulk) :: allSlots.flatMap (fun i => [(portOf i, .timed), (portOf i, .bulk)])

/-- Queues that hold a reservation of a frame. -/
def State.reservedAt (s : State) (id : Nat) : List (Fin 13 × Cls) :=
  allQueues.filter (fun x => (s.portQueue x.2 x.1).1.hasReserved id)

/-- R87: the load is complete. Each remaining reservation is replaced by the frame at the queue tail and the load claim
ends. -/
def State.loadComplete (s : State) (id : Nat) (payload : List Byte) : State :=
  let at_ := s.reservedAt id
  let w := s.sw.modify id (fun f => { f with payload := payload, loading := false })
  let w := at_.foldl (fun w x => w.onPort x.2 (fun q => (q.unreserve id).append id) x.1) w
  ((s.setSw w).dropClaim id).kickPorts (at_.map (·.1))

/-- R87: a load abandoned. Its remaining reservations are removed and counted as flushed, and the load claim ends. -/
def State.loadAbandon (s : State) (id : Nat) : State :=
  let at_ := s.reservedAt id
  let w := at_.foldl (fun w x => ((w.onPort x.2 (·.unreserve id) x.1).bump x.1 (·.countFlushed 1)).dropRef id) s.sw
  let t := (s.setSw w).dropClaim id
  if at_.isEmpty then t else t.roomReport

/-! ## Frames leaving a queue (R85) -/

/-- R51, R85: a lane reports the head of a slot queue sent. It leaves with the lane's claim and is counted out. -/
def State.frameSent (s : State) (i : Slot) (c : Cls) (id : Nat) : State :=
  let w := (s.sw.setQueue i c ((s.sw.queue i c).remove id)).bump (portOf i) PortCounters.countOut
  (s.setSw ((w.dropRef id).dropRef id)).roomReport

/-- R85, R89: the head of queue 0 leaves with the ring engine's claim, delivered or missed. A head that a flush has
already removed leaves only the claim to end. -/
def State.leaveQueue0 (s : State) (id : Nat) (f : PortCounters → PortCounters) : State :=
  if s.sw.queue0.frames.contains id then
    let w := ({ s.sw with queue0 := s.sw.queue0.remove id }).bump 0 f
    (s.setSw ((w.dropRef id).dropRef id)).roomReport
  else s.dropClaim id

/-! ## Flushes (R90) -/

/-- R53: a lane abandons the transmission of a queue that is being flushed: it ends the frame at once with the complement
of the check value over the bytes sent so far, and drops its claim. -/
def State.abandonTx (i : Slot) (c : Cls) (s : State) (p : Plane) : State :=
  let l := s.lane i p
  match l.tx with
  | .data c' id =>
    if c' = c then
      let sent := s.sentPart i p l.tx
      let t := s.setLane i p { l with tx := .none, lastOut := .abandoned sent (~~~ checkWord sent) }
      ({ t with draws := t.draws + 1 } : State).dropClaim id
    else s
  | _ => s

/-- R90: remove every frame and reservation of a slot queue at one moment. The lanes choose again afterwards. -/
def State.emptyQueue (i : Slot) (s : State) (c : Cls) : State :=
  let q := s.sw.queue i c
  let ids := q.frames ++ q.reserved
  if ids.isEmpty then s
  else
    let t := [Plane.a, Plane.b].foldl (State.abandonTx i c) s
    let w := (t.sw.setQueue i c EgressQueue.nil).bump (portOf i) (·.countFlushed ids.length)
    (t.setSw (w.dropRefs ids)).roomReport

/-- R90: a flush of some of a slot's queues. -/
def State.flush (s : State) (i : Slot) (cs : List Cls) : State := (cs.foldl (State.emptyQueue i) s).kickSlot i

/-- R91: a flush of both of a slot's queues. -/
def State.flushBoth (s : State) (i : Slot) : State := s.flush i [.timed, .bulk]

/-- R89, R90: a flush of queue 0. A head in movement keeps the ring engine's claim. -/
def State.flushQueue0 (s : State) : State :=
  let ids := s.sw.queue0.frames ++ s.sw.queue0.reserved
  if ids.isEmpty then s
  else
    let w := ({ s.sw with queue0 := EgressQueue.nil }).bump 0 (·.countFlushed ids.length)
    (s.setSw (w.dropRefs ids)).roomReport

/-- R92: the time base delivers a new quality. The TIMED queue of every slot whose gate it fails is flushed. -/
def State.takeQuality (s : State) (q : Nat) : State :=
  allSlots.foldl (fun s i => if (s.slot i).cfg.gate < q then s.flush i [.timed] else s)
    { s with sw := { s.sw with quality := q } }

end Sys2Proof.Machine
end

