-- ==== Sys2Proof/Machine/Cycle.lean ====
section
/-! DEFINITION. The cycle engine's walk (8.1 to 8.4): fetching, faults, the end of an entry with results, and the waits.
Polls and TIME sends are in Polls.lean. -/

namespace Sys2Proof.Machine

open Sys2Proof

/-! ## Idle and faults (R136, R142) -/

/-- Every entry into CYCLE_IDLE empties the return stack and sets the zero-time run to 0 (R136). -/
def CycleEngine.idle (c : CycleEngine) : CycleEngine := { c with state := .idle, stack := [], zeroRun := 0, entry := none }

/-- R136, R141: CYCLE_IDLE by STOP or CYCLE_STOP delivers CYCLE_END. -/
def State.cycleEnds (s : State) : State := (s.setCyc s.cyc.idle).deliver .cycleEnd

/-- R142: a fault, taken at one moment. -/
def State.cycleFault (s : State) (k : CycleFaultKind) : State :=
  (s.setCyc { s.cyc with state := .faulted, fault := k, entry := none,
                         counters := { s.cyc.counters with faults := inc32 s.cyc.counters.faults } }).deliver .cycleFault

/-- R137: may an entry stand at this address? -/
def State.entryAddrOk (s : State) (a : Addr) : Bool := a.toNat % 8 = 0 && !s.path.touchesKept a.toNat 8

/-- R137: the engine moves to the entry at `a`. The address is judged first; then the entry enters FETCH. -/
def State.cycleGo (s : State) (a : Addr) : State :=
  if s.entryAddrOk a then s.setCyc { s.cyc with cur := a, entry := some ⟨a, .fetch []⟩ }
  else (s.setCyc { s.cyc with cur := a, entry := none }).cycleFault .illegalAddress

/-! ## Entries with results (R139) -/

/-- What the manual gives of result word 5: a sample, that there is none, or nothing at all (a TIME entry). -/
inductive RttField where
  | sample (ns : Nat)
  | noSample
  | unstated
  deriving DecidableEq, Repr

/-- Result fields of an entry that has finished its work. A field is none where the manual gives it no value: `plane` where
no frame was submitted, as in a wait; `flags` and `codes` where no STATUS was received. -/
structure EntryResult where
  outcome : EntryOutcome
  attempts : Nat
  plane : Option Plane
  flags : Option (BitVec 4)
  codes : Option Nat
  rtt : RttField
  next : Addr
  deriving DecidableEq, Repr

/-- The plane bit of a result: free when no frame was submitted (assumption log 10). -/
def State.planeBit (s : State) (p : Option Plane) : Bool :=
  match p with | some .a => false | some .b => true | none => Config.freePlane s.draws

/-- 12.4: result word 4; a field without a value is free (assumption logs 10 and 44). -/
def State.resultWord4 (s : State) (r : EntryResult) : Word :=
  resultWord r.outcome r.attempts (s.planeBit r.plane) (r.flags.getD (Config.freeFlags s.draws)).toNat
    (r.codes.getD (Config.freeCodes s.draws).val)

/-- 12.4: result word 5; bits without a value are free (assumption log 44). -/
def State.resultWord5 (s : State) : RttField → Word
  | .sample x => rttWord true x
  | .noSample => rttWord false (Config.freeRtt s.draws).toNat
  | .unstated => rttWord (Config.freeRttPresent s.draws) (Config.freeRtt s.draws).toNat

/-- R139: an entry has finished its work. Cabinet time is read as the completion time and the entry enters WRITE_BACK. Each
entry with results takes one draw of the free values. -/
def State.endEntry (s : State) (a : Addr) (ws : List Word) (r : EntryResult) : State :=
  let b : WriteBack :=
    { w4 := s.resultWord4 r, w5 := s.resultWord5 r.rtt, w6 := wordOf s.time.sec, w7 := wordOf s.time.ns, n := 0,
      next := r.next }
  { s with cyc := { s.cyc with entry := some ⟨a, .writeBack ws b⟩ }, draws := s.draws + 1 }

/-- The result of a wait: attempts 0, no flags, no RTT sample (R143, R144). A wait has no plane, no alarm-code count and no
bits of a sample: they are free (assumption logs 10 and 44). -/
def waitResult (o : EntryOutcome) (a : Addr) : EntryResult :=
  { outcome := o, attempts := 0, plane := none, flags := some 0, codes := none, rtt := .noSample, next := a + 8 }

/-- A wait in RUN ends with an outcome; a SLIPPED one is counted (R144, R153). -/
def State.endWait (s : State) (o : EntryOutcome) : State :=
  match s.cyc.entry with
  | some ⟨a, .run ws (.gap _)⟩ | some ⟨a, .run ws (.boundary _)⟩ =>
    let t := s.endEntry a ws (waitResult o a)
    if o = .slipped
    then t.setCyc { t.cyc with counters := { t.cyc.counters with slips := inc32 t.cyc.counters.slips } } else t
  | _ => s

/-- The remaining distance of a boundary wait in RUN. -/
def State.boundaryLeft (s : State) : Option Int :=
  match s.cyc.entry with
  | some ⟨_, .run _ (.boundary r)⟩ => some r
  | _ => none

/-- Move the remaining distance of a boundary wait by `d`; nothing without one. -/
def CycleEngine.shift (c : CycleEngine) (d : Int) : CycleEngine :=
  match c.entry with
  | some ⟨a, .run ws (.boundary r)⟩ => { c with entry := some ⟨a, .run ws (.boundary (r + d))⟩ }
  | _ => c

/-- R144: a step moves cabinet time back by `e`. The distance rises by `e`; a forward step that leaves it at 0 or below
ends the wait SLIPPED. -/
def State.boundaryStep (s : State) (e : Int) : State :=
  let t := { s with cyc := s.cyc.shift e }
  match t.boundaryLeft with
  | some r => if r ≤ 0 then t.endWait .slipped else t
  | none => t

/-- R144: a boundary wait whose distance is 0 or below after oscillator periods ends ELAPSED. -/
def State.boundaryElapsed (s : State) : State :=
  match s.boundaryLeft with
  | some r => if r ≤ 0 then s.endWait .elapsed else s
  | none => s

/-- R144: the distance at the start of a wait of `period` ms with ns at `n`. -/
def boundaryDistance (period n : Nat) : Int :=
  let u := period * 1000000
  (n / u + 1) * u - n

/-- R142: a zero-time entry advances the run; at 64 it is not carried out. -/
def State.zeroTime (s : State) (go : State → State) : State :=
  let t := s.setCyc { s.cyc with zeroRun := s.cyc.zeroRun + 1 }
  if 64 ≤ t.cyc.zeroRun then t.cycleFault .runaway else go t

/-- Enter RUN with the working values of an entry; the zero-time run becomes 0 (R142). -/
def State.enterRun (s : State) (a : Addr) (ws : List Word) (w : Work) : State :=
  s.setCyc { s.cyc with zeroRun := 0, entry := some ⟨a, .run ws w⟩ }

end Sys2Proof.Machine
end

