-- ==== Sys2Proof/Machine/TimeBase.lean ====
section
/-! DEFINITION. The time base (chapter 7): the counter, the rollover, references, the discipline loop and its states;
and the passing of oscillator time for the whole device. -/

namespace Sys2Proof.Machine

open Sys2Proof

/-! ## What a change of the time base tells (R118, R122, R129) -/

/-- Image words of the GH412-maintained fields of the reference table. -/
def refImageWords : List ImgWord := (List.range 4).map (fun k => ⟨.reference, k, 1⟩)

/-- R129: replace the time base. The status words and image words that change join the rewrite sets; a change of time
state or quality delivers the quality to the switch core and TIME_STATE to attention. -/
def State.putTime (s : State) (t : TimeBase) : State :=
  let u := reimage refImageWords s (retouch [0x34, 0x35, 0x36, 0x37] s { s with time := t })
  if (s.time.state, s.time.beyond) = (t.state, t.beyond) then u else (u.takeQuality t.quality).deliver .timeState

/-! ## The counter (R114) -/

/-- Units of 10^-9 ns that one oscillator period adds to the residue. -/
def TimeBase.slope (t : TimeBase) : Int := 10 * t.trim

/-- The ns that the next `n` oscillator periods add to cabinet time: 10 each, and the residue's carries. -/
def TimeBase.gain (t : TimeBase) (n : Nat) : Int := 10 * n + Int.tdiv (t.residue + t.slope * n) 1000000000

/-- The residue after the next `n` oscillator periods. -/
def TimeBase.residueAfter (t : TimeBase) (n : Nat) : Int := Int.tmod (t.residue + t.slope * n) 1000000000

/-- The number of oscillator periods after which cabinet time has first gained at least `d` ns. -/
def TimeBase.periodsToGain (t : TimeBase) (d : Int) : Nat :=
  let c := max 1 (((d - 1) * 1000000000 - t.residue) / (10000000000 + t.slope) + 1).toNat
  if d ≤ t.gain c then c else if d ≤ t.gain (c + 1) then c + 1 else c + 2

/-- R114, steps 1 to 3, for `n` oscillator periods: cabinet time and a boundary wait's distance move by what the periods
add. -/
def State.glide (s : State) (n : Nat) : State :=
  let g := s.time.gain n
  { s with osc := s.osc + n
           time := { s.time with ns := (s.time.ns + g).toNat, residue := s.time.residueAfter n }
           cyc := s.cyc.shift (-g) }

/-! ## The rollover (R115, R128) -/

/-- R128: the holdover seconds advance and the beyond-limit flag is judged. -/
def TimeBase.holdOn (t : TimeBase) : TimeBase :=
  if t.state = .holdover then
    let h := inc32 t.holdover
    { t with holdover := h, beyond := t.disc.holdoverLimit < h }
  else t

/-- R115: the seconds at a rollover. -/
def TimeBase.turn (t : TimeBase) (osc : Nat) : TimeBase :=
  let u :=
    match t.pendingSet with
    | some v => { t with sec := v, pendingSet := none, mark := (t.mark + 1) % 65536, setApplied := inc32 t.setApplied }
    | none => { t with sec := (t.sec + 1) % 4294967296 }
  TimeBase.holdOn { u with ppsOut := some (osc + Config.ppsOutPeriods) }

/-- R115: what a rollover does once the ns field has been reduced. -/
def State.rollover (s : State) : State :=
  let t := s.putTime (s.time.turn s.osc)
  t.snapshot t.time.sec 0

/-- R114, step 4. -/
def State.carry (s : State) : State :=
  if Config.second ≤ s.time.ns then
    State.rollover { s with time := { s.time with ns := s.time.ns - Config.second } }
  else s

/-- `k` oscillator periods with no event of cabinet time before the last of them (R114, R144). The command unit's place takes
a word whenever it is free (R35): before them, and when the last has brought one to be rewritten. -/
def State.stretch (s : State) (k : Nat) : State := ((s.fillCommand.glide k).carry.boundaryElapsed).fillCommand

/-- One oscillator period. -/
def State.tick (s : State) : State := s.stretch 1

/-! ## Oscillator time -/

/-- The periods until cabinet time next does something by itself: rolls over, or ends a boundary wait. -/
def State.nextEvent (s : State) : Nat :=
  let r := s.time.periodsToGain ((Config.second : Int) - s.time.ns)
  match s.boundaryLeft with
  | some d => min r (s.time.periodsToGain d)
  | none => r

/-- `n` oscillator periods, taken in runs that end at the events of cabinet time. The fuel counts the runs. -/
def State.runOsc : Nat → State → Nat → State
  | 0, s, _ => s
  | fuel + 1, s, n =>
    if n = 0 then s
    else
      let k := min n (max 1 s.nextEvent)
      State.runOsc fuel (s.stretch k) (n - k)

/-- `n` oscillator periods pass. -/
def State.advance (s : State) (n : Nat) : State := s.runOsc n n

/-- Oscillator time passes up to an instant; nothing when it has passed already. -/
def State.advanceTo (s : State) (t : Nat) : State := s.advance (t - s.osc)

/-! ## Selection (R122, R127) -/

/-- R122: the qualified entry with the lowest index. -/
def TimeBase.bestRef (t : TimeBase) : Option (Fin 4) := (List.finRange 4).find? (fun k => (vget t.refs k).qualified)

/-- R122, R127: the selection is judged again after a change of a qualified flag. -/
def TimeBase.reselect (t : TimeBase) : TimeBase :=
  match t.selected, t.bestRef with
  | none, some k =>
    { t with selected := some k, state := .acquiring, lockRun := 0, unlockRun := 0, holdover := 0, beyond := false }
  | some _, none =>
    match t.state with
    | .locked => { t with selected := none, state := .holdover, holdover := 0, beyond := false }
    | _ => { t with selected := none, state := .free }
  | _, b => { t with selected := b }

/-- R122: the selection is judged at a change of a qualified flag, and at no other moment. -/
def TimeBase.rejudge (before after : TimeBase) : TimeBase :=
  if before.refs.map (·.qualified) = after.refs.map (·.qualified) then after else after.reselect

/-- Change a reference entry. -/
def TimeBase.setRef (t : TimeBase) (k : Fin 4) (r : RefEntry) : TimeBase := { t with refs := vset t.refs k r }

/-- R120: an entry disqualified. -/
def RefEntry.disqualify (r : RefEntry) : RefEntry := { r with qualified := false, good := 0 }

/-- Does the entry name the slot as its source? -/
def RefEntry.names (r : RefEntry) (i : Slot) : Bool := r.cfg.kind == .slot && r.cfg.slot == i.val + 1

/-- R120: every SLOT entry naming a slot is disqualified. -/
def TimeBase.disqualifySlot (t : TimeBase) (i : Slot) : TimeBase :=
  { t with refs := t.refs.map (fun r => if r.names i then r.disqualify else r) }

/-- R120: a slot event disqualifies the SLOT entries of the slot. -/
def State.disqualifySlot (s : State) (i : Slot) : State := s.putTime (s.time.rejudge (s.time.disqualifySlot i))

/-- R120: the watch of an entry expires: the entry is disqualified and forgets its last arrival. -/
def TimeBase.watchExpire (t : TimeBase) (k : Fin 4) : TimeBase :=
  let r := (vget t.refs k).disqualify
  { t.setRef k { r with last := none, watch := none } with watchExpiries := inc32 t.watchExpiries }

/-- R118: an entry's controller-set fields installed or replaced. -/
def RefEntry.fresh (c : RefCfg) : RefEntry := { cfg := c, qualified := false, good := 0, last := none, watch := none }

/-! ## Arrivals (R119) -/

/-- R119: an interval between arrivals that is good. -/
def intervalOk (n : Nat) : Bool := Config.arrivalMinPeriods ≤ n && n ≤ Config.arrivalMaxPeriods

/-- R119: one entry judges an arrival at the instant `at_`. The answer says whether the interval was rejected. -/
def RefEntry.judge (r : RefEntry) (at_ : Nat) : RefEntry × Bool :=
  let r1 := { r with last := some at_, watch := some (at_ + Config.watchPeriods) }
  match r.last with
  | none => ({ r1 with good := 0 }, false)
  | some l =>
    if intervalOk (at_ - l) then
      let g := min (r.good + 1) 3
      ({ r1 with good := g, qualified := r.qualified || g = 3 }, false)
    else (r1.disqualify, true)

/-- R119: an arrival offered to the enabled entries of a source, and the selection judged. -/
def TimeBase.offer (t : TimeBase) (takes : RefEntry → Bool) (at_ : Nat) : TimeBase :=
  let u := (List.finRange 4).foldl (fun (t : TimeBase) k =>
    let r := vget t.refs k
    if r.cfg.enabled && takes r then
      let j := r.judge at_
      let t1 := t.setRef k j.1
      if j.2 then { t1 with intervalRejects := inc32 t.intervalRejects } else t1
    else t) t
  t.rejudge u

/-! ## The loop (R123 to R126) -/

/-- Clamp to −m … m. -/
def clampSym (m x : Int) : Int := max (-m) (min m x)

/-- R123: the phase error of a raw reading. -/
def phaseError (n : Nat) : Int := if n < 500000000 then (n : Int) else (n : Int) - 1000000000

/-- R123: the raw reading of a REF: the stamp's ns less the delay. -/
def refReading (ns delay : Nat) : Nat := (((ns : Int) - delay) % 1000000000).toNat

/-- R125: the loop's correction. -/
def TimeBase.correct (t : TimeBase) (e : Int) : TimeBase :=
  let i := clampSym 8000000 (t.integral + e)
  let p := Int.tdiv e (2 ^ t.disc.kp)
  let q := Int.tdiv i (2 ^ t.disc.ki)
  { t with integral := i, trim := clampSym 50000 (-(p + q)) }

/-- R126: the lock runs. -/
def TimeBase.countLock (t : TimeBase) (e : Int) : TimeBase :=
  let inside := e.natAbs ≤ t.disc.lockWindow
  match t.state with
  | .acquiring =>
    if inside then
      let n := min (t.lockRun + 1) 255
      if t.disc.lockCount ≤ n then { t with lockRun := n, state := .locked, unlockRun := 0 } else { t with lockRun := n }
    else { t with lockRun := 0 }
  | .locked =>
    if inside then { t with unlockRun := 0 }
    else
      let n := min (t.unlockRun + 1) 4
      if n = 4 then { t with unlockRun := n, state := .acquiring, lockRun := 0 } else { t with unlockRun := n }
  | _ => t

/-- R124: the fields a step sets besides the time itself. -/
def TimeBase.stepped (t : TimeBase) : TimeBase :=
  { t with state := .acquiring, lockRun := 0, unlockRun := 0, steps := inc32 t.steps, mark := (t.mark + 1) % 65536,
           stepOccurred := true }

/-- R124: cabinet time is moved back by `e`. A carry is a rollover (R115), taken with the step at one moment. -/
def State.timeStep (s : State) (e : Int) : State :=
  let m := (s.time.ns : Int) - e
  let u := s.time.stepped
  let t :=
    if 1000000000 ≤ m then
      let v := TimeBase.turn { u with ns := (m - 1000000000).toNat } s.osc
      (s.putTime v).snapshot v.sec 0
    else if m < 0 then
      let back := (s.time.sec + 4294967295) % 4294967296
      let ns := (m + 1000000000).toNat
      (s.putTime { u with ns := ns, sec := back }).snapshot back ns
    else s.putTime { u with ns := m.toNat }
  t.boundaryStep e

/-- R123 to R126: an arrival of the selected entry with its raw reading. -/
def State.loop (s : State) (n : Nat) : State :=
  let e := phaseError n
  let t := s.putTime { s.time with lastError := e }
  if s.time.disc.stepLimit ≤ e.natAbs then t.timeStep e else t.putTime ((t.time.correct e).countLock e)

/-- R123, R119: is the arrival used by the loop? The entry was selected before it, took it, and has not been disqualified
by it (assumption log 25). -/
def loopUses (before after : TimeBase) (takes : RefEntry → Bool) : Bool :=
  match before.selected with
  | some k =>
    let r := vget before.refs k
    r.cfg.enabled && takes r && (vget after.refs k).qualified
  | none => false

/-- R119, R123: a rising edge of PPS_IN. -/
def State.ppsEdge (s : State) : State :=
  let takes : RefEntry → Bool := fun r => r.cfg.kind == .ppsInput
  let u := s.time.offer takes s.osc
  let t := s.putTime u
  if loopUses s.time u takes then t.loop s.time.ns else t

/-- Count a reference arrival discarded (R131). -/
def TimeBase.discard (t : TimeBase) : TimeBase := { t with discardedRefs := inc32 t.discardedRefs }

/-- R119, R121, R123: a REF delivered by a lane port on the slot's active plane, with its start stamp. -/
def State.refArrival (s : State) (i : Slot) (st : Stamp) : State :=
  let e := s.slot i
  let d := e.delay e.active
  let takes : RefEntry → Bool := fun r => r.names i
  if !(List.finRange 4).any (fun k => (s.ref k).cfg.enabled && takes (s.ref k)) then s
  else if !e.serving || !d.valid then { s with time := s.time.discard }
  else
    let u := s.time.offer takes st.osc
    let t := s.putTime u
    if loopUses s.time u takes then
      if st.mark ≠ s.time.mark then { t with time := t.time.discard }
      else t.loop (refReading st.ns d.value)
    else t

/-! ## SET_TIME and SET_DISCIPLINE (R116, R130) -/

/-- R116. -/
def State.setTimeOp (s : State) (v : Word) : State := { s with time := { s.time with pendingSet := some v.toNat } }

/-- A value clamped to a range, with whether it was clamped. -/
def clampTo (lo hi v : Nat) : Nat × Bool := if v < lo then (lo, true) else if hi < v then (hi, true) else (v, false)

/-- R130: one parameter, by its place in the list. -/
def Discipline.apply (d : Discipline) (k : Nat) (v : Nat) : Discipline × Bool :=
  match k with
  | 0 => let c := clampTo 0 15 v; ({ d with kp := c.1 }, c.2)
  | 1 => let c := clampTo 0 15 v; ({ d with ki := c.1 }, c.2)
  | 2 => let c := clampTo 1000 10000000 v; ({ d with stepLimit := c.1 }, c.2)
  | 3 => let c := clampTo 10 10000 v; ({ d with lockWindow := c.1 }, c.2)
  | 4 => let c := clampTo 2 255 v; ({ d with lockCount := c.1 }, c.2)
  | 5 => let c := clampTo 60 86400 v; ({ d with holdoverLimit := c.1 }, c.2)
  | _ => (d, false)

/-- R130: the parameters carried, from place `k` on. -/
def Discipline.applyAll : Nat → Discipline → List Word → Discipline × Bool
  | _, d, [] => (d, false)
  | k, d, w :: ws =>
    let a := d.apply k w.toNat
    let r := Discipline.applyAll (k + 1) a.1 ws
    (r.1, a.2 || r.2)

/-- R130, R128: SET_DISCIPLINE. The answer is the clamped flag. -/
def State.setDisciplineOp (s : State) (ps : List Word) : State × Bool :=
  let r := Discipline.applyAll 0 s.time.disc ps
  let beyond := if s.time.state = .holdover then r.1.holdoverLimit < s.time.holdover else s.time.beyond
  (s.putTime { s.time with disc := r.1, beyond := beyond }, r.2)

end Sys2Proof.Machine
end

