-- ==== Sys2Proof/Machine/Polls.lean ====
section
/-! DEFINITION. Polls and TIME sends (8.5, 8.6), the measurements, plane choice and fencing that a finished poll brings
(chapter 9), and the reports of control frames. -/

namespace Sys2Proof.Machine

open Sys2Proof

/-! ## A change of a slot that stays powered (R77) -/

/-- R120: does a change of a slot's entry disqualify the SLOT references of the slot? -/
def SlotEntry.breaksRef (old new : SlotEntry) : Bool :=
  (old.state == .admitted && new.state != .admitted) || (!old.fenced && new.fenced)
    || ((old.delay old.active).valid && !(new.delay old.active).valid)
    || (old.active != new.active && !(new.delay new.active).valid)

/-- R71, R70: does a change of a slot's entry carry the effects of leaving? -/
def SlotEntry.leaves (old new : SlotEntry) : Bool :=
  (old.state == .admitted && new.state != .admitted && new.state != .draining)
    || (old.state == .draining && new.state != .draining)

/-- R77: replace a slot's entry and tell the switch core, the time base and the alarm unit: the serving set (R88), the
flushes (R91), the card points (R172), the references (R120); the lanes choose again at a change of state or of the
active plane (R50). The cycle engine and the lane enables are told by `State.moveSlot`. -/
def State.changeSlot (s : State) (i : Slot) (new : SlotEntry) : State :=
  let old := s.slot i
  let s1 := s.putSlot i new
  let s2 := if old.serving = new.serving then s1 else s1.roomReport
  let s3 := if old.leaves new || (!old.fenced && new.fenced) then s2.flushBoth i else s2
  let s4 := if old.state = .admitted && new.state ≠ .admitted then s3.clearCardPoints i else s3
  let s5 := if old.breaksRef new then s4.disqualifySlot i else s4
  if old.state = new.state && old.active = new.active then s5 else s5.kickSlot i

/-! ## Round trips and delays (R155, R156) -/

/-- R155: the round-trip time over full time. -/
def rtt (t1 t4 : Stamp) (turnaround : Nat) : Int :=
  (((t4.sec : Int) - t1.sec) % 4294967296) * 1000000000 + ((t4.ns : Int) - t1.ns) - turnaround

/-- R155: the RTT of a SUCCESS attempt, none when the measurement is discarded. -/
def acceptedRtt (laneUp : Bool) (r : Response) : Option Nat :=
  match r.t1 with
  | none => none
  | some t1 =>
    let x := rtt t1 r.t4 r.turnaround
    if t1.mark = r.t4.mark && laneUp && 0 ≤ x && x ≤ 10000 then some x.toNat else none

/-- R156: a sample enters a delay. -/
def Delay.sample (d : Delay) (x : Nat) : Delay :=
  if d.valid then { d with value := ((d.value : Int) + Int.tdiv ((x : Int) - d.value) 8).toNat }
  else { value := x, valid := true }

/-- Working values of stage 1 of R154: the entry, the discarded samples so far, and the RTT of the last attempt taken. -/
structure Sampling where
  entry : SlotEntry
  discarded : Nat
  last : Option Nat
  deriving DecidableEq, Repr

/-- R154, stage 1, for one attempt. -/
def Sampling.attempt (up : Plane → Bool) (g : Sampling) (a : AttemptRec) : Sampling :=
  match a.outcome with
  | .success r =>
    match acceptedRtt (up a.plane) r with
    | some x => { g with entry := g.entry.setDelay a.plane ((g.entry.delay a.plane).sample (x / 2)), last := some x }
    | none => { g with discarded := g.discarded + 1, last := none }
  | _ => { g with last := none }

/-! ## Plane choice (R159, R160, R161) -/

/-- A switch of the active plane returns the alternate-success count to 0 (R160). -/
def SlotEntry.switchTo (e : SlotEntry) (p : Plane) : SlotEntry := { e with active := p, alt := 0 }

def AttemptOutcome.isSuccess : AttemptOutcome → Bool
  | .success _ => true
  | _ => false

/-- R160: a miss that an alternate success can follow. -/
def AttemptOutcome.isMiss : AttemptOutcome → Bool
  | .noResponse | .badResponse => true
  | _ => false

/-- R160: has the poll a SUCCESS attempt on a plane? -/
def successOn (p : Plane) (log : List AttemptRec) : Bool := log.any (fun a => a.plane == p && a.outcome.isSuccess)

/-- R160: is the poll an alternate success against the active plane? -/
def alternateSuccess (p : Plane) (log : List AttemptRec) : Bool :=
  match log with
  | a :: rest => a.plane == p && a.outcome.isMiss && successOn p.other rest
  | [] => false

/-- R154, stage 2. -/
def SlotEntry.judgePlane (e : SlotEntry) (up : Plane → Bool) (log : List AttemptRec) : SlotEntry :=
  if e.cfg.policy ≠ .auto then e
  else if successOn e.active log then { e with alt := 0 }
  else if alternateSuccess e.active log then
    if 2 ≤ e.alt + 1 then (if up e.active.other then e.switchTo e.active.other else { e with alt := 0 })
    else { e with alt := e.alt + 1 }
  else e

/-- R154, stage 3 (R162). -/
def SlotEntry.judgeMiss (e : SlotEntry) (final : AttemptOutcome) : SlotEntry :=
  if final.isMiss then
    let n := min (e.missed + 1) 15
    { e with missed := n, fenced := e.fenced || e.cfg.missLimit ≤ n }
  else if final.isSuccess then { e with missed := 0, fenced := false }
  else e

/-- R154: the slot manager takes a finished poll and returns the RTT of the last attempt. -/
def State.takePoll (s : State) (i : Slot) (log : List AttemptRec) (final : AttemptOutcome) : State × Option Nat :=
  let up : Plane → Bool := fun p => (s.lane i p).state == .up
  let g := log.foldl (Sampling.attempt up) { entry := s.slot i, discarded := 0, last := none }
  let e := (g.entry.judgePlane up log).judgeMiss final
  let t := { s with sm := { s.sm with discarded := satAdd Config.sat32 s.sm.discarded g.discarded } }
  (t.changeSlot i e, g.last)

/-! ## Polls (R145 to R149) -/

/-- The POLL entry in RUN, with its address and words. -/
def State.pollRun (s : State) : Option (Addr × List Word × PollWork) :=
  match s.cyc.entry with
  | some ⟨a, .run ws (.poll w)⟩ => some (a, ws, w)
  | _ => none

/-- Keep the working values of the POLL entry. -/
def State.setPoll (s : State) (a : Addr) (ws : List Word) (w : PollWork) : State :=
  { s with cyc := { s.cyc with entry := some ⟨a, .run ws (.poll w)⟩ } }

/-- R148: does an ended attempt meet the entry's condition set? -/
def AttemptOutcome.meets (o : AttemptOutcome) (c : BitVec 6) : Bool :=
  match o with
  | .noResponse => c.getLsbD 0
  | .badResponse => c.getLsbD 1
  | .success r => r.flags &&& c.extractLsb' 2 4 != 0
  | .absent => false

/-- The outcome of a finished poll. -/
def AttemptOutcome.entry : AttemptOutcome → EntryOutcome
  | .success _ => .success
  | .noResponse => .noResponse
  | .badResponse => .badResponse
  | .absent => .absent

/-- R153: the poll counts rise. -/
def CycleCounters.finish (c : CycleCounters) : AttemptOutcome → CycleCounters
  | .success _ => { c with succeeded := inc32 c.succeeded }
  | .noResponse | .badResponse => { c with unanswered := inc32 c.unanswered }
  | .absent => { c with absent := inc32 c.absent }

/-- The branch address of an entry's words. -/
def branchAddr (ws : List Word) : Addr := (ws.getD 1 0).extractLsb' 0 20

/-- The plane of the last attempt that had one: the attempt in progress or the last one ended. -/
def PollWork.lastPlane (w : PollWork) : Option Plane :=
  match w.cur with
  | some a => some a.plane
  | none => w.log.getLast?.map (·.plane)

/-- R149: the flags and the alarm-code count of the last attempt's STATUS, none when it was not SUCCESS (free then:
assumption log 44). -/
def AttemptOutcome.status : AttemptOutcome → Option (BitVec 4 × Nat)
  | .success x => some (x.flags, x.codes.length)
  | _ => none

/-- R148, R149: the poll is finished with its final outcome. The result words follow with the RTT sample given; what R149
gives no value is free (assumption log 44). -/
def State.pollResult (s : State) (a : Addr) (ws : List Word) (w : PollWork) (final : AttemptOutcome)
    (r : Option Nat) : State :=
  let next := if w.branch && final.meets w.conditions then branchAddr ws else a + 8
  let t := s.setCyc { s.cyc with counters := s.cyc.counters.finish final }
  t.endEntry a ws { outcome := final.entry, attempts := w.made, plane := w.lastPlane, flags := final.status.map (·.1)
                    codes := final.status.map (·.2), rtt := r.elim .noSample .sample, next := next }

/-- R149: a poll that ends ABSENT is delivered to no block. -/
def State.pollAbsent (s : State) (a : Addr) (ws : List Word) (w : PollWork) : State := s.pollResult a ws w .absent none

/-- R149: a poll that ends otherwise is delivered to the slot manager, and on SUCCESS to the alarm unit. -/
def State.pollFinish (s : State) (a : Addr) (ws : List Word) (w : PollWork) (final : AttemptOutcome) : State :=
  let t := s.takePoll w.slot w.log final
  let u := match final with | .success x => t.1.observeCard w.slot x.flags x.codes | _ => t.1
  u.pollResult a ws w final t.2

/-- R145: the plane of the next attempt. -/
def PollWork.nextPlane (w : PollWork) (active : Plane) : Plane :=
  let named : Plane := match w.choice with | .active => active | .named p => p
  if w.alternate then
    let p := w.first.getD named
    if w.made % 2 = 0 then p else p.other
  else named

/-- R145: the values of an attempt that begins on a plane with a poll number. -/
def PollWork.begin (w : PollWork) (p : Plane) (number tag : Nat) : PollWork :=
  { w with first := some (w.first.getD p), made := w.made + 1
           cur := some { plane := p, number := number, tag := tag, t1 := none, sent := false, timeout := none } }

/-- R148: an ended attempt kept for the delivery. -/
def PollWork.ended (w : PollWork) (p : Plane) (o : AttemptOutcome) : PollWork :=
  { w with log := w.log ++ [⟨p, o⟩], cur := none }

/-- R148: is a further attempt due after an attempt that ended with `o`? -/
def PollWork.retries? (w : PollWork) (o : AttemptOutcome) : Bool := o.meets w.conditions && w.made < 1 + w.retries

/-- R145, R148: attempts begin until one is queued or the poll is finished. The fuel exceeds the number of attempts a
POLL entry can make. -/
def State.pollGo : Nat → State → Addr → List Word → PollWork → State
  | 0, s, _, _, _ => s
  | fuel + 1, s, a, ws, w =>
    if (s.slot w.slot).state ≠ .admitted then s.pollAbsent a ws w
    else
      let p := w.nextPlane (s.slot w.slot).active
      let n := s.cyc.pollNumber
      let tag := s.cyc.tag
      let w1 := w.begin p n tag
      let k := s.cyc.counters
      let s1 : State :=
        { s with cyc := { s.cyc with pollNumber := (n + 1) % 65536, tag := tag + 1,
                                     counters := { k with attempts := inc32 k.attempts } } }
      let r := (s1.setPoll a ws w1).submit w.slot p { kind := .poll n, sender := .cycle tag }
      if r.2 then r.1
      else
        let w2 := w1.ended p .noResponse
        if w2.retries? .noResponse then State.pollGo fuel r.1 a ws w2 else r.1.pollFinish a ws w2 .noResponse

/-- Attempts a POLL entry can still make, and one more. -/
def pollFuel : Nat := 6

/-- R148: the attempt in progress ends with an outcome other than ABSENT. -/
def State.attemptEnds (s : State) (o : AttemptOutcome) : State :=
  match s.pollRun with
  | some (a, ws, w) =>
    match w.cur with
    | some c =>
      let w1 := w.ended c.plane o
      if w1.retries? o then s.pollGo pollFuel a ws w1 else s.pollFinish a ws w1 o
    | none => s
  | none => s

/-- The attempt in progress when it is one of the slot. -/
def State.attemptOf (s : State) (i : Slot) : Option Attempt :=
  match s.pollRun with
  | some (_, _, w) => if w.slot = i then w.cur else none
  | none => none

/-- R147: the slot has left ADMITTED; an attempt of it in progress ends ABSENT. -/
def State.pollLeaves (s : State) (i : Slot) : State :=
  match s.pollRun with
  | some (a, ws, w) => if w.slot = i && w.cur.isSome then s.pollAbsent a ws w else s
  | none => s

/-- R146: a failed frame from the slot on a plane, reported by the lane port. -/
def State.pollFailedFrame (s : State) (i : Slot) (p : Plane) : State :=
  match s.attemptOf i with
  | some c => if c.plane = p && c.sent then s.attemptEnds .badResponse else s
  | none => s

/-- R146: the lane of a slot's plane has left UP. -/
def State.pollLaneDown (s : State) (i : Slot) (p : Plane) : State :=
  match s.attemptOf i with
  | some c => if c.plane = p && c.sent then s.attemptEnds .noResponse else s
  | none => s

/-- R146, R150: a STATUS delivered from a slot on a plane. -/
def State.takeStatus (s : State) (i : Slot) (p : Plane) (payload : List Byte) (t4 : Stamp) : State :=
  let stray : State :=
    { s with cyc := { s.cyc with counters := { s.cyc.counters with stray := inc32 s.cyc.counters.stray } } }
  match s.attemptOf i with
  | some c =>
    if c.plane = p && c.number = statusNumber payload then
      s.attemptEnds (.success { flags := statusFlags payload, turnaround := statusTurnaround payload,
                                codes := statusCodes payload, t1 := c.t1, t4 := t4 })
    else stray
  | none => stray

/-- R146: the response timeout expires. -/
def State.pollTimeout (s : State) : State :=
  match s.pollRun with
  | some (_, _, w) =>
    match w.cur with
    | some c => if c.timeout.isSome then s.attemptEnds .noResponse else s
    | none => s
  | none => s

/-! ## TIME sends (R151) -/

/-- The result of a TIME entry. R151 gives it no flags, no alarm-code count and no word 5: they are free (assumption
log 44). -/
def timeResult (o : EntryOutcome) (sent : Nat) (plane : Option Plane) (a : Addr) : EntryResult :=
  { outcome := o, attempts := sent, plane := plane, flags := none, codes := none, rtt := .unstated, next := a + 8 }

/-- The TIME entry in RUN ends when no report is awaited. -/
def State.timeJudge (s : State) (a : Addr) (ws : List Word) (w : TimeWork) : State :=
  if w.awaited = 0 then
    s.endEntry a ws (timeResult (if w.notSent = 0 then .sent else .notSent) w.sent w.plane a)
  else s.setCyc { s.cyc with entry := some ⟨a, .run ws (.time w)⟩ }

/-- R153: TIME frames not sent. -/
def State.countTimeNotSent (s : State) : State :=
  { s with cyc := { s.cyc with counters := { s.cyc.counters with timeNotSent := inc32 s.cyc.counters.timeNotSent } } }

/-- One TIME frame submitted (R151). -/
def State.timeSubmit (choice : PlaneChoice) (x : State × TimeWork) (i : Slot) : State × TimeWork :=
  let p : Plane := match choice with | .active => (x.1.slot i).active | .named p => p
  let r := x.1.submit i p { kind := .time, sender := .cycle x.2.tag }
  if r.2 then (r.1, { x.2 with awaited := x.2.awaited + 1, plane := some p })
  else (r.1.countTimeNotSent, { x.2 with notSent := x.2.notSent + 1, plane := some p })

/-- R151: a TIME entry enters RUN. `target` 15 is every serving slot. -/
def State.timeRun (s : State) (a : Addr) (ws : List Word) (target : Nat) (choice : PlaneChoice) : State :=
  let targets : List Slot :=
    if target = 15 then allSlots.filter (fun i => (s.slot i).serving)
    else match slotOf target with
      | some i => if (s.slot i).state = .admitted then [i] else []
      | none => []
  let w : TimeWork := { tag := s.cyc.tag, awaited := 0, sent := 0, notSent := 0, plane := none }
  let s1 := { s with cyc := { s.cyc with tag := s.cyc.tag + 1 } }
  if targets.isEmpty then
    s1.endEntry a ws (timeResult .absent 0 none a)
  else
    let r := targets.foldl (State.timeSubmit choice) (s1, w)
    r.1.timeJudge a ws r.2

/-! ## Reports of control frames (R49, R51, R146, R151) -/

/-- A POLL reported sent: the response timeout starts at that instant. -/
def PollWork.markSent (w : PollWork) (expiry : Nat) : PollWork :=
  { w with cur := w.cur.map (fun c => { c with sent := true, timeout := some expiry }) }

/-- R49, R51, R65, R66: the lane port reports a control frame sent, or not sent (cut or removed). Reports to the slot
manager change nothing, and one for an entry that is no longer waiting is passed over. -/
def State.reportControl (s : State) (sent : Bool) (f : CtlFrame) : State :=
  match f.sender with
  | .slotManager => s
  | .cycle tag =>
    match s.cyc.entry with
    | some ⟨a, .run ws (.poll w)⟩ =>
      match w.cur with
      | some c =>
        if c.tag = tag then
          if sent then s.setPoll a ws (w.markSent (s.osc + s.cyc.timeoutUs * Config.usPeriods))
          else s.attemptEnds .noResponse
        else s
      | none => s
    | some ⟨a, .run ws (.time w)⟩ =>
      if w.tag = tag then
        let s1 := if sent then s else s.countTimeNotSent
        s1.timeJudge a ws { w with awaited := w.awaited - 1, sent := w.sent + flag sent,
                                   notSent := w.notSent + flag (!sent) }
      else s
    | _ => s

/-- Reports of frames not sent, in order. -/
def State.reportUnsent (s : State) (fs : List CtlFrame) : State := fs.foldl (State.reportControl · false ·) s

end Sys2Proof.Machine
end

