-- ==== Sys2Proof/Machine/Slots.lean ====
section
/-! DEFINITION. The slot manager (chapter 4) and what lane events do to a slot (R68, R159, R161). -/

namespace Sys2Proof.Machine

open Sys2Proof

/-! ## Entering a state (R59, R60, R70, R74) -/

/-- R59: the timer a state starts on entry, as the oscillator count at which it expires. -/
def SlotState.timerFrom (st : SlotState) (osc attempts : Nat) : Option Nat :=
  match st with
  | .powering => some (osc + Config.powerGoodWaitPeriods)
  | .training => some (osc + Config.trainingPeriods)
  | .identifying => some (osc + Config.identWaitPeriods)
  | .draining => some (osc + Config.drainPeriods)
  | .faulted => some (osc + Config.backoffPeriods attempts)
  | _ => none

/-- R74: the states whose entry clears the override flag. -/
def SlotState.clearsOverride : SlotState → Bool
  | .empty | .seated | .released | .lockedOut => true
  | _ => false

/-- R70: the fields that leaving ADMITTED (other than into DRAINING) or leaving DRAINING sets. -/
def SlotEntry.left (e : SlotEntry) : SlotEntry :=
  { e with delayA := e.delayA.invalidate, delayB := e.delayB.invalidate, fenced := false, missed := 0, alt := 0,
           card := none }

/-- A slot's entry as it enters a state: PWREN (R60), the slot timer (R59), the override flag (R74), the effects of
leaving on the entry (R70), and the delays at entry to POWERING (R157). -/
def SlotEntry.enter (e : SlotEntry) (st : SlotState) (osc : Nat) : SlotEntry :=
  let e1 := if (e.state == .admitted && st != .draining) || e.state == .draining then e.left else e
  let e2 := if st = .powering
    then { e1 with delayA := e1.delayA.invalidate, delayB := e1.delayB.invalidate } else e1
  { e2 with state := st, pwren := st.powered, timer := st.timerFrom osc e2.attempts
            override := e2.override && !st.clearsOverride }

/-! ## Lane enables (R39, R41) -/

/-- R40: the port table's copy of a lane state; a lane out of UP invalidates its plane's delay (R157). -/
def SlotEntry.recordLane (e : SlotEntry) (p : Plane) (st : LaneState) : SlotEntry :=
  let e1 := e.setLaneState p st
  if (e.laneState p) = .up && st ≠ .up then e1.setDelay p (e1.delay p).invalidate else e1

/-- R39, R41: the enable of one lane goes off. A frame being received becomes a partial frame here (R41, R44, R60), and its
end is then passed over (for an IDENT see `State.overtakenEnd`). -/
def State.laneOff (i : Slot) (s : State) (p : Plane) : State :=
  let l := s.lane i p
  let fs := if l.state = .up then l.unsent else []
  let t := if l.state = .up then s.leaveUp i p .off else s
  let u := t.setLane i p { t.lane i p with enable := false, state := .off }
  (u.putSlot i ((u.slot i).recordLane p .off)).reportUnsent fs

/-- R39: the enable of one lane comes on. -/
def State.laneOn (i : Slot) (s : State) (p : Plane) : State :=
  let l := s.lane i p
  if l.state = .off then
    (s.setLane i p { l with enable := true, state := .training }).putSlot i ((s.slot i).recordLane p .training)
  else s.setLane i p { l with enable := true }

/-- R39: both lanes follow the slot's state. -/
def State.followEnable (s : State) (i : Slot) (was : SlotState) : State :=
  let now := (s.slot i).state
  if was.laneOn = now.laneOn then s
  else if now.laneOn then [Plane.a, Plane.b].foldl (State.laneOn i) s
  else [Plane.a, Plane.b].foldl (State.laneOff i) s

/-- Replace a slot's entry with everything the change brings: `State.changeSlot`, then the cycle engine is told of a slot
that has left ADMITTED (R147), then the lanes follow (R39). -/
def State.moveSlot (s : State) (i : Slot) (new : SlotEntry) : State :=
  let old := s.slot i
  let s1 := s.changeSlot i new
  let s2 := if old.state = .admitted && new.state ≠ .admitted then s1.pollLeaves i else s1
  s2.followEnable i old.state

/-- A slot enters a state. `f` changes the fields that the entry sets. -/
def State.enterSlot (s : State) (i : Slot) (st : SlotState) (f : SlotEntry → SlotEntry) : State :=
  s.moveSlot i ((f (s.slot i)).enter st s.osc)

/-! ## The states (4.3, 4.6, 4.7) -/

/-- R63: power-good takes the slot to TRAINING. -/
def State.enterTraining (s : State) (i : Slot) : State := s.enterSlot i .training id

/-- R63: a slot enters POWERING; a PGOOD already asserted is taken at once. -/
def State.enterPowering (s : State) (i : Slot) (f : SlotEntry → SlotEntry) : State :=
  let t := s.enterSlot i .powering f
  if (t.slot i).pgood then t.enterTraining i else t

/-- R62: do the three conditions for powering hold? -/
def State.mayPower (s : State) (i : Slot) : Bool :=
  s.cmd.hub.allowsPowering && (s.slot i).cfg.provisioned && (s.slot i).latch

/-- R62: a SEATED slot is judged. -/
def State.judgeSeated (s : State) (i : Slot) : State :=
  if (s.slot i).state = .seated && s.mayPower i then s.enterPowering i id else s

/-- A slot enters SEATED and is judged by R62. -/
def State.enterSeated (s : State) (i : Slot) (f : SlotEntry → SlotEntry) : State :=
  (s.enterSlot i .seated f).judgeSeated i

/-- R73: a slot enters FAULTED. -/
def State.enterFaulted (s : State) (i : Slot) (r : FailReason) : State :=
  s.enterSlot i .faulted (fun e => { e with attempts := min (e.attempts + 1) 3, reason := r })

/-- A frame that was being received on a lane in `s`, at the expiry of the ident wait. -/
def State.overtake (s : State) (i : Slot) (t : State) (p : Plane) : State :=
  match (s.lane i p).staging with
  | some g => if (s.lane i p).state = .up
              then t.setLane i p { t.lane i p with overtaken := some { buffer := g, osc := s.osc } } else t
  | none => t

/-- R65, R59: the ident wait expires. A frame being received becomes a partial frame as its lane leaves UP (R41, R60), and
what it held is kept for an IDENT whose end comes together with the expiry. -/
def State.identExpired (s : State) (i : Slot) : State :=
  [Plane.a, Plane.b].foldl (s.overtake i) (s.enterFaulted i .ident)

/-- R71: a slot enters DRAINING. -/
def State.enterDraining (s : State) (i : Slot) (c : DrainCause) : State :=
  s.enterSlot i .draining (fun e => { e with drainCause := c })

/-- Attempts 0, as a move to RELEASED or a shutdown sets them (R72, R76). -/
def SlotEntry.noAttempts (e : SlotEntry) : SlotEntry := { e with attempts := 0 }

/-- R71: a drain ends. -/
def State.endDrain (s : State) (i : Slot) : State :=
  if (s.slot i).drainCause = .release then s.enterSlot i .released id else s.enterSeated i id

/-! ## Pins (R61, R63, R68, R72) -/

/-- R61: presence arrival. -/
def State.presenceOn (s : State) (i : Slot) : State :=
  let e := s.slot i
  let e1 := { e with pres := true }
  s.setSlot i (if e.state = .empty then { e1 with timer := some (s.osc + Config.debouncePeriods) } else e1)

/-- R61: presence loss. -/
def State.presenceOff (s : State) (i : Slot) : State :=
  let e := s.slot i
  let s1 := s.setSlot i { e with pres := false }
  if e.state = .empty then s1.setSlot i { e with pres := false, timer := none }
  else
    let s2 := if e.state.powered then s1.markSurprise i else s1
    s2.enterSlot i .empty (fun e => { e with attempts := 0, fenced := false })

/-- R61: the debounce expires. -/
def State.debounceDone (s : State) (i : Slot) : State := s.enterSeated i id

/-- R62, R72: latch closed. -/
def State.latchOn (s : State) (i : Slot) : State :=
  let s1 := s.setSlot i { s.slot i with latch := true }
  match (s.slot i).state with
  | .released => s1.enterSeated i id
  | .seated => s1.judgeSeated i
  | _ => s1

/-- R72: latch opened. -/
def State.latchOff (s : State) (i : Slot) : State :=
  let s1 := s.setSlot i { s.slot i with latch := false }
  match (s.slot i).state with
  | .powering | .training | .identifying => s1.enterSlot i .released id
  | .admitted => s1.enterDraining i .release
  | .faulted | .lockedOut | .rejected => s1.enterSlot i .released SlotEntry.noAttempts
  | _ => s1

/-- R63: power-good arrival. -/
def State.powerGoodOn (s : State) (i : Slot) : State :=
  let s1 := s.setSlot i { s.slot i with pgood := true }
  if (s.slot i).state = .powering then s1.enterTraining i else s1

/-- R64, R65, R68, R71: power-good loss. -/
def State.powerGoodOff (s : State) (i : Slot) : State :=
  let s1 := s.setSlot i { s.slot i with pgood := false }
  match (s.slot i).state with
  | .training | .identifying | .admitted => s1.enterFaulted i .power
  | .draining => s1.endDrain i
  | _ => s1

/-! ## Timers (R73) -/

/-- R73: the backoff expires. -/
def State.backoffDone (s : State) (i : Slot) : State :=
  if 3 ≤ (s.slot i).attempts then s.enterSlot i .lockedOut id
  else if s.mayPower i then s.enterPowering i id
  else s.enterSeated i id

/-! ## The admission exchange (R65 to R69) -/

/-- R65: an IDENT_REQUEST to a lane. -/
def State.requestIdent (s : State) (i : Slot) (p : Plane) : State :=
  (s.submit i p { kind := .identRequest, sender := .slotManager }).1

/-- R66: clamp a maximum payload. -/
def clampPayload (n : Nat) : Nat := max 256 (min n 2040)

/-- R66: the type passes. -/
def SlotEntry.typeOk (e : SlotEntry) (t : BitVec 16) : Bool :=
  e.override || (t != 0 && (e.cfg.allowed.isEmpty || e.cfg.allowed.contains t))

/-- R66: the maximum payload passes. -/
def SlotEntry.payloadPasses (e : SlotEntry) (n : Nat) : Bool := e.override || (256 ≤ n && n ≤ 2040)

/-- R67: the active plane of an admission. -/
def PlanePolicy.admits (o : PlanePolicy) (p : Plane) : Plane :=
  match o with
  | .auto => p
  | .pinA => .a
  | .pinB => .b

/-- The card record of an IDENT (R67). -/
def cardOf (bs : List Byte) : Card :=
  { cardType := identType bs, serial1 := identSerial1 bs, serial2 := identSerial2 bs,
    maxPayload := clampPayload (identPayload bs), revision := identRevision bs }

/-- R67: the fields that an admission sets. -/
def SlotEntry.admitWith (e : SlotEntry) (p : Plane) (bs : List Byte) : SlotEntry :=
  { e with card := some (cardOf bs), active := e.cfg.policy.admits p, fenced := false, missed := 0, alt := 0,
           attempts := 0, reason := .none }

/-- R66: an IDENT is judged in IDENTIFYING. -/
def State.judgeIdent (s : State) (i : Slot) (p : Plane) (bs : List Byte) : State :=
  let e := s.slot i
  if !e.typeOk (identType bs) then s.enterSlot i .rejected (fun e => { e with reason := .type })
  else if !e.payloadPasses (identPayload bs) then s.enterSlot i .rejected (fun e => { e with reason := .payload })
  else
    let t := s.enterSlot i .admitted (fun e => e.admitWith p bs)
    (t.submit i p { kind := .admission (t.slot i).active, sender := .slotManager }).1

/-- R66, R69: an IDENT delivered to the slot manager. In ADMITTED it is a card restart. -/
def State.takeIdent (s : State) (i : Slot) (p : Plane) (bs : List Byte) : State :=
  match (s.slot i).state with
  | .identifying => s.judgeIdent i p bs
  | .admitted => (s.enterSlot i .identifying id).judgeIdent i p bs
  | _ => s

/-! ## Lane events (R64, R65, R68, R159, R161) -/

/-- R159, R161: the plane a slot in ADMITTED or DRAINING should move to, as its lanes and policy stand. -/
def SlotEntry.wantsPlane (e : SlotEntry) : Option Plane :=
  match e.cfg.policy with
  | .auto => if e.laneState e.active ≠ .up && e.laneState e.active.other = .up then some e.active.other else none
  | .pinA => if e.active ≠ .a && e.laneA = .up then some .a else none
  | .pinB => if e.active ≠ .b && e.laneB = .up then some .b else none

/-- The entry after the plane choice of R159 or R161. -/
def SlotEntry.choosePlane (e : SlotEntry) : SlotEntry :=
  if e.state = .admitted || e.state = .draining then
    match e.wantsPlane with | some p => e.switchTo p | none => e
  else e

/-- Both lanes of a slot are out of UP. -/
def SlotEntry.bothDown (e : SlotEntry) : Bool := e.laneA != .up && e.laneB != .up

/-- R40: a change of lane state reaches the slot manager. -/
def State.slotLane (s : State) (i : Slot) (p : Plane) (st : LaneState) : State :=
  let e := (s.slot i).recordLane p st
  if st = .up then
    match e.state with
    | .training => ((s.putSlot i e).enterSlot i .identifying id).requestIdent i p
    | .identifying => (s.putSlot i e).requestIdent i p
    | _ => s.moveSlot i e.choosePlane
  else if e.state = .admitted && e.bothDown then s.moveSlot i (e.enter .training s.osc)
  else s.moveSlot i e.choosePlane

/-- R40: training completion. -/
def State.laneTrained (s : State) (i : Slot) (p : Plane) : State :=
  let l := s.lane i p
  if l.state = .training then (((s.setLane i p { l with state := .up }).kickLane i p).slotLane i p .up) else s

/-- R40, R41: loss of signal. The lane settles, its reports are taken, then the slot manager and the cycle engine take
the change. -/
def State.laneLost (s : State) (i : Slot) (p : Plane) : State :=
  let l := s.lane i p
  if l.state = .up then
    (((s.leaveUp i p .training).reportUnsent l.unsent).slotLane i p .training).pollLaneDown i p
  else s

/-! ## Slot commands (R75) -/

/-- The answer of a block to a command that it owns: the result and the failing parameter. -/
structure Answer where
  result : CmdResult
  item : Nat
  deriving DecidableEq, Repr

def Answer.done : Answer := { result := .done, item := 0 }
def Answer.refused : Answer := { result := .refusedState, item := 0 }
def Answer.parameter (k : Nat) : Answer := { result := .refusedParameter, item := k }

/-- R75: SLOT_RELEASE. -/
def State.slotReleaseOp (s : State) (n : Nat) : State × Answer :=
  match slotOf n with
  | none => (s, .parameter 1)
  | some i => if (s.slot i).state = .admitted then (s.enterDraining i .release, .done) else (s, .refused)

/-- R75: SLOT_RETRY. -/
def State.slotRetryOp (s : State) (n : Nat) : State × Answer :=
  match slotOf n with
  | none => (s, .parameter 1)
  | some i =>
    if (s.slot i).state = .lockedOut then (s.enterSeated i SlotEntry.noAttempts, .done) else (s, .refused)

/-- R75: SLOT_OVERRIDE. -/
def State.slotOverrideOp (s : State) (n : Nat) : State × Answer :=
  match slotOf n with
  | none => (s, .parameter 1)
  | some i =>
    let e := s.slot i
    if e.state = .rejected && e.cfg.provisioned && e.latch then
      (s.enterPowering i (fun e => { e with override := true, attempts := 0 }), .done)
    else (s, .refused)

/-! ## Hub states (R76) -/

/-- R76: a shutdown reaches a slot. -/
def State.slotShutdown (s : State) (i : Slot) : State :=
  match (s.slot i).state with
  | .admitted => s.enterSlot i .draining (fun e => { e with drainCause := .shutdown, override := false })
  | .draining => s.putSlot i { s.slot i with drainCause := .shutdown, override := false }
  | .powering | .training | .identifying => s.enterSlot i .seated id
  | .faulted | .lockedOut | .rejected | .released => s.enterSlot i .seated SlotEntry.noAttempts
  | _ => s

/-- R62: every SEATED slot is judged at a change of hub state. -/
def State.judgeAllSeated (s : State) : State := allSlots.foldl State.judgeSeated s

/-! ## Frames delivered (R45 to R48) -/

/-- R47: a frame discarded is reported to the switch core, the alarm unit and the cycle engine. -/
def State.discardFrame (s : State) (i : Slot) (p : Plane) (d : Discard) : State :=
  let t := s.bump (portOf i) (·.discard d)
  let u := if d = .check || d = .overlength then t.markLinkError i else t
  u.pollFailedFrame i p

/-- R48: a frame that passes is delivered by kind. -/
def State.deliverFrame (s : State) (i : Slot) (p : Plane) (g : Staging) (k : FrameKind) : State :=
  match k with
  | .data => s.takeCardFrame i (g.kept.take 8) g.payload
  | .status => s.takeStatus i p g.payload g.stamp
  | .ident => s.takeIdent i p g.payload
  | .ref =>
    if p = (s.slot i).active then s.refArrival i g.stamp else s.setLane i p (s.lane i p).countSetAside
  | _ => s

/-- R59: the end of an IDENT that comes together with the ident-wait expiry, which has been taken first: it ends in a slot
in FAULTED, which accepts no kinds, and is judged and discarded there (R45, R46). Any other end with no frame begun is passed
over (R44). What counts as together is the model's reading (assumption log 40). -/
def State.overtakenEnd (s : State) (i : Slot) (p : Plane) (bs : List Byte) : State :=
  match (s.lane i p).overtaken with
  | some o =>
    let g := o.buffer.feed bs
    if o.osc = s.osc ∧ (s.slot i).state = .faulted ∧ hdrKind g.kept = some .ident then
      let t := s.setLane i p { s.lane i p with overtaken := none }
      match t.judgeFrame i g with
      | .error d => t.discardFrame i p d
      | .ok _ => t
    else s
  | none => s

/-- R45 to R48: a frame end. -/
def State.frameEnd (s : State) (i : Slot) (p : Plane) (bs : List Byte) : State :=
  let l := s.lane i p
  match l.staging with
  | none => s.overtakenEnd i p bs
  | some g0 =>
    let g := g0.feed bs
    let t := s.setLane i p { l with staging := none }
    match t.judgeFrame i g with
    | .error d => t.discardFrame i p d
    | .ok k => t.deliverFrame i p g k

/-- R51: a transmission ends with the frame sent. -/
def State.transmitEnd (s : State) (i : Slot) (p : Plane) : State :=
  let l := s.lane i p
  match l.tx with
  | .none => s
  | .control f bs =>
    ((s.setLane i p { l with tx := .none, lastOut := .whole bs (checkWord bs) }).reportControl true f).kickSlot i
  | .data c id =>
    let bs := s.sw.bytesOf id
    ((s.setLane i p { l with tx := .none, lastOut := .whole bs (checkWord bs) }).frameSent i c id).kickSlot i

end Sys2Proof.Machine
end

