-- ==== Sys2Proof/Machine/Ring.lean ====
section
/-! DEFINITION. The ring engine (chapter 6): its words, what each completed word does, and its starts and stops. -/

namespace Sys2Proof.Machine

open Sys2Proof

/-! ## Ring words -/

/-- The ring parameters in effect; without any, an empty pair of rings. -/
def RingEngine.par (r : RingEngine) : RingParams :=
  match r.params with
  | some p => p
  | none => { rxBase := 0, rxSize := 0, txBase := 0, txSize := 0, holdMs := 0 }

/-- Address of word `w` of receive descriptor `k`. -/
def RingEngine.rxAddr (r : RingEngine) (k w : Nat) : Addr := addrOf (r.par.rxBase + 4 * k + w)
/-- Address of word `w` of transmit descriptor `k`. -/
def RingEngine.txAddr (r : RingEngine) (k w : Nat) : Addr := addrOf (r.par.txBase + 4 * k + w)
/-- The receive descriptor `n` places after the receive index. -/
def RingEngine.rxAt (r : RingEngine) (n : Nat) : Nat := (r.rxIdx + n) % r.par.rxSize
/-- The transmit descriptor `n` places after the transmit index. -/
def RingEngine.txAt (r : RingEngine) (n : Nat) : Nat := (r.txIdx + n) % r.par.txSize

/-- The order of the hand-back: every descriptor but the first in ring order, then the first (R104, R109). -/
def handBackOrder (n k : Nat) : Nat := if k + 1 < n then k + 1 else 0

/-- A word of four payload bytes from byte offset `k` on, 0 past the end (R103, 12.3). -/
def payloadWord (bs : List Byte) (k : Nat) : Word := byteAt bs (k + 3) ++ byteAt bs (k + 2) ++ byteAt bs (k + 1) ++ byteAt bs k

/-! ## Receive movement: its descriptors (R103) -/

/-- Payload bytes before descriptor `d` of the frame. -/
def placedBefore (ds : List RxDesc) (d : Nat) : Nat := ((ds.take d).map (·.size)).sum

/-- Payload bytes stored in descriptor `d`. -/
def storedIn (ds : List RxDesc) (len d : Nat) : Nat :=
  min (match ds[d]? with | some x => x.size | none => 0) (len - placedBefore ds d)

/-- Words that hold `n` bytes. -/
def wordsFor (n : Nat) : Nat := (n + 3) / 4

/-- R104: word `n` of the hand-back of a frame's descriptors: the address and the value. -/
def RingEngine.returnWord (r : RingEngine) (m : RxMove) (ds : List RxDesc) (n : Nat) : Addr × Word :=
  let k := handBackOrder ds.length (n / 2)
  let idx := match ds[k]? with | some x => x.index | none => 0
  let fin : Bool := k + 1 == ds.length
  if n % 2 = 0 then (r.rxAddr idx 3, rxLengthWord (storedIn ds m.len k) (if fin then m.len else 0))
  else (r.rxAddr idx 0, rxOwnerWord (k == 0) fin 0 m.src m.cls)

/-- The next word of the receive movement. The buffer address of a descriptor is read just before its buffer is written
(DESIGN CHOICE, assumption log 38). -/
def State.rxWord (s : State) : Option DmaOp :=
  let r := s.ring
  match r.rx with
  | none => none
  | some m =>
    match m.phase with
    | .looking ds ownerRead => some (.read (r.rxAddr (r.rxAt ds.length) (if ownerRead then 2 else 0)))
    | .held => none
    | .placing ds d addr w =>
      match addr with
      | none => some (.read (r.rxAddr (match ds[d]? with | some x => x.index | none => 0) 1))
      | some a =>
        some (.write (addrOf (a + w))
          (payloadWord ((s.sw.bytesOf m.id).drop 8 |>.take (placedBefore ds d + storedIn ds m.len d))
            (placedBefore ds d + 4 * w)))
    | .returning ds n => let x := r.returnWord m ds n; some (.write x.1 x.2)
    | .marking 0 => some (.read (r.rxAddr (r.rxAt 0) 0))
    | .marking 1 => some (.write (r.rxAddr (r.rxAt 0) 3) (rxLengthWord 0 m.len))
    | .marking _ => some (.write (r.rxAddr (r.rxAt 0) 0) (rxOwnerWord true true 1 m.src m.cls))

/-! ## Transmit movement: its words (R106, R107, R109) -/

/-- Skip descriptors of a chain whose buffers are used up. -/
def loadPoint (ds : List TxDesc) : Nat → Nat → Nat × Nat
  | d, w =>
    if (match ds[d]? with | some x => wordsFor x.size | none => 0) ≤ w then
      match (ds.drop (d + 1)).findIdx? (fun x => 0 < x.size) with
      | some k => (d + 1 + k, 0)
      | none => (ds.length, 0)
    else (d, w)

/-- The next word of the transmit movement, or of an examination. -/
def State.txWord (s : State) : Option DmaOp :=
  let r := s.ring
  match r.tx with
  | none => if r.exam.isSome then some (.read (r.txAddr (r.txAt 0) 0)) else none
  | some m =>
    match m.phase with
    | .fetching .owner => some (.read (r.txAddr (r.txAt m.descs.length) 0))
    | .fetching (.addr _) => some (.read (r.txAddr (r.txAt m.descs.length) 1))
    | .fetching (.size _ _) => some (.read (r.txAddr (r.txAt m.descs.length) 2))
    | .fetching .waiting => none
    | .held _ => none
    | .loading _ _ d w _ => some (.read (addrOf ((match m.descs[d]? with | some x => x.addr | none => 0) + w)))
    | .returning out n =>
      let k := handBackOrder m.descs.length n
      some (.write (r.txAddr (r.txAt k) 0) (txOwnerWord (match m.descs[k]? with | some x => x.owner | none => 0) out))

/-- The next word of one side. A side asks for it when the word before has completed (DESIGN CHOICE, assumption log
36). -/
def State.ringWord (s : State) : RingSide → Option DmaOp
  | .rx => if s.inFlight (· == .rx) then none else s.rxWord
  | .tx => if s.inFlight (· == .tx) then none else s.txWord

/-! ## Abandoning (R11) -/

/-- A granted word of the purposes named belongs to abandoned work: it is performed, and its completion means nothing. -/
def State.dropHeld (s : State) (p : Purpose → Bool) : State :=
  match s.path.holder with
  | some (.word h) =>
    if p h.purpose then { s with path := { s.path with holder := some (.word { h with purpose := .dropped }) } } else s
  | _ => s

/-- The waiting word of one side is withdrawn, and a granted one is dropped. -/
def State.withdrawRing (s : State) (side : RingSide) : State :=
  let t := if s.ring.place = some side then { s with ring := { s.ring with place := none } } else s
  t.dropHeld (fun p => match side with | .rx => p == .rx | .tx => p == .tx)

/-! ## Receive movement: its course -/

def State.setRx (s : State) (m : Option RxMove) : State := { s with ring := { s.ring with rx := m } }
def State.setTx (s : State) (m : Option TxMove) : State := { s with ring := { s.ring with tx := m } }

/-- Change the ring counters. -/
def State.ringCount (s : State) (f : RingCounters → RingCounters) : State :=
  { s with ring := { s.ring with counters := f s.ring.counters } }

/-- R105: the frame in movement is missed. -/
def State.rxMiss (s : State) (m : RxMove) : State :=
  let t := (s.leaveQueue0 m.id (·.countFlushed 1)).ringCount (fun c => { c with missed := inc32 c.missed })
  ((t.deliver .ringError).markMissed).setRx (some { m with phase := .marking 0, hold := none, rewalk := false })

/-- R101, R102: a walk ends without room. -/
def State.walkEnds (s : State) (m : RxMove) : State :=
  let h := s.ring.par.holdMs
  let m1 := if m.hold.isNone then { m with hold := some (s.osc + h * Config.msPeriods) } else m
  if h = 0 then s.rxMiss m
  else if m.rewalk then s.setRx (some { m1 with rewalk := false, phase := .looking [] false })
  else s.setRx (some { m1 with phase := .held })

/-- A word read by the receive movement. -/
def State.rxRead (s : State) (v : Word) : State :=
  match s.ring.rx with
  | none => s
  | some m =>
    match m.phase with
    | .looking ds false =>
      if descOwned v then s.setRx (some { m with phase := .looking ds true }) else s.walkEnds m
    | .looking ds true =>
      if bufferSizeOk (descSize v) then
        let ds1 := ds ++ [⟨s.ring.rxAt ds.length, descSize v⟩]
        if m.len ≤ (ds1.map (·.size)).sum then s.setRx (some { m with phase := .placing ds1 0 none 0, hold := none })
        else if s.ring.par.rxSize ≤ ds1.length then s.walkEnds m
        else s.setRx (some { m with phase := .looking ds1 false })
      else (s.ringCount (fun c => { c with badBuffer := inc32 c.badBuffer })).walkEnds m
    | .placing ds d none w =>
      if storedIn ds m.len d = 0 then s.setRx (some { m with phase := .returning ds 0 })
      else s.setRx (some { m with phase := .placing ds d (some (descAddr v)) w })
    | .marking _ =>
      if descOwned v then s.setRx (some { m with phase := .marking 1 }) else s.setRx none
    | _ => s

/-- R104: the frame has been delivered. -/
def State.rxDelivered (s : State) (m : RxMove) (n : Nat) : State :=
  let t := (s.leaveQueue0 m.id PortCounters.countOut).ringCount (fun c => { c with placed := inc32 c.placed })
  let u := { t with ring := { t.ring with rxIdx := (t.ring.rxIdx + n) % t.ring.par.rxSize, rx := none } }
  u.deliver .rxFrame

/-- A word of the receive movement written. -/
def State.rxWritten (s : State) : State :=
  match s.ring.rx with
  | none => s
  | some m =>
    match m.phase with
    | .placing ds d addr w =>
      if w + 1 < wordsFor (storedIn ds m.len d) then s.setRx (some { m with phase := .placing ds d addr (w + 1) })
      else if d + 1 < ds.length then s.setRx (some { m with phase := .placing ds (d + 1) none 0 })
      else s.setRx (some { m with phase := .returning ds 0 })
    | .returning ds n =>
      if n + 1 < 2 * ds.length then s.setRx (some { m with phase := .returning ds (n + 1) })
      else s.rxDelivered m ds.length
    | .marking n =>
      if n < 2 then s.setRx (some { m with phase := .marking 2 })
      else { s with ring := { s.ring with rxIdx := (s.ring.rxIdx + 1) % s.ring.par.rxSize, rx := none } }
    | _ => s

/-- R100: a receive movement may begin. -/
def State.rxMayStart (s : State) : Bool :=
  s.ring.state == .running && s.ring.rx.isNone && !s.sw.queue0.frames.isEmpty

/-- R100: the engine takes the head of queue 0. -/
def State.rxStart (s : State) : State :=
  match s.sw.queue0.head with
  | none => s
  | some id =>
    let hd := match s.sw.find id with | some f => f.header | none => []
    let m : RxMove := { id := id, len := (s.sw.bytesOf id).length - 8, src := hdrSource hd, cls := hdrClass hd,
                        phase := .looking [] false, hold := none, rewalk := false }
    ({ s with sw := s.sw.addRef id }).setRx (some m)

/-- R102: the hold timer expires. A walk in progress is abandoned. -/
def State.rxHoldEnds (s : State) : State :=
  match s.ring.rx with
  | none => s
  | some m =>
    match m.phase with
    | .held => s.rxMiss m
    | .looking _ _ => (s.withdrawRing .rx).rxMiss m
    | _ => s

/-! ## Transmit movement: its course -/

/-- R109: the movement goes to RETURNING with an outcome. -/
def State.txReturn (s : State) (m : TxMove) (out : TxOutcome) : State :=
  s.setTx (some { m with phase := .returning out 0 })

/-- R109: every byte of the chain is in the pool. -/
def State.txLoaded (s : State) (m : TxMove) (id : Nat) (out : TxOutcome) (bytes : List Byte) : State :=
  (s.loadComplete id bytes).txReturn m out

/-- R108, R86: the answer to an offer. A frame without payload bytes is loaded at once. -/
def State.txAnswer (s : State) (m : TxMove) (a : OfferAnswer) : State :=
  match a with
  | .held => s.setTx (some { m with phase := .held false })
  | .badDestination => s.txReturn m .badDestination
  | .undeliverable => s.txReturn m .undeliverable
  | .accepted id part =>
    let out : TxOutcome := if part then .someLost else .accepted
    let x := loadPoint m.descs 0 0
    if m.descs.length ≤ x.1 then s.txLoaded m id out []
    else s.setTx (some { m with phase := .loading id out x.1 x.2 [] })

/-- Payload bytes of a chain. -/
def TxMove.length (m : TxMove) : Nat := (m.descs.map (·.size)).sum

/-- R108: the offer of a chain, with the destination and the class of its first descriptor. -/
def State.txOffer (s : State) (m : TxMove) : State :=
  let w : Word := match m.descs.head? with | some x => x.owner | none => 0
  let r := s.offer (descDestination w) (descClass w) m.length
  r.1.txAnswer m r.2

/-- R108, check 1. -/
def TxMove.wellFormed (m : TxMove) : Bool :=
  (match m.descs with
   | x :: rest => descStart x.owner && rest.all (fun y => !descStart y.owner)
   | [] => false) &&
  m.descs.all (fun x => x.addr + wordsFor x.size ≤ Config.memoryWords)

/-- R108: a complete chain is judged. -/
def State.txJudge (s : State) (m : TxMove) : State :=
  if !m.wellFormed then
    (s.ringCount (fun c => { c with malformed := inc32 c.malformed })).txReturn m .undeliverable
  else if Config.maxPayload < m.length then s.txReturn m .overlength
  else s.txOffer m

/-- R107: a descriptor has been read as GH412-owned. -/
def State.txFetched (s : State) (m : TxMove) (x : TxDesc) : State :=
  let m1 := { m with descs := m.descs ++ [x] }
  if descEnd x.owner then s.txJudge m1
  else if s.ring.par.txSize ≤ m1.descs.length then s.txReturn m1 .overlength
  else s.setTx (some { m1 with phase := .fetching .owner })

/-- The bytes of a payload word that a buffer still holds. -/
def bytesOfWord (v : Word) (n : Nat) : List Byte :=
  [Memory.byteOf v 0, Memory.byteOf v 1, Memory.byteOf v 2, Memory.byteOf v 3].take n

/-- R106: an examination has read the owner word. A movement that begins keeps the word read and goes on with the buffer
address (DESIGN CHOICE, assumption log 38: the owner word of the first descriptor is not read a second time). -/
def State.txExamined (s : State) (v : Word) (again : Bool) : State :=
  if descOwned v then
    { s with ring := { s.ring with exam := none, tx := some { descs := [], phase := .fetching (.addr v) } } }
  else { s with ring := { s.ring with exam := if again then some false else none } }

/-- A word read by the transmit movement, or by an examination. -/
def State.txRead (s : State) (v : Word) : State :=
  match s.ring.tx with
  | none => match s.ring.exam with | some again => s.txExamined v again | none => s
  | some m =>
    match m.phase with
    | .fetching .owner =>
      s.setTx (some { m with phase := .fetching (if descOwned v then .addr v else .waiting) })
    | .fetching (.addr o) => s.setTx (some { m with phase := .fetching (.size o (descAddr v)) })
    | .fetching (.size o a) => s.txFetched m { owner := o, addr := a, size := descSize v }
    | .loading id out d w bs =>
      let size := match m.descs[d]? with | some x => x.size | none => 0
      let bs1 := bs ++ bytesOfWord v (size - 4 * w)
      let x := loadPoint m.descs d (w + 1)
      if m.descs.length ≤ x.1 then s.txLoaded m id out bs1
      else s.setTx (some { m with phase := .loading id out x.1 x.2 bs1 })
    | _ => s

/-- R113: a chain handed back with an outcome is counted. -/
def RingCounters.outcome (c : RingCounters) : TxOutcome → RingCounters
  | .accepted => { c with accepted := inc32 c.accepted }
  | .someLost => { c with someLost := inc32 c.someLost }
  | .undeliverable => { c with undeliverable := inc32 c.undeliverable }
  | .overlength => { c with overlength := inc32 c.overlength }
  | .badDestination => { c with badDestination := inc32 c.badDestination }

/-- R106: the engine examines the transmit index when it is RING_RUNNING. -/
def State.examine (s : State) : State :=
  if s.ring.state = .running then { s with ring := { s.ring with exam := some false } } else s

/-- R109: the chain has been handed back. -/
def State.txReturned (s : State) (m : TxMove) (out : TxOutcome) : State :=
  let t := s.ringCount (·.outcome out)
  let u := { t with ring := { t.ring with txIdx := (t.ring.txIdx + m.descs.length) % t.ring.par.txSize, tx := none } }
  (u.deliver .txDone).examine

/-- A word of the transmit movement written. -/
def State.txWritten (s : State) : State :=
  match s.ring.tx with
  | some m =>
    match m.phase with
    | .returning out n =>
      if n + 1 < m.descs.length then s.setTx (some { m with phase := .returning out (n + 1) }) else s.txReturned m out
    | _ => s
  | none => s

/-- R88, R108: a room report has come; the held frame is offered again. -/
def State.txReoffer (s : State) : State :=
  match s.ring.tx with
  | some m => match m.phase with | .held true => s.txOffer m | _ => s
  | none => s

/-! ## Snooped writes (R102, R106, R107) -/

/-- The memory path hands a snooped write to the ring engine. -/
def State.snooped (s : State) (side : RingSide) : State :=
  if s.ring.state ≠ .running then s
  else
    match side with
    | .rx =>
      match s.ring.rx with
      | some m =>
        match m.phase with
        | .held => s.setRx (some { m with phase := .looking [] false })
        | .looking _ _ => s.setRx (some { m with rewalk := true })
        | _ => s
      | none => s
    | .tx =>
      match s.ring.tx with
      | none => { s with ring := { s.ring with exam := some s.ring.exam.isSome } }
      | some m =>
        match m.phase with
        | .fetching .waiting => s.setTx (some { m with phase := .fetching .owner })
        | _ => s

/-! ## Starting and stopping (R98, R99, R111) -/

/-- R98: RING_START. -/
def State.ringStartOp (s : State) : State × Answer :=
  if s.ring.state = .stopped then
    ((s.setRing { s.ring with state := .running, rxIdx := 0, txIdx := 0 }).examine, .done)
  else (s, .refused)

/-- The descriptors of a chain read as GH412-owned so far, the one being read among them (R99). -/
def TxMove.readSoFar (m : TxMove) : TxMove :=
  match m.phase with
  | .fetching (.addr o) => { m with descs := m.descs ++ [⟨o, 0, 0⟩] }
  | .fetching (.size o a) => { m with descs := m.descs ++ [⟨o, a, 0⟩] }
  | _ => m

/-- R99: the transmit side at a halt. -/
def State.txHalt (s : State) : State :=
  match s.ring.tx with
  | none =>
    let t := s.withdrawRing .tx
    { t with ring := { t.ring with exam := none } }
  | some m =>
    match m.phase with
    | .fetching _ => (s.withdrawRing .tx).txReturn m.readSoFar .undeliverable
    | .held _ => s.txReturn m .undeliverable
    | _ => s

/-- R99: a RING_RUNNING engine halts. -/
def State.ringHalt (s : State) : State :=
  if s.ring.state = .running then
    ((s.setRing { s.ring with state := .halting }).rxHoldEnds).txHalt
  else s

/-- R99: the halt is complete when both movements are none. -/
def State.ringHaltDone (s : State) : Bool := s.ring.state == .halting && s.ring.rx.isNone && s.ring.tx.isNone

/-- R99: queue 0 is flushed and the engine enters RING_STOPPED. -/
def State.ringStopped (s : State) : State :=
  let t := s.flushQueue0
  t.setRing { t.ring with state := .stopped }

/-- The load of the transmit movement is abandoned (R87, R111). -/
def State.abandonLoad (s : State) : State :=
  match s.ring.tx with
  | some m => match m.phase with | .loading id _ _ _ _ => s.loadAbandon id | _ => s
  | none => s

/-- The claim of the receive movement on the head of queue 0 ends (R89). A missed frame has already left. -/
def State.abandonRx (s : State) : State :=
  match s.ring.rx with
  | some m => match m.phase with | .marking _ => s | _ => s.dropClaim m.id
  | none => s

/-- R111, R96: a controller reset takes the engine to RING_STOPPED and queue 0 is flushed. The first word after it is the
receive movement's where both have one (DESIGN CHOICE, assumption log 34). -/
def State.ringReset (s : State) : State :=
  let t := s.abandonLoad.abandonRx.flushQueue0
  t.setRing { t.ring with state := .stopped, rxIdx := 0, txIdx := 0, rx := none, tx := none, exam := none, place := none,
                          lastSide := .tx }

end Sys2Proof.Machine
end

