-- ==== Sys2Proof/Machine/Tables.lean ====
section
/-! DEFINITION. Changes of the working tables (chapter 11): applying a record (R182, R183, R93, R118), the install of a
LOAD (R30) and the emptying (R33, R37). -/

namespace Sys2Proof.Machine

open Sys2Proof

/-! ## PORT records (R182) -/

/-- R182: the entry, with its new controller-set fields in it, after a change of policy from `old`: the alternate-success
count and the plane choice that the change brings. -/
def SlotEntry.repolicy (e : SlotEntry) (old : PlanePolicy) : SlotEntry :=
  if old = e.cfg.policy then e
  else
    let e1 : SlotEntry := { e with alt := if e.cfg.policy = PlanePolicy.auto then e.alt else 0 }
    e1.choosePlane

/-- R72, R182: what a change of the provisioned field does. -/
def State.provisionChanged (s : State) (i : Slot) (was now : Bool) : State :=
  if was && !now then
    match (s.slot i).state with
    | .powering | .training | .identifying => s.enterSeated i id
    | .admitted => s.enterDraining i .unprovision
    | _ => s
  else s

/-- R182: a PORT record for a slot is applied. Its effects are taken together: the lanes choose again (R50) only when the
fields are in, the TIMED queue is flushed and the plane is chosen. -/
def State.applyPort (s : State) (i : Slot) (c : PortCfg) : State :=
  let old := (s.slot i).cfg
  let s0 := s.putSlot i { s.slot i with cfg := c }
  let shut : Bool := old.gate ≠ c.gate && c.gate < s.sw.quality
  let s1 := if shut then State.emptyQueue i s0 .timed else s0
  let sp := s1.changeSlot i ((s1.slot i).repolicy old.policy)
  let s2 := if shut then sp.kickSlot i else sp
  let s3 := if old.timedLimit < c.timedLimit || old.bulkLimit < c.bulkLimit then s2.roomReport else s2
  (s3.provisionChanged i old.provisioned c.provisioned).judgeSeated i

/-- R182: a PORT record for port 0. -/
def State.applyPort0 (s : State) (limit : Nat) : State :=
  let t := { s with sm := { s.sm with q0Limit := limit } }
  if s.sm.q0Limit < limit then t.roomReport else t

/-! ## ALARM_POINT records (R183) -/

/-- R183: is the source of a point the same before and after a record? -/
def sameSource (old new : PointCfg) : Bool :=
  old.enabled && new.enabled && old.kind == new.kind && old.selector == new.selector &&
    (old.kind != .contact || old.whenOpen == new.whenOpen)

/-- R183: a point that keeps its source. -/
def Point.keepSource (p : Point) (c : PointCfg) : Point :=
  { cfg := c, state := if p.state = .pendingClear && c.latching then .raised else p.state, count := 0,
    sourceCleared := p.sourceCleared && c.latching }

/-- R183: an ALARM_POINT record is applied. The relays are judged once the point is settled. -/
def State.applyPoint (s : State) (k : Fin 64) (c : PointCfg) : State :=
  let p := s.point k
  (if sameSource p.cfg c then s.putPoint k (p.keepSource c)
   else (s.movePoint k p.cleared).putPoint k { Point.cold with cfg := c }).judgeRelays

/-! ## GROUP and REFERENCE records (R93, R118) -/

/-- R93: a GROUP record replaces the entry whole. -/
def State.applyGroup (s : State) (k : Fin 64) (g : Group) : State :=
  { s with sw := { s.sw with groups := vset s.sw.groups k g } }

/-- R118: a REFERENCE record replaces the entry's controller-set fields; the entry starts afresh. -/
def State.applyRef (s : State) (k : Fin 4) (c : RefCfg) : State :=
  s.putTime (s.time.rejudge (s.time.setRef k (RefEntry.fresh c)))

/-- R181: a validated record is handed to its owner. -/
def State.applyRecord (s : State) (t : Table) (index : Nat) (ws : List Word) : State :=
  match t with
  | .port =>
    match slotOf index with
    | some i => s.applyPort i (PortCfg.ofWords ws)
    | none => s.applyPort0 (field (ws.getD 0 0) 0 10)
  | .group => if h : index < 64 then s.applyGroup ⟨index, h⟩ (Group.ofWords ws) else s
  | .alarmPoint => if h : index < 64 then s.applyPoint ⟨index, h⟩ (PointCfg.ofWords ws) else s
  | .reference => if h : index < 4 then s.applyRef ⟨index, h⟩ (RefCfg.ofWords ws) else s

/-! ## Install and empty (R30, R33, R37, R58, R93, R118, R165) -/

/-- The words read for an entry of a table by a LOAD, from all 145 entries. -/
def entryWords (all : List (List Word)) (t : Table) (index : Nat) : List Word :=
  let first : Nat := match t with | .port => 0 | .group => 13 | .alarmPoint => 77 | .reference => 141
  all.getD (first + index) []

/-- R30: the controller-set fields of all four tables are installed at one moment. The maintained fields of points and
references take their initial values (R30); those of a slot keep the values held, as R58 says (DEDUCED, assumption log
42). -/
def State.installTables (s : State) (all : List (List Word)) : State :=
  let w (t : Table) (k : Nat) : List Word := entryWords all t k
  let s1 := { s with sm := { s.sm with
    slots := Vector.ofFn (fun (i : Fin 12) => { s.slot i with cfg := PortCfg.ofWords (w .port (i.val + 1)) })
    q0Limit := field ((w .port 0).getD 0 0) 0 10 } }
  let s2 := { s1 with sw := { s1.sw with groups := Vector.ofFn (fun (k : Fin 64) => Group.ofWords (w .group k.val)) } }
  let s3 := (List.finRange 64).foldl (fun s k =>
    s.putPoint k { Point.cold with cfg := PointCfg.ofWords (w .alarmPoint k.val) }) s2
  s3.putTime (s3.time.rejudge { s3.time with
    refs := Vector.ofFn (fun (k : Fin 4) => RefEntry.fresh (RefCfg.ofWords (w .reference k.val))) })

/-- R58, R93, R118, R165: the working tables are emptied. -/
def State.emptyTables (s : State) : State :=
  let s1 := { s with sm := { s.sm with
    slots := Vector.ofFn (fun (i : Fin 12) => { s.slot i with cfg := PortCfg.cold }), q0Limit := SlotManager.cold.q0Limit } }
  let s2 := { s1 with sw := { s1.sw with groups := SwitchCore.cold.groups } }
  let s3 := s2.emptyPoints
  s3.putTime (s3.time.rejudge { s3.time with refs := TimeBase.cold.refs })

end Sys2Proof.Machine
end

