-- ==== Sys2Proof/Machine/CommandUnit.lean ====
section
/-! DEFINITION. The command unit (chapter 2): collection, execution, results, hub states, and the transfers of the command
executing. -/

namespace Sys2Proof.Machine

open Sys2Proof

/-! ## Results and refusals (R21, R22) -/

/-- R22: an opened command finishes; everything is recorded at one moment. -/
def State.finish (s : State) (code : Nat) (r : CmdResult) (item : FailItem) (clamped : Bool) : State :=
  let t := s.setRecord { s.cmd.record with lastCode := code, result := r, fail := item, clamped := clamped,
                                           done := s.cmd.record.accepted }
  { t with cmd := { t.cmd with collection := .idle, transfer := none, doneOwed := true } }

/-- R22: a command finishes with a result and no failing item. -/
def State.finishWith (s : State) (c : Command) (r : CmdResult) : State := s.finish c.code r ⟨0, 0⟩ false

/-- R22: a command finishes with the answer of its owner. -/
def State.finishAnswer (s : State) (c : Command) (a : Answer) : State := s.finish c.code a.result ⟨a.item, 0⟩ false

/-- R22: a command finishes if it is the one executing. -/
def State.finishIf (s : State) (c : Command) : State :=
  match s.cmd.collection with
  | .executing o => if o.cmd = c then s.finishWith c .done else s
  | _ => s

/-- R19, R21: a refused command word or an ignored parameter write. -/
def State.refuse (s : State) (why : RefusalReason) (offset code : Nat) : State :=
  (s.setRecord { s.cmd.record with refusals := satAdd Config.sat16 s.cmd.record.refusals 1, lastReason := why,
                                   lastOffset := offset, lastRefusedCode := code }).deliver .refusal

/-! ## Hub states (R27) -/

/-- R27: the hub takes a new state; the guard (R5) follows. The relays are judged (R178) and SEATED slots are judged by
R62. -/
def State.setHub (s : State) (h : HubState) : State :=
  ((retouch [0x31] s { s with cmd := { s.cmd with hub := h } }).judgeRelays).judgeAllSeated

/-- R152: the hub leaves IN_SERVICE; the entry in progress is abandoned. -/
def State.cycleLeaves (s : State) : State :=
  let t := s.dropHeld (· == .cycle)
  t.setCyc t.cyc.idle

/-- R29, R30: the zone set is emptied, and with it the image rewrite set (R185). -/
def State.emptyZones (s : State) : State :=
  { s with path := { s.path with zones := none }, cmd := { s.cmd with images := [] } }

/-- R30, R31: the hub enters IN_SERVICE. The mask is replaced, the log starts, the ring parameters and the poll response
timeout take effect (R29), and LOAD_SETUP finishes. -/
def State.enterService (s : State) : State :=
  match s.cmd.setup with
  | none => s
  | some b =>
    let s1 := { s with cmd := { s.cmd with mask := b.mask.extractLsb' 0 12, setup := none }
                       ring := { s.ring with params := some b.rings, rxIdx := 0, txIdx := 0 }
                       cyc := { s.cyc with timeoutUs := b.pollUs } }
    ((s1.setHub .inService).alarmEnters b.logBase b.logSize).finishWith .loadSetup .done

/-- R29, R30: LOAD_SETUP finishes with SETUP_INVALID and the hub returns to the state it came from. -/
def State.loadFails (s : State) (mode : LoadMode) (item : FailItem) : State :=
  let back : HubState := match mode with | .load => .unconfigured | .adopt => .carrying
  let s1 := { s with cmd := { s.cmd with setup := none } }
  ((s1.emptyZones).setHub back).finish Command.loadSetup.code .setupInvalid item false

/-! ## Commands run by the command unit itself (R28, R32, R36, R180) -/

/-- Start the transfer of the command executing. -/
def State.startTransfer (s : State) (t : Transfer) : State := { s with cmd := { s.cmd with transfer := some t } }

/-- 12.1: the mode of a LOAD_SETUP. -/
def LoadMode.ofCode (n : Nat) : Option LoadMode :=
  match n with
  | 1 => some .load
  | 2 => some .adopt
  | _ => none

/-- R28: the hub state a mode is allowed in. -/
def LoadMode.from : LoadMode → HubState
  | .load => .unconfigured
  | .adopt => .carrying

/-- R28: LOAD_SETUP. -/
def State.loadSetupOp (s : State) (mode addr : Nat) : State :=
  match LoadMode.ofCode mode with
  | none => s.finishAnswer .loadSetup (.parameter 1)
  | some m =>
    if s.cmd.hub ≠ m.from then s.finishAnswer .loadSetup .refused
    else if 0xFFEE0 < addr then s.finishAnswer .loadSetup (.parameter 2)
    else (s.setHub (.loading m)).startTransfer (.setup addr [])

/-- R32: SHUTDOWN. The cycle engine abandons its entry with the change of hub state (R152), before the slots move. -/
def State.shutdownOp (s : State) : State :=
  (allSlots.foldl State.slotShutdown ((s.setHub .shuttingDown).alarmLeaves).cycleLeaves).ringHalt

/-- R36, R180: `n` words from an address lie in memory, outside the control page and every installed zone. -/
def State.areaOk (s : State) (addr n : Nat) : Bool := addr + n ≤ Config.memoryWords && !s.path.touchesKept addr n

/-- R36: COUNTER_SNAPSHOT. -/
def State.snapshotOp (s : State) (addr : Nat) (clear : Bool) : State :=
  if s.areaOk addr 192 then s.startTransfer (.snapshot addr clear 0)
  else s.finishAnswer .counterSnapshot (.parameter 1)

/-- R180: TABLE_UPDATE. -/
def State.tableUpdateOp (s : State) (table index addr : Nat) : State :=
  match Table.ofCode table with
  | none => s.finishAnswer .tableUpdate (.parameter 1)
  | some t =>
    if t.entries ≤ index then s.finishAnswer .tableUpdate (.parameter 2)
    else if !s.areaOk addr t.words then s.finishAnswer .tableUpdate (.parameter 3)
    else s.startTransfer (.staging t index addr [])

/-! ## Commands of the cycle engine (R135, R136) -/

/-- R135: CYCLE_START. A parameter that is no word address faults at the fetch (assumption log 14). -/
def State.cycleStartOp (s : State) (v : Word) : State × Answer :=
  if s.cyc.state = .idle || s.cyc.state = .faulted then
    let a := addrOf v.toNat
    let t := s.setCyc { s.cyc with state := .running, fault := .none, stack := [], zeroRun := 0, cur := a, entry := none }
    (if v.toNat < Config.memoryWords then t.cycleGo a else t.cycleFault .illegalAddress, .done)
  else (s, .refused)

/-- R136: CYCLE_STOP. The answer says whether the command has finished. With an entry in FETCH the current entry address
stays at that entry, to which R139 has moved it (DEDUCED, assumption log 43). -/
def State.cycleStopOp (s : State) : State × Bool :=
  let halting : State := s.setCyc { s.cyc with state := .halting }
  match s.cyc.state with
  | .idle => (s, true)
  | .faulted => (s.cycleEnds, true)
  | .halting => (s, false)
  | .running =>
    match s.cyc.entry with
    | none => (s.cycleEnds, true)
    | some e =>
      match e.phase with
      | .fetch _ => ((s.dropHeld (· == .cycle)).cycleEnds, true)
      | .run _ (.gap _) => (halting.endWait .stopped, false)
      | .run _ (.boundary _) => (halting.endWait .stopped, false)
      | _ => (halting, false)

/-- R99: RING_STOP. The answer says whether the command has finished. -/
def State.ringStopOp (s : State) : State × Bool :=
  match s.ring.state with
  | .stopped => (s, true)
  | _ => (s.ringHalt, false)

/-! ## Execution (R21) -/

/-- Parameter `k` (from 0) of a command. -/
def OpenCmd.par (o : OpenCmd) (k : Nat) : Word := o.params.getD k 0

/-- A command finishes if its owner has said so. -/
def State.finishWhen (x : State × Bool) (c : Command) : State := if x.2 then x.1.finishWith c .done else x.1

/-- R21: the command is run by its owner. -/
def State.runCommand (s : State) (o : OpenCmd) : State :=
  let n (k : Nat) : Nat := (o.par k).toNat
  match o.cmd with
  | .loadSetup => s.loadSetupOp (n 0) (n 1)
  | .shutdown => s.shutdownOp
  | .counterSnapshot => s.snapshotOp (n 0) (n 1 ≠ 0)
  | .setDiscipline =>
    let r := s.setDisciplineOp o.params
    r.1.finish Command.setDiscipline.code .done ⟨0, 0⟩ r.2
  | .setTime => (s.setTimeOp (o.par 0)).finishWith .setTime .done
  | .ringStart => let r := s.ringStartOp; r.1.finishAnswer .ringStart r.2
  | .ringStop => State.finishWhen s.ringStopOp .ringStop
  | .cycleStart => let r := s.cycleStartOp (o.par 0); r.1.finishAnswer .cycleStart r.2
  | .cycleStop => State.finishWhen s.cycleStopOp .cycleStop
  | .slotRelease => let r := s.slotReleaseOp (n 0); r.1.finishAnswer .slotRelease r.2
  | .slotRetry => let r := s.slotRetryOp (n 0); r.1.finishAnswer .slotRetry r.2
  | .slotOverride => let r := s.slotOverrideOp (n 0); r.1.finishAnswer .slotOverride r.2
  | .tableUpdate => s.tableUpdateOp (n 0) (n 1) (n 2)
  | .alarmReset =>
    match s.alarmResetOp (n 0) with
    | some t => t.finishWith .alarmReset .done
    | none => s.finishAnswer .alarmReset (.parameter 1)

/-- R21: execution begins. -/
def State.execute (s : State) (o : OpenCmd) : State :=
  if o.cmd.allowedIn s.cmd.hub then
    ({ s with cmd := { s.cmd with collection := .executing o } }).runCommand o
  else s.finishWith o.cmd .refusedState

/-! ## Opening and collecting (R17 to R20) -/

/-- R17: a command word opens a command. -/
def State.openCommand (s : State) (code count : Nat) : State :=
  let t := s.setRecord { s.cmd.record with accepted := (s.cmd.record.accepted + 1) % 65536 }
  match Command.ofCode code with
  | none => t.finish code .refusedUnknown ⟨0, 0⟩ false
  | some c =>
    let o : OpenCmd := { cmd := c, count := count, params := [] }
    if !c.allowsCount count then t.finishAnswer c (.parameter 0)
    else if count = 0 then t.execute o
    else { t with cmd := { t.cmd with collection := .collecting o } }

/-- R20: a command word cuts the open command short. -/
def State.cutShort (s : State) (o : OpenCmd) : State :=
  match o.cmd with
  | .setDiscipline =>
    let r := s.setDisciplineOp o.params
    r.1.finish o.cmd.code .donePartial ⟨0, 0⟩ r.2
  | _ => s.finishWith o.cmd .cutShort

/-- R21: does the hub state refuse every command word? -/
def HubState.refusesAll : HubState → Bool
  | .loading _ | .shuttingDown => true
  | _ => false

/-- R21: the reason of a refused command word. -/
def HubState.refusal : HubState → RefusalReason
  | .shuttingDown => .state
  | _ => .busy

/-- R17, R20, R21: a command word is handed to the command unit. -/
def State.commandWord (s : State) (w : Word) : State :=
  let code := field w 0 8
  let count := field w 8 4
  if s.cmd.hub.refusesAll then s.refuse s.cmd.hub.refusal 0 code
  else
    match s.cmd.collection with
    | .executing _ => s.refuse s.cmd.hub.refusal 0 code
    | .collecting o => (s.cutShort o).openCommand code count
    | .idle => s.openCommand code count

/-- R18, R19: a parameter write, parameter `k` from 1 to 14. -/
def State.parameterWord (s : State) (k : Nat) (v : Word) : State :=
  match s.cmd.collection with
  | .collecting o =>
    if k = o.params.length + 1 then
      let o1 := { o with params := o.params ++ [v] }
      if o1.params.length = o1.count then s.execute o1
      else { s with cmd := { s.cmd with collection := .collecting o1 } }
    else s.refuse .parameterIgnored k 0
  | _ => s.refuse .parameterIgnored k 0

/-- R24. -/
def State.maskWord (s : State) (v : Word) : State := { s with cmd := { s.cmd with mask := v.extractLsb' 0 12 } }

/-- R25. -/
def State.acknowledgeWord (s : State) (v : Word) : State :=
  s.setPending (s.cmd.pending &&& ~~~(v.extractLsb' 0 12))

/-- R3: a full write of a control word is handed to its owner. -/
def State.handControl (s : State) (offset : Nat) (v : Word) : State :=
  if offset = 0 then s.commandWord v
  else if offset ≤ 0x0E then s.parameterWord offset v
  else if offset = 0x10 then s.maskWord v
  else if offset = 0x11 then s.acknowledgeWord v
  else s

/-! ## Transfers: the next word (R28 to R31, R36, R180, R184) -/

/-- The table image word that a transfer writes next. -/
def Transfer.image? : Transfer → Option ImgWord
  | .writeback k => writebackWords[k]?
  | .writeout k => writeoutWords[k]?
  | .entryRewrite t i k => some ⟨t, i, k⟩
  | _ => none

/-- The next word access of a transfer, with its value at this moment. -/
def State.transferOp (s : State) (t : Transfer) : DmaOp :=
  match t with
  | .setup a got => .read (addrOf (a + got.length))
  | .images done got =>
    match loadEntries[done.length]? with
    | some (t, i) => .read (s.imageAddr ⟨t, i, got.length⟩)
    | none => .read 0
  | .snapshot a clear k => .write (addrOf (a + k)) (wordOf ((s.snapshotWords clear).getD k 0))
  | .staging _ _ a got => .read (addrOf (a + got.length))
  | t =>
    match t.image? with
    | some w => .write (s.imageAddr w) (s.imageValue w)
    | none => .read 0

/-! ## Transfers: a word has completed -/

/-- R29: the setup block has been read. -/
def State.setupRead (s : State) (got : List Word) : State :=
  let b := Setup.ofWords got
  let mode : LoadMode := match s.cmd.hub with | .loading m => m | _ => .load
  match b.fail with
  | some n => s.loadFails mode ⟨n, 0⟩
  | none =>
    { s with path := { s.path with zones := some b.zones }
             cmd := { s.cmd with setup := some b
                                 transfer := some (match mode with | .load => .images [] [] | .adopt => .writeout 0) } }

/-- R30: a word of the images has been read. Of each entry the words with controller-set fields are read, as R180 reads a
staging record (DEDUCED, assumption log 39). -/
def State.imagesRead (s : State) (done : List (List Word)) (got : List Word) : State :=
  match loadEntries[done.length]? with
  | none => s
  | some (t, i) =>
    if got.length < t.cfgWords i then s.startTransfer (.images done got)
    else
      match recordFail t i got with
      | some _ => s.loadFails .load ⟨i, t.code⟩
      | none =>
        let all := done ++ [got]
        if all.length < loadEntries.length then s.startTransfer (.images all [])
        else (s.installTables all).startTransfer (.writeback 0)

/-- R181: a word of the staging record has been read. -/
def State.stagingRead (s : State) (t : Table) (i addr : Nat) (got : List Word) : State :=
  if got.length < t.cfgWords i then s.startTransfer (.staging t i addr got)
  else
    match recordFail t i got with
    | some n => s.finish Command.tableUpdate.code .updateInvalid ⟨n, 0⟩ false
    | none => (s.applyRecord t i got).startTransfer (.entryRewrite t i 0)

/-- R36, R186: the clear of a COUNTER_SNAPSHOT. -/
def LanePort.clearCounts (l : LanePort) : LanePort :=
  { l with partialCount := 0, setAside := 0, resend := 0, notSent := 0 }

/-- R9, R36, R186: every counter of the snapshot is set to 0 at one moment. -/
def State.clearCounters (s : State) : State :=
  retouch [0x3D] s
    { s with path := { s.path with guardedCount := 0, partialCount := 0 }
             lanes := s.lanes.map (fun l => { a := l.a.clearCounts, b := l.b.clearCounts })
             sm := { s.sm with discarded := 0 }
             sw := { s.sw with counters := SwitchCore.cold.counters }
             ring := { s.ring with counters := RingCounters.zero }
             time := { s.time with steps := 0, setApplied := 0, discardedRefs := 0, intervalRejects := 0,
                                   watchExpiries := 0 }
             cyc := { s.cyc with counters := CycleCounters.zero }
             alarm := { s.alarm with ignored := 0 } }

/-- A word of the transfer has completed; a read answers `v`. -/
def State.transferDone (s : State) (v : Word) : State :=
  match s.cmd.transfer with
  | none => s
  | some (.setup a got) =>
    if got.length < 12 then s.startTransfer (.setup a (got ++ [v])) else s.setupRead (got ++ [v])
  | some (.images done got) => s.imagesRead done (got ++ [v])
  | some (.writeback k) =>
    if k + 1 < writebackWords.length then s.startTransfer (.writeback (k + 1)) else s.enterService
  | some (.writeout k) =>
    if k + 1 < writeoutWords.length then s.startTransfer (.writeout (k + 1)) else s.enterService
  | some (.snapshot a clear k) =>
    if k < 191 then s.startTransfer (.snapshot a clear (k + 1))
    else (if clear then s.clearCounters else s).finishWith .counterSnapshot .done
  | some (.staging t i a got) => s.stagingRead t i a (got ++ [v])
  | some (.entryRewrite t i k) =>
    if k + 1 < t.words then s.startTransfer (.entryRewrite t i (k + 1)) else s.finishWith .tableUpdate .done

/-! ## Shutdown completion (R33) -/

/-- R33: the three conditions. -/
def State.shutdownReady (s : State) : Bool :=
  s.cmd.hub == .shuttingDown &&
    allSlots.all (fun i => (s.slot i).state == .empty || (s.slot i).state == .seated) &&
    s.ring.state == .stopped && s.cyc.state == .idle

/-- R33: the shutdown completes. -/
def State.completeShutdown (s : State) : State :=
  (((s.emptyTables).emptyZones).setHub .unconfigured).finishIf .shutdown

end Sys2Proof.Machine
end

