-- ==== Sys2Proof/Machine/Entries.lean ====
section
/-! DEFINITION. Carrying out a fetched cycle entry (R138 to R142) and the words of an entry (R137, R139). -/

namespace Sys2Proof.Machine

open Sys2Proof

/-- R140: CALL. -/
def State.cycleCall (a target : Addr) (s : State) : State :=
  if s.cyc.stack.length < 4 then
    let t := { s with cyc := { s.cyc with stack := (a + 8) :: s.cyc.stack } }
    t.cycleGo target
  else s.cycleFault .stack

/-- R140: RETURN. -/
def State.cycleReturn (s : State) : State :=
  match s.cyc.stack with
  | top :: rest =>
    let t := { s with cyc := { s.cyc with stack := rest } }
    t.cycleGo top
  | [] => s.cycleFault .stack

/-- R141: NOTIFY. -/
def State.cycleNotify (a : Addr) (v : Word) (s : State) : State :=
  ((s.setCyc { s.cyc with notify := v }).deliver .cycleNotify).cycleGo (a + 8)

/-- R138, R145: a POLL. -/
def State.cyclePoll (s : State) (a : Addr) (ws : List Word) : State :=
  let w := ws.getD 0 0
  match slotOf (field w 8 4), PlaneChoice.ofNat (field w 16 2) with
  | some i, some c =>
    let p : PollWork :=
      { slot := i, retries := field w 12 2, choice := c, alternate := bit w 18, conditions := w.extractLsb' 24 6,
        branch := bit w 19, first := none, made := 0, log := [], cur := none }
    (s.enterRun a ws (.poll p)).pollGo pollFuel a ws p
  | _, _ => s.cycleFault .illegalField

/-- R138, R151: a TIME. -/
def State.cycleTime (s : State) (a : Addr) (ws : List Word) : State :=
  let w := ws.getD 0 0
  let target := field w 8 4
  match PlaneChoice.ofNat (field w 16 2) with
  | some c =>
    if (slotOf target).isSome || target = 15 then
      let run : TimeWork := { tag := s.cyc.tag, awaited := 0, sent := 0, notSent := 0, plane := none }
      (s.enterRun a ws (.time run)).timeRun a ws target c
    else s.cycleFault .illegalField
  | none => s.cycleFault .illegalField

/-- R138: the entry fetched at `a` is judged and carried out. -/
def State.cycleJudge (s : State) (a : Addr) (ws : List Word) : State :=
  let value : Word := ws.getD 2 0
  match EntryKind.ofWord (ws.getD 0 0) with
  | none => s.cycleFault .illegalKind
  | some .stop => s.cycleEnds
  | some .waitGap =>
    if value.toNat ≤ 1000000 then s.enterRun a ws (.gap (s.osc + max 1 value.toNat * Config.usPeriods))
    else s.cycleFault .illegalField
  | some .waitBoundary =>
    if boundaryPeriods.contains value.toNat then s.enterRun a ws (.boundary (boundaryDistance value.toNat s.time.ns))
    else s.cycleFault .illegalField
  | some .jump => s.zeroTime (·.cycleGo (branchAddr ws))
  | some .call => s.zeroTime (State.cycleCall a (branchAddr ws))
  | some .ret => s.zeroTime State.cycleReturn
  | some .notify => s.zeroTime (State.cycleNotify a value)
  | some .poll => s.cyclePoll a ws
  | some .time => s.cycleTime a ws

/-- The word of an entry that result word number `n` of the write-back is: 5, 6, 7, then 4 (R139). -/
def resultOrder (n : Nat) : Nat := if n < 3 then 5 + n else 4

/-- The value of that word. -/
def WriteBack.word (b : WriteBack) : Word :=
  match b.n with
  | 0 => b.w5
  | 1 => b.w6
  | 2 => b.w7
  | _ => b.w4

/-- The next word of the cycle engine. -/
def State.cycleWord (s : State) : Option DmaOp :=
  match s.cyc.entry with
  | some ⟨a, .fetch got⟩ => some (.read (a + BitVec.ofNat 20 got.length))
  | some ⟨a, .writeBack _ b⟩ => some (.write (a + BitVec.ofNat 20 (resultOrder b.n)) b.word)
  | _ => none

/-- R137, R138: a word of the entry has been read. -/
def State.cycleRead (s : State) (v : Word) : State :=
  match s.cyc.entry with
  | some ⟨a, .fetch got⟩ =>
    if got.length < 3 then { s with cyc := { s.cyc with entry := some ⟨a, .fetch (got ++ [v])⟩ } }
    else s.cycleJudge a (got ++ [v])
  | _ => s

/-- R139, R136: the last result word has been performed. -/
def State.cycleMovesOn (s : State) (next : Addr) : State :=
  if s.cyc.state = .halting then (s.cycleEnds).finishIf .cycleStop else s.cycleGo next

/-- R139: a result word has been performed. -/
def State.cycleWritten (s : State) : State :=
  match s.cyc.entry with
  | some ⟨a, .writeBack ws b⟩ =>
    if b.n < 3 then { s with cyc := { s.cyc with entry := some ⟨a, .writeBack ws { b with n := b.n + 1 }⟩ } }
    else s.cycleMovesOn b.next
  | _ => s

end Sys2Proof.Machine
end

