-- ==== Sys2Proof/Machine/Port.lean ====
section
/-! DEFINITION. The memory port: what waits for it, the arbiter's grants (R11 to R14), controller accesses (R1 to R8) and
the completion of GH412 words. -/

namespace Sys2Proof.Machine

open Sys2Proof

/-! ## The ring engine's place (R103) -/

def RingSide.other : RingSide → RingSide
  | .rx => .tx
  | .tx => .rx

/-- R103: the ring engine's place is filled whenever it is free, whoever holds the port (assumption log 36). The two
movements take it alternately. The owner read of an examination (R106), which belongs to no movement, takes the transmit
movement's turn (DESIGN CHOICE, assumption log 45). -/
def State.fillRing (s : State) : State :=
  match s.ring.place.filter (fun x => (s.ringWord x).isSome) with
  | some _ => s
  | none =>
    match [s.ring.lastSide.other, s.ring.lastSide].find? (fun x => (s.ringWord x).isSome) with
    | some x => { s with ring := { s.ring with place := some x, lastSide := x } }
    | none => { s with ring := { s.ring with place := none } }

/-- Each requester that has a word puts it in its waiting place. -/
def State.fill (s : State) : State := s.fillCommand.fillRing

/-! ## The words that wait -/

/-- The alarm unit's next word (R175). -/
def State.alarmWord (s : State) : Option DmaOp :=
  match s.alarm.queue with
  | e :: _ => some (.write (e.addr + BitVec.ofNat 20 s.alarm.headDone) (e.wordAt s.alarm.headDone))
  | [] => none

/-- Does a requester have a word waiting? -/
def State.waits (s : State) : Requester → Bool
  | .command => s.cmd.place.isSome
  | .ring => s.ring.place.isSome
  | .cycle => s.cycleWord.isSome
  | .alarm => s.alarmWord.isSome

/-- R13: the cyclic order after the last requester served. -/
def Requester.after : Requester → List Requester
  | .command => [.ring, .cycle, .alarm, .command]
  | .ring => [.cycle, .alarm, .command, .ring]
  | .cycle => [.alarm, .command, .ring, .cycle]
  | .alarm => [.command, .ring, .cycle, .alarm]

/-- R13: the GH412 requester the arbiter would choose. -/
def State.chosen (s : State) : Option Requester := s.path.lastServed.after.find? s.waits

/-! ## Grants (R12, R34, R185) -/

/-- A requester takes the port: it is recorded as the last served and the passed-over count is 0. -/
def State.hold (s : State) (who : Requester) (p : Purpose) (op : DmaOp) : State :=
  { s with path := { s.path with holder := some (.word ⟨who, p, op⟩), passedOver := 0, lastServed := who } }

/-- R34, R35, R185: the command unit's word is granted, with its value at this moment; a status or image word leaves its
set. -/
def State.grantCommand (s : State) : State :=
  match s.cmd.place with
  | none => s
  | some (.status o) =>
    let fin : Bool := o = 0x21 && s.cmd.doneOwed
    let t := { s with cmd := { s.cmd with place := none, rewrite := s.cmd.rewrite.filter (· ≠ o)
                                          doneOwed := s.cmd.doneOwed && o ≠ 0x21 } }
    t.hold .command (.status o fin) (.write (addrOf (Config.controlPage + o)) (s.statusWord o))
  | some (.image w) =>
    let t := { s with cmd := { s.cmd with place := none, images := s.cmd.images.filter (· ≠ w) } }
    t.hold .command .image (.write (s.imageAddr w) (s.imageValue w))
  | some .transfer =>
    match s.cmd.transfer with
    | none => s
    | some x =>
      let t := { s with cmd := { s.cmd with place := none
                                            images := match x.image? with
                                              | some w => s.cmd.images.filter (· ≠ w) | none => s.cmd.images } }
      t.hold .command .transfer (s.transferOp x)

/-- The ring engine's word is granted. -/
def State.grantRing (s : State) : State :=
  match s.ring.place with
  | none => s
  | some x =>
    match s.ringWord x with
    | none => s
    | some op =>
      let t := { s with ring := { s.ring with place := none } }
      t.hold .ring (match x with | .rx => .rx | .tx => .tx) op

/-- R12: a GH412 requester is granted the port. -/
def State.grant (s : State) (who : Requester) : State :=
  match who with
  | .command => s.grantCommand
  | .ring => s.grantRing
  | .cycle => match s.cycleWord with | some op => s.hold .cycle .cycle op | none => s
  | .alarm => match s.alarmWord with | some op => s.hold .alarm .log op | none => s

/-! ## Controller accesses (R1 to R8) -/

/-- Offset in the control page, none outside it. -/
def pageOffset (a : Addr) : Option Nat :=
  if Config.controlPage ≤ a.toNat then some (a.toNat - Config.controlPage) else none

/-- R2: the class of a controller write. -/
def State.classify (s : State) (a : Addr) (be : ByteEnables) : AccessClass :=
  match pageOffset a with
  | some o =>
    if o ≤ 0x0E || (0x10 ≤ o && o ≤ 0x12) then
      if be = allBytes then (if o = 0x12 then .consumerIndex else .control o) else .partialControl
    else if 0x20 ≤ o && o ≤ 0x5B && s.guard then .guarded
    else .plain
  | none =>
    match (if s.guard then s.path.zones else none) with
    | none => .plain
    | some z =>
      if z.rx.has a.toNat then .snooped .rx (a.toNat - z.rx.base)
      else if z.tx.has a.toNat then .snooped .tx (a.toNat - z.tx.base)
      else if (z.toList.drop 2).any (·.has a.toNat) then .guarded
      else .plain

/-- R1, R2: a controller access classed as it arrives. -/
def State.classed (s : State) (acc : BusAccess) : Classed :=
  match acc with
  | .read _ => ⟨acc, .read⟩
  | .write a _ be => ⟨acc, s.classify a be⟩

/-- R1, R3: a controller access is performed on memory: a read returns the word on CDATA. -/
def State.perform (s : State) (acc : BusAccess) : State :=
  match acc with
  | .read a => { s with path := { s.path with cdata := Memory.readWord s.mem a } }
  | .write a d be => { s with mem := Memory.writeWord s.mem a d be }

/-- The value a write carries. -/
def BusAccess.data : BusAccess → Word
  | .read _ => 0
  | .write _ d _ => d

/-- R3: count a partial control write. -/
def State.countPartial (s : State) : State :=
  { s with path := { s.path with partialCount := inc32 s.path.partialCount } }

/-- R3, R9: an access that needs the port has arrived on the bus. A partial control write is counted as it arrives, so that
R9 tells by its arrival whether it is in a snapshot, or lost by the clear. -/
def State.arrived (s : State) (c : Classed) : State :=
  match c.cls with
  | .partialControl => s.countPartial
  | _ => s

/-- R3, R6: once performed, an access is handed to its owner. A partial control write is handed to none. -/
def State.handOver (s : State) (c : Classed) : State :=
  match c.cls with
  | .control o => s.handControl o c.acc.data
  | .consumerIndex => s.consumerWrite c.acc.data
  | .snooped side _ => s.snooped side
  | .read | .guarded | .plain | .partialControl => s

/-- R11, R12: the controller's access takes the port, with the passed-over count given. -/
def State.grantController (s : State) (c : Classed) (count : Nat) : State :=
  { s with path := { s.path with waiting := none, passedOver := count, holder := some (.controller c) } }

/-- The controller's next access arrives from `line`, and waits for the port. A guarded write is done with at once (R7, R8). -/
def State.nextAccess : List BusAccess → State → State
  | [], s => { s with path := { s.path with line := [] } }
  | acc :: rest, s =>
    let c := s.classed acc
    match c.cls, acc with
    | .guarded, .write a _ _ => State.nextAccess rest (s.guardHit a)
    | _, _ =>
      let t := s.arrived c
      { t with path := { t.path with waiting := some c, line := rest } }

/-- Does an access of the controller hold the port? -/
def State.ownHolds (s : State) : Bool :=
  match s.path.holder with
  | some (.controller _) => true
  | _ => false

/-- R14: the controller has one access outstanding at a time. Its next one comes up when none waits for the port and none
holds it. -/
def State.bringAccess (s : State) : State :=
  if s.path.waiting.isSome || s.ownHolds then s else State.nextAccess s.path.line s

/-! ## The arbiter (R11, R12) -/

/-- R11, R12: the arbiter decides when the port is free and an access waits. -/
def State.arbitrate (s : State) : State :=
  if s.path.holder.isSome then s
  else
    match s.path.waiting, s.chosen with
    | none, none => s
    | none, some who => s.grant who
    | some c, none => s.grantController c 0
    | some c, some who =>
      if s.path.passedOver < 16 then s.grantController c (s.path.passedOver + 1) else s.grant who

/-- The port after what a step has done: the controller's next access has come up, the requesters' free places are filled
(R35), and the port is held or nothing waits for it. -/
def State.settle (s : State) : State := s.bringAccess.fill.arbitrate.fill

/-! ## Completions -/

/-- The word a GH412 access performs on memory, and what a read answers. -/
def State.performDma (s : State) (op : DmaOp) : State × Word :=
  match op with
  | .read a => (s, Memory.readWord s.mem a)
  | .write a d => ({ s with mem := Memory.writeWord s.mem a d allBytes }, 0)

/-- Is the access a read? -/
def DmaOp.isRead : DmaOp → Bool
  | .read _ => true
  | .write _ _ => false

/-- What a completed word brings to its work. -/
def State.completed (s : State) (h : Held) (v : Word) : State :=
  match h.purpose with
  | .status _ fin => if fin then s.deliver .cmdDone else s
  | .image | .dropped => s
  | .transfer => s.transferDone v
  | .rx => if h.op.isRead then s.rxRead v else s.rxWritten
  | .tx => if h.op.isRead then s.txRead v else s.txWritten
  | .cycle => if h.op.isRead then s.cycleRead v else s.cycleWritten
  | .log => s.logWordDone

/-- No access holds the port. -/
def State.release (s : State) : State := { s with path := { s.path with holder := none } }

/-- R11: the access holding the port completes. A controller access is performed and handed over to its owner (R1, R3,
R6). -/
def State.complete (s : State) : State :=
  match s.path.holder with
  | none => s
  | some (.controller c) => (s.release.perform c.acc).handOver c
  | some (.word h) =>
    let r := s.release.performDma h.op
    r.1.completed h r.2

/-- R11: the access holding the port completes and the arbiter decides again. -/
def State.portComplete (s : State) : State := s.complete.settle

/-- The port with a decision taken that is due: after a cold reset words wait at a free port. -/
def State.engaged (s : State) : State := if s.path.holder.isSome then s else s.settle

/-- Port accesses complete until the one that satisfies `p` has completed; none when the port falls free before. -/
def State.runPort (p : State → Held → Bool) : Nat → State → Option State
  | 0, _ => none
  | fuel + 1, s =>
    match s.path.holder with
    | none => none
    | some (.controller _) => State.runPort p fuel s.portComplete
    | some (.word h) => if p s h then some s.portComplete else State.runPort p fuel s.portComplete

/-- A row that is the completion of a port access `p`: the port works up to it. When there is no such access to come,
the row is passed over. -/
def State.awaitPort (s : State) (p : State → Held → Bool) : State :=
  match State.runPort p Config.portFuel s.engaged with
  | some t => t
  | none => s.engaged

/-! ## Rows of controller accesses -/

/-- Accesses of the controller that hold the port complete, one after another, until another has taken it. The fuel
counts them. -/
def State.serve : Nat → State → State
  | 0, s => s
  | fuel + 1, s =>
    match s.path.holder with
    | some (.controller _) => State.serve fuel s.portComplete
    | _ => s

/-- Accesses that the controller makes one after another, after those already on its bus. With the port free they complete
within the row, as long as the arbiter grants them one after another; an access that has to wait takes the port when it
is granted and holds it until it completes (assumption log 13). -/
def State.busAccesses (s : State) (accs : List BusAccess) : State :=
  let t := ({ s with path := { s.path with line := s.path.line ++ accs } }).settle
  if s.path.holder.isSome then t else t.serve (s.path.line.length + accs.length + 1)

/-- A controller access is put on the bus. -/
def State.busAccess (s : State) (acc : BusAccess) : State := s.busAccesses [acc]

end Sys2Proof.Machine
end

