-- ==== Sys2Proof/Machine/Resets.lean ====
section
/-! DEFINITION. The two resets: CTLRST (R15, R37, R78, R96, R111, R132, R152, R177, R179) and PORST (R16, R38, R57, R78,
R97, R112, R133, R153, R179). -/

namespace Sys2Proof.Machine

open Sys2Proof

/-! ## Controller reset -/

/-- R15: is a granted word's work kept through a controller reset? -/
def Purpose.kept : Purpose → Bool
  | .status _ _ | .log => true
  | _ => false

/-- R15: the access holding the port completes, whichever side it is of: a controller access is performed and handed over
(R3); what a GH412 word brings to work that the reset abandons is nothing. Accesses of the controller that wait are
abandoned; a partial control write among them was counted as it arrived and stays counted (DEDUCED, assumption log 22). -/
def State.resetPort (s : State) : State :=
  let t := (s.dropHeld (fun p => !p.kept)).complete
  { t with path := { t.path with waiting := none, line := [], passedOver := 0 } }

/-- R37: the hub state after a controller reset. -/
def HubState.afterReset : HubState → HubState
  | .unconfigured => .unconfigured
  | .loading .load => .unconfigured
  | .loading .adopt => .carrying
  | .inService => .carrying
  | .carrying => .carrying
  | .shuttingDown => .shuttingDown

/-- R15: does a waiting word of the command unit stay waiting through a controller reset? -/
def CmdWord.kept : CmdWord → Bool
  | .status _ => true
  | _ => false

/-- R37: the command unit's controller-reset values. A status or summary word that waits is kept (R15). -/
def CommandUnit.reset (c : CommandUnit) : CommandUnit :=
  { CommandUnit.cold with hub := c.hub, snapSec := c.snapSec, snapNs := c.snapNs, place := c.place.filter CmdWord.kept }

/-- R37: the tables are emptied when the reset ends a LOADING in LOAD mode. -/
def State.resetTables (s : State) : State := if s.cmd.hub = .loading .load then s.emptyTables else s

/-- R177: the alarm unit at a controller reset that leaves IN_SERVICE. -/
def State.resetLog (s : State) : State := if s.cmd.hub = .inService then s.alarmLeaves else s

/-- CTLRST. -/
def State.controllerResets (s : State) : State :=
  let s1 := s.resetPort.resetTables.resetLog
  let s2 := s1.ringReset
  let s3 := (s2.setCyc s2.cyc.idle).emptyZones
  let s4 := s3.setHub s3.cmd.hub.afterReset
  { s4 with cmd := s4.cmd.reset }

/-! ## Cold reset -/

/-- R16: memory as PORST leaves it. A word being written holds in each byte enabled its earlier content or the new one, a
free value (assumption log 11). -/
def State.tornMem (s : State) : Memory :=
  match s.path.holder with
  | some (.word ⟨_, _, .write a d⟩) => Memory.writeWord s.mem a d (Config.tornBytes s.draws)
  | some (.controller ⟨.write a d be, _⟩) => Memory.writeWord s.mem a d (be &&& Config.tornBytes s.draws)
  | _ => s.mem

/-- R78: a slot's entry after PORST: cold values with the pins sampled afresh; a card present starts the debounce. -/
def SlotEntry.coldWith (e : SlotEntry) : SlotEntry :=
  { SlotEntry.cold with pres := e.pres, latch := e.latch, pgood := e.pgood,
                        timer := if e.pres then some Config.debouncePeriods else none }

/-- R57: a lane port after PORST. A frame being sent is cut. -/
def State.coldLane (s : State) (i : Slot) (p : Plane) : LanePort :=
  let l := s.lane i p
  { LanePort.cold with lastOut := if l.tx = .none then l.lastOut else .cut (s.sentPart i p l.tx) }

/-- PORST. Shelf memory, the levels of the pins and the queue of commands and events are not the device's to reset. The accesses
of the controller that stand in its line, not yet on the bus, are dropped with the one that waits (DEDUCED, assumption log 23). -/
def State.coldResets (s : State) : State :=
  { State.reset with
    pending := s.pending
    mem := s.tornMem
    lanes := Vector.ofFn (fun i : Fin 12 => { a := s.coldLane i .a, b := s.coldLane i .b })
    sm := { SlotManager.cold with slots := s.sm.slots.map SlotEntry.coldWith }
    alarm := { AlarmUnit.cold with contacts := s.alarm.contacts }
    draws := s.draws + 1 }

end Sys2Proof.Machine
end

