-- ==== Sys2Proof/Machine/ControllerRows.lean ====
section
/-! DEFINITION. Meanings of the controller's bus accesses, of the control page words and of the two resets. A write is
classed by R2, whatever row it comes as. -/

namespace Sys2Proof.Machine

open Sys2Proof

/-- What a meaning answers. -/
abbrev Out := Host.Outcome State Fault Refusal

/-- A meaning's next state: the arbiter has taken every decision that was due (R11). -/
def settled (s : State) : Out := .next s.settle

/-- The address of a control page offset. -/
def pageAddr (o : Nat) : Addr := addrOf (Config.controlPage + o)

/-- A full write of a control page offset. -/
def pageWrite (o : Nat) (v : Word) : BusAccess := .write (pageAddr o) v allBytes

/-- CONTROLLER_READ (R1). -/
def execControllerRead (addr : Addr) (s : State) : Out := .next (s.busAccess (.read addr))

/-- PLAIN_WRITE (R2). -/
def execPlainWrite (addr : Addr) (data : Word) (be : ByteEnables) (s : State) : Out :=
  .next (s.busAccess (.write addr data be))

/-- PARTIAL_CONTROL_WRITE (R3). -/
def execPartialControlWrite (offset : BitVec 8) (data : Word) (be : ByteEnables) (s : State) : Out :=
  .next (s.busAccess (.write (pageAddr offset.toNat) data be))

/-- GUARDED_WRITE (R7, R8). -/
def execGuardedWrite (addr : Addr) (data : Word) (be : ByteEnables) (s : State) : Out :=
  .next (s.busAccess (.write addr data be))

/-- SNOOPED_RING_WRITE (R6, R102, R106, R107). -/
def execSnoopedRingWrite (addr : Addr) (data : Word) (be : ByteEnables) (s : State) : Out :=
  .next (s.busAccess (.write addr data be))

/-- PORT_ACCESS_COMPLETE (R11). With the port free nothing completes. -/
def execPortAccessComplete (s : State) : Out := .next s.engaged.portComplete

/-- PARAMETER_WRITE (R18, R19). -/
def execParameterWrite (k : Fin 14) (data : Word) (s : State) : Out := .next (s.busAccess (pageWrite (k.val + 1) data))

/-- ATTENTION_MASK_WRITE (R24). -/
def execAttentionMaskWrite (data : Word) (s : State) : Out := .next (s.busAccess (pageWrite 0x10 data))

/-- ATTENTION_ACKNOWLEDGE (R25). -/
def execAttentionAcknowledge (data : Word) (s : State) : Out := .next (s.busAccess (pageWrite 0x11 data))

/-- CONSUMER_INDEX_WRITE (R176). -/
def execConsumerIndexWrite (data : Word) (s : State) : Out := .next (s.busAccess (pageWrite 0x12 data))

/-- CONTROLLER_RESET (R37). -/
def execControllerReset (s : State) : Out := settled s.controllerResets

/-- COLD_RESET (R38). -/
def execColdReset (s : State) : Out := .next s.coldResets

end Sys2Proof.Machine
end

