-- ==== Sys2Proof/Machine/CommandRows.lean ====
section
/-! DEFINITION. Meanings of the commands: the full write of the command word, followed by the parameter writes that the
controller makes directly after it (R17 to R22). Each command's own effect is `State.runCommand`. -/

namespace Sys2Proof.Machine

open Sys2Proof

/-- A command word (12.2): bits 31:12 not read, parameter count, command code. -/
def commandWordOf (code : BitVec 8) (count : BitVec 4) (unread : BitVec 20) : Word := unread ++ count ++ code

/-- The parameter writes of offsets 01h on. -/
def parameterAccesses (params : List Word) : List BusAccess :=
  params.zipIdx.map (fun x => pageWrite (x.2 + 1) x.1)

/-- The command word and the parameters written after it. -/
def State.writeCommand (s : State) (code : BitVec 8) (count : BitVec 4) (unread : BitVec 20) (params : List Word) :
    State :=
  s.busAccesses (pageWrite 0 (commandWordOf code count unread) :: parameterAccesses params)

/-- UNKNOWN_COMMAND (R17). -/
def execUnknownCommand (code : BitVec 8) (count : BitVec 4) (unread : BitVec 20) (params : List Word) (s : State) : Out :=
  .next (s.writeCommand code count unread params)

/-- LOAD_SETUP (R28). -/
def execLoadSetup (count : BitVec 4) (unread : BitVec 20) (params : List Word) (s : State) : Out :=
  .next (s.writeCommand 0x01 count unread params)

/-- SHUTDOWN (R32). -/
def execShutdown (count : BitVec 4) (unread : BitVec 20) (params : List Word) (s : State) : Out :=
  .next (s.writeCommand 0x02 count unread params)

/-- COUNTER_SNAPSHOT (R36). -/
def execCounterSnapshot (count : BitVec 4) (unread : BitVec 20) (params : List Word) (s : State) : Out :=
  .next (s.writeCommand 0x03 count unread params)

/-- SET_DISCIPLINE (R130). -/
def execSetDiscipline (count : BitVec 4) (unread : BitVec 20) (params : List Word) (s : State) : Out :=
  .next (s.writeCommand 0x04 count unread params)

/-- SET_TIME (R116). -/
def execSetTime (count : BitVec 4) (unread : BitVec 20) (params : List Word) (s : State) : Out :=
  .next (s.writeCommand 0x05 count unread params)

/-- RING_START (R98). -/
def execRingStart (count : BitVec 4) (unread : BitVec 20) (params : List Word) (s : State) : Out :=
  .next (s.writeCommand 0x06 count unread params)

/-- RING_STOP (R99). -/
def execRingStop (count : BitVec 4) (unread : BitVec 20) (params : List Word) (s : State) : Out :=
  .next (s.writeCommand 0x07 count unread params)

/-- CYCLE_START (R135). -/
def execCycleStart (count : BitVec 4) (unread : BitVec 20) (params : List Word) (s : State) : Out :=
  .next (s.writeCommand 0x08 count unread params)

/-- CYCLE_STOP (R136). -/
def execCycleStop (count : BitVec 4) (unread : BitVec 20) (params : List Word) (s : State) : Out :=
  .next (s.writeCommand 0x09 count unread params)

/-- SLOT_RELEASE (R75). -/
def execSlotRelease (count : BitVec 4) (unread : BitVec 20) (params : List Word) (s : State) : Out :=
  .next (s.writeCommand 0x0A count unread params)

/-- SLOT_RETRY (R75). -/
def execSlotRetry (count : BitVec 4) (unread : BitVec 20) (params : List Word) (s : State) : Out :=
  .next (s.writeCommand 0x0B count unread params)

/-- SLOT_OVERRIDE (R75). -/
def execSlotOverride (count : BitVec 4) (unread : BitVec 20) (params : List Word) (s : State) : Out :=
  .next (s.writeCommand 0x0C count unread params)

/-- TABLE_UPDATE (R180). -/
def execTableUpdate (count : BitVec 4) (unread : BitVec 20) (params : List Word) (s : State) : Out :=
  .next (s.writeCommand 0x0D count unread params)

/-- ALARM_RESET (R171). -/
def execAlarmReset (count : BitVec 4) (unread : BitVec 20) (params : List Word) (s : State) : Out :=
  .next (s.writeCommand 0x0E count unread params)

end Sys2Proof.Machine
end

