-- ==== Sys2Proof/Machine/TransferRows.lean ====
section
/-! DEFINITION. Meanings of the rows that are ends of the command unit's transfers, and of the shutdown's completion.
Such a row is the completion of one particular port access: the port works up to it (`State.awaitPort`). -/

namespace Sys2Proof.Machine

open Sys2Proof

/-- Is the access a word of the transfer of the command executing? -/
def Held.isTransfer (h : Held) : Bool := h.purpose == .transfer

/-- The last word of the setup block. -/
def setupLast (s : State) (h : Held) : Bool :=
  h.isTransfer && (match s.cmd.transfer with | some (.setup _ got) => 12 ≤ got.length | _ => false)

/-- What a held read will answer. -/
def State.answer (s : State) (h : Held) : Word :=
  match h.op with | .read a => Memory.readWord s.mem a | .write _ _ => 0

/-- The word that ends the reading of the images: the last word of the last entry, or of the first invalid one. -/
def imagesLast (s : State) (h : Held) : Bool :=
  h.isTransfer &&
    (match s.cmd.transfer with
     | some (.images done got) =>
       match loadEntries[done.length]? with
       | some (t, i) =>
         let got1 := got ++ [s.answer h]
         t.cfgWords i ≤ got1.length && ((recordFail t i got1).isSome || loadEntries.length ≤ done.length + 1)
       | none => false
     | _ => false)

def writebackLast (s : State) (h : Held) : Bool :=
  h.isTransfer && (match s.cmd.transfer with | some (.writeback k) => writebackWords.length ≤ k + 1 | _ => false)

def writeoutLast (s : State) (h : Held) : Bool :=
  h.isTransfer && (match s.cmd.transfer with | some (.writeout k) => writeoutWords.length ≤ k + 1 | _ => false)

def snapshotLast (s : State) (h : Held) : Bool :=
  h.isTransfer && (match s.cmd.transfer with | some (.snapshot _ _ k) => 191 ≤ k | _ => false)

def stagingLast (s : State) (h : Held) : Bool :=
  h.isTransfer && (match s.cmd.transfer with | some (.staging t i _ got) => t.cfgWords i ≤ got.length + 1 | _ => false)

def rewriteLast (s : State) (h : Held) : Bool :=
  h.isTransfer && (match s.cmd.transfer with | some (.entryRewrite t _ k) => t.words ≤ k + 1 | _ => false)

def statusWordHeld (_ : State) (h : Held) : Bool := match h.purpose with | .status _ _ => true | _ => false
def imageWordHeld (_ : State) (h : Held) : Bool := h.purpose == .image

/-- SETUP_BLOCK_READ_DONE (R29). -/
def execSetupBlockReadDone (s : State) : Out := .next (s.awaitPort setupLast)

/-- LOAD_IMAGES_READ_DONE (R30). -/
def execLoadImagesReadDone (s : State) : Out := .next (s.awaitPort imagesLast)

/-- LOAD_WRITEBACK_DONE (R30). -/
def execLoadWritebackDone (s : State) : Out := .next (s.awaitPort writebackLast)

/-- ADOPT_WRITEOUT_DONE (R31). -/
def execAdoptWriteoutDone (s : State) : Out := .next (s.awaitPort writeoutLast)

/-- SHUTDOWN_COMPLETE (R33). -/
def execShutdownComplete (s : State) : Out := settled (if s.shutdownReady then s.completeShutdown else s)

/-- STATUS_REWRITE_DONE (R34). -/
def execStatusRewriteDone (s : State) : Out := .next (s.awaitPort statusWordHeld)

/-- COUNTER_SNAPSHOT_DONE (R36). -/
def execCounterSnapshotDone (s : State) : Out := .next (s.awaitPort snapshotLast)

/-- STAGING_RECORD_READ_DONE (R181). -/
def execStagingRecordReadDone (s : State) : Out := .next (s.awaitPort stagingLast)

/-- IMAGE_ENTRY_REWRITE_DONE (R184). -/
def execImageEntryRewriteDone (s : State) : Out := .next (s.awaitPort rewriteLast)

/-- IMAGE_WORD_REWRITE_DONE (R185). -/
def execImageWordRewriteDone (s : State) : Out := .next (s.awaitPort imageWordHeld)

end Sys2Proof.Machine
end

