-- ==== Sys2Proof/Machine/AlarmRows.lean ====
section
/-! DEFINITION. Meanings of the alarm unit's rows (chapter 10). -/

namespace Sys2Proof.Machine

open Sys2Proof

/-- R166: the scan timer expires; it runs on from its expiry. -/
def State.scanNow (s : State) : State :=
  let t := s.scan
  { t with alarm := { t.alarm with scanAt := t.alarm.scanAt + Config.scanPeriods } }

/-- ALARM_SCAN (R166). -/
def execAlarmScan (s : State) : Out := settled ((s.advanceTo s.alarm.scanAt).scanNow)

/-- The fourth word of the head log entry (R175). -/
def logLast (s : State) (h : Held) : Bool := h.purpose == .log && 3 ≤ s.alarm.headDone

/-- LOG_ENTRY_WRITTEN (R175). -/
def execLogEntryWritten (s : State) : Out := .next (s.awaitPort logLast)

/-- CONTACT_LEVEL_CHANGE (R167): the level as last sampled; nothing acts on it before the next scan. -/
def execContactLevelChange (input : Fin 8) (closed : Bool) (s : State) : Out :=
  settled { s with alarm := { s.alarm with contacts := vset s.alarm.contacts input closed } }

end Sys2Proof.Machine
end

