-- ==== Sys2Proof/Machine/CycleRows.lean ====
section
/-! DEFINITION. Meanings of the cycle engine's rows (chapter 8). -/

namespace Sys2Proof.Machine

open Sys2Proof

/-- The fourth word of an entry (R138). -/
def fetchLast (s : State) (h : Held) : Bool :=
  h.purpose == .cycle && (match s.cyc.entry with | some ⟨_, .fetch got⟩ => 3 ≤ got.length | _ => false)

/-- Result word 4 (R139). -/
def writeBackLast (s : State) (h : Held) : Bool :=
  h.purpose == .cycle && (match s.cyc.entry with | some ⟨_, .writeBack _ b⟩ => 3 ≤ b.n | _ => false)

/-- CYCLE_ENTRY_FETCH_DONE (R138). -/
def execCycleEntryFetchDone (s : State) : Out := .next (s.awaitPort fetchLast)

/-- R143: the instant at which a WAIT_GAP ends. -/
def State.gapExpiry (s : State) : Option Nat :=
  match s.cyc.entry with
  | some ⟨_, .run _ (.gap t)⟩ => some t
  | _ => none

/-- WAIT_GAP_EXPIRY (R143). -/
def execWaitGapExpiry (s : State) : Out :=
  settled (match s.gapExpiry with | some t => (s.advanceTo t).endWait .elapsed | none => s)

/-- WAIT_BOUNDARY_REACHED (R144): the oscillator runs up to the period in which ns reaches the target. -/
def execWaitBoundaryReached (s : State) : Out :=
  settled (match s.boundaryLeft with | some d => s.advance (s.time.periodsToGain d) | none => s)

/-- R146: the instant at which the response timeout of the attempt in progress expires. -/
def State.pollExpiry (s : State) : Option Nat :=
  match s.pollRun with
  | some (_, _, w) => w.cur.bind (·.timeout)
  | none => none

/-- POLL_RESPONSE_TIMEOUT (R146). -/
def execPollResponseTimeout (s : State) : Out :=
  settled (match s.pollExpiry with | some t => (s.advanceTo t).pollTimeout | none => s)

/-- CYCLE_WRITE_BACK_DONE (R139). -/
def execCycleWriteBackDone (s : State) : Out := .next (s.awaitPort writeBackLast)

end Sys2Proof.Machine
end

