-- ==== Sys2Proof/Machine/LaneRows.lean ====
section
/-! DEFINITION. Meanings of the lane events (chapter 3). -/

namespace Sys2Proof.Machine

open Sys2Proof

/-- TRAINING_COMPLETE (R40). -/
def execTrainingComplete (slot : Slot) (plane : Plane) (s : State) : Out := settled (s.laneTrained slot plane)

/-- LOSS_OF_SIGNAL (R40, R41). -/
def execLossOfSignal (slot : Slot) (plane : Plane) (s : State) : Out := settled (s.laneLost slot plane)

/-- FRAME_START_RECEIVED (R44). -/
def execFrameStartReceived (slot : Slot) (plane : Plane) (bytes : List Byte) (s : State) : Out :=
  settled (s.frameStart slot plane bytes)

/-- FRAME_END_RECEIVED (R45 to R48). -/
def execFrameEndReceived (slot : Slot) (plane : Plane) (bytes : List Byte) (s : State) : Out :=
  settled (s.frameEnd slot plane bytes)

/-- FRAME_TRANSMIT_END (R51). -/
def execFrameTransmitEnd (slot : Slot) (plane : Plane) (s : State) : Out := settled (s.transmitEnd slot plane)

end Sys2Proof.Machine
end

