-- ==== Sys2Proof/Machine/RingRows.lean ====
section
/-! DEFINITION. Meanings of the ring engine's rows (chapter 6). The rows that end a piece of DMA work are completions of
one particular port access (`State.awaitPort`). -/

namespace Sys2Proof.Machine

open Sys2Proof

/-- The phase of the receive movement, when the access is one of its words. -/
def rxPhaseOf (s : State) (h : Held) : Option (RxMove × RxPhase) :=
  if h.purpose = .rx then s.ring.rx.map (fun m => (m, m.phase)) else none

/-- The phase of the transmit movement, when the access is one of its words. -/
def txPhaseOf (s : State) (h : Held) : Option (TxMove × TxPhase) :=
  if h.purpose = .tx then s.ring.tx.map (fun m => (m, m.phase)) else none

/-- The word with which a look-ahead walk ends (R101). -/
def walkLast (s : State) (h : Held) : Bool :=
  match rxPhaseOf s h with
  | some (_, .looking _ false) => !descOwned (s.answer h)
  | some (m, .looking ds true) =>
    let n := descSize (s.answer h)
    !bufferSizeOk n || m.len ≤ (ds.map (·.size)).sum + n || s.ring.par.rxSize ≤ ds.length + 1
  | _ => false

/-- The last payload word of a placement (R103). -/
def placeLast (s : State) (h : Held) : Bool :=
  match rxPhaseOf s h with
  | some (m, .placing ds d (some _) w) => wordsFor (storedIn ds m.len d) ≤ w + 1 && ds.length ≤ d + 1
  | some (m, .placing ds d none _) => storedIn ds m.len d = 0
  | _ => false

/-- The first descriptor's owner word (R104). -/
def rxReturnLast (s : State) (h : Held) : Bool :=
  match rxPhaseOf s h with
  | some (_, .returning ds n) => 2 * ds.length ≤ n + 1
  | _ => false

/-- The word that ends the miss marker (R105). -/
def markLast (s : State) (h : Held) : Bool :=
  match rxPhaseOf s h with
  | some (_, .marking n) => if h.op.isRead then !descOwned (s.answer h) else 2 ≤ n
  | _ => false

/-- The owner word of an examination (R106). -/
def examLast (s : State) (h : Held) : Bool := h.purpose == .tx && s.ring.tx.isNone && s.ring.exam.isSome

/-- The word with which a chain's end is found, or the ring is exhausted (R107). -/
def chainLast (s : State) (h : Held) : Bool :=
  match txPhaseOf s h with
  | some (m, .fetching (.size o _)) => descEnd o || s.ring.par.txSize ≤ m.descs.length + 1
  | _ => false

/-- The last payload word of a load (R109). -/
def loadLast (s : State) (h : Held) : Bool :=
  match txPhaseOf s h with
  | some (m, .loading _ _ d w _) => m.descs.length ≤ (loadPoint m.descs d (w + 1)).1
  | _ => false

/-- The first descriptor's owner word of a chain (R109). -/
def txReturnLast (s : State) (h : Held) : Bool :=
  match txPhaseOf s h with
  | some (m, .returning _ n) => m.descs.length ≤ n + 1
  | _ => false

/-- HELD_FRAME_REOFFER (R88). -/
def execHeldFrameReoffer (s : State) : Out := settled s.txReoffer

/-- RX_MOVEMENT_START (R100). -/
def execRxMovementStart (s : State) : Out := settled (if s.rxMayStart then s.rxStart else s)

/-- RX_WALK_END (R101, R102). -/
def execRxWalkEnd (s : State) : Out := .next (s.awaitPort walkLast)

/-- R102: the receive hold timer. -/
def State.onHold (s : State) : State :=
  match s.ring.rx with
  | some m => match m.hold with | some t => (s.advanceTo t).rxHoldEnds | none => s
  | none => s

/-- RX_HOLD_EXPIRY (R102, R105). -/
def execRxHoldExpiry (s : State) : Out := settled s.onHold

/-- RX_PLACEMENT_DONE (R103). -/
def execRxPlacementDone (s : State) : Out := .next (s.awaitPort placeLast)

/-- RX_FRAME_DELIVERED (R104). -/
def execRxFrameDelivered (s : State) : Out := .next (s.awaitPort rxReturnLast)

/-- RX_MISS_MARKER_DONE (R105). -/
def execRxMissMarkerDone (s : State) : Out := .next (s.awaitPort markLast)

/-- TX_EXAMINE_DONE (R106). -/
def execTxExamineDone (s : State) : Out := .next (s.awaitPort examLast)

/-- TX_CHAIN_JUDGE (R108). -/
def execTxChainJudge (s : State) : Out := .next (s.awaitPort chainLast)

/-- TX_LOAD_COMPLETE (R109). -/
def execTxLoadComplete (s : State) : Out := .next (s.awaitPort loadLast)

/-- TX_RETURN_DONE (R109). -/
def execTxReturnDone (s : State) : Out := .next (s.awaitPort txReturnLast)

/-- RING_HALT_COMPLETE (R99). -/
def execRingHaltComplete (s : State) : Out :=
  settled (if s.ringHaltDone then s.ringStopped.finishIf .ringStop else s)

end Sys2Proof.Machine
end

