-- ==== Sys2Proof/Machine/SlotRows.lean ====
section
/-! DEFINITION. Meanings of the hot-swap pin events and of the slot timers (chapter 4). -/

namespace Sys2Proof.Machine

open Sys2Proof

/-- R59: the expiry of a slot timer that belongs to state `st`. The oscillator reaches the expiry first; a timer that
does not run is passed over. -/
def State.onSlotTimer (s : State) (i : Slot) (st : SlotState) (f : State → State) : State :=
  match (s.slot i).timer with
  | some t => if (s.slot i).state = st then f (s.advanceTo t) else s
  | none => s

/-- PRESENCE_ARRIVAL (R61). -/
def execPresenceArrival (slot : Slot) (s : State) : Out := settled (s.presenceOn slot)

/-- PRESENCE_LOSS (R61). -/
def execPresenceLoss (slot : Slot) (s : State) : Out := settled (s.presenceOff slot)

/-- PRESENCE_DEBOUNCE_EXPIRY (R61). -/
def execPresenceDebounceExpiry (slot : Slot) (s : State) : Out :=
  settled (s.onSlotTimer slot .empty (·.debounceDone slot))

/-- LATCH_CLOSED (R62, R72). -/
def execLatchClosed (slot : Slot) (s : State) : Out := settled (s.latchOn slot)

/-- LATCH_OPENED (R72). -/
def execLatchOpened (slot : Slot) (s : State) : Out := settled (s.latchOff slot)

/-- POWER_GOOD_ARRIVAL (R63). -/
def execPowerGoodArrival (slot : Slot) (s : State) : Out := settled (s.powerGoodOn slot)

/-- POWER_GOOD_LOSS (R64, R65, R68, R71). -/
def execPowerGoodLoss (slot : Slot) (s : State) : Out := settled (s.powerGoodOff slot)

/-- POWER_GOOD_WAIT_EXPIRY (R63). -/
def execPowerGoodWaitExpiry (slot : Slot) (s : State) : Out :=
  settled (s.onSlotTimer slot .powering (·.enterFaulted slot .power))

/-- TRAINING_TIMER_EXPIRY (R64). -/
def execTrainingTimerExpiry (slot : Slot) (s : State) : Out :=
  settled (s.onSlotTimer slot .training (·.enterFaulted slot .link))

/-- IDENT_WAIT_EXPIRY (R65). -/
def execIdentWaitExpiry (slot : Slot) (s : State) : Out :=
  settled (s.onSlotTimer slot .identifying (·.identExpired slot))

/-- DRAIN_TIMER_EXPIRY (R71). -/
def execDrainTimerExpiry (slot : Slot) (s : State) : Out :=
  settled (s.onSlotTimer slot .draining (·.endDrain slot))

/-- BACKOFF_EXPIRY (R73). -/
def execBackoffExpiry (slot : Slot) (s : State) : Out :=
  settled (s.onSlotTimer slot .faulted (·.backoffDone slot))

/-- DRAIN_END (R71). -/
def execDrainEnd (slot : Slot) (s : State) : Out :=
  settled (if (s.slot slot).state = .draining && s.queuesEmpty slot then s.endDrain slot else s)

end Sys2Proof.Machine
end

