-- ==== Sys2Proof/Machine/TimeRows.lean ====
section
/-! DEFINITION. Meanings of the time base's rows (chapter 7) and of the oscillator. -/

namespace Sys2Proof.Machine

open Sys2Proof

/-- ROLLOVER (R115): the oscillator runs up to the next second boundary. -/
def execRollover (s : State) : Out :=
  settled (s.advance (s.time.periodsToGain ((Config.second : Int) - s.time.ns)))

/-- R115: the PPS_OUT pulse ends at its instant, unless a rollover has restarted it. -/
def State.ppsOutEnds (s : State) : State :=
  match s.time.ppsOut with
  | some t => if t ≤ s.osc then { s with time := { s.time with ppsOut := none } } else s
  | none => s

/-- PPS_OUT_PULSE_END (R115). -/
def execPpsOutPulseEnd (s : State) : Out :=
  settled (match s.time.ppsOut with | some t => (s.advanceTo t).ppsOutEnds | none => s)

/-- PPS_IN_EDGE (R119, R123). -/
def execPpsInEdge (s : State) : Out := settled s.ppsEdge

/-- R120: the watch of an entry expires. -/
def State.watchEnds (s : State) (k : Fin 4) : State := s.putTime (s.time.rejudge (s.time.watchExpire k))

/-- REFERENCE_WATCH_EXPIRY (R120). -/
def execReferenceWatchExpiry (entry : Fin 4) (s : State) : Out :=
  settled (match (s.ref entry).watch with | some t => (s.advanceTo t).watchEnds entry | none => s)

/-- OSCILLATOR_PERIOD (R114). -/
def execOscillatorPeriod (periods : Nat) (s : State) : Out := settled (s.advance periods)

end Sys2Proof.Machine
end

