-- ==== Sys2Proof/Machine/Dispatch.lean ====
section
/-! DEFINITION. The meaning of every row of spec/opcode_table.json: one arm for each constructor of `Instr`. -/

namespace Sys2Proof.Machine

open Sys2Proof

def exec (i : Instr) (s : State) : Host.Outcome State Fault Refusal :=
  match i with
  -- controller accesses and control page words
  | .controllerRead addr => Sys2Proof.Machine.execControllerRead addr s
  | .plainWrite addr data be => Sys2Proof.Machine.execPlainWrite addr data be s
  | .partialControlWrite offset data be => Sys2Proof.Machine.execPartialControlWrite offset data be s
  | .guardedWrite addr data be => Sys2Proof.Machine.execGuardedWrite addr data be s
  | .snoopedRingWrite addr data be => Sys2Proof.Machine.execSnoopedRingWrite addr data be s
  | .portAccessComplete => Sys2Proof.Machine.execPortAccessComplete s
  | .parameterWrite k data => Sys2Proof.Machine.execParameterWrite k data s
  | .attentionMaskWrite data => Sys2Proof.Machine.execAttentionMaskWrite data s
  | .attentionAcknowledge data => Sys2Proof.Machine.execAttentionAcknowledge data s
  | .consumerIndexWrite data => Sys2Proof.Machine.execConsumerIndexWrite data s
  -- commands
  | .unknownCommand code count unread params => Sys2Proof.Machine.execUnknownCommand code count unread params s
  | .loadSetup count unread params => Sys2Proof.Machine.execLoadSetup count unread params s
  | .shutdown count unread params => Sys2Proof.Machine.execShutdown count unread params s
  | .counterSnapshot count unread params => Sys2Proof.Machine.execCounterSnapshot count unread params s
  | .setDiscipline count unread params => Sys2Proof.Machine.execSetDiscipline count unread params s
  | .setTime count unread params => Sys2Proof.Machine.execSetTime count unread params s
  | .ringStart count unread params => Sys2Proof.Machine.execRingStart count unread params s
  | .ringStop count unread params => Sys2Proof.Machine.execRingStop count unread params s
  | .cycleStart count unread params => Sys2Proof.Machine.execCycleStart count unread params s
  | .cycleStop count unread params => Sys2Proof.Machine.execCycleStop count unread params s
  | .slotRelease count unread params => Sys2Proof.Machine.execSlotRelease count unread params s
  | .slotRetry count unread params => Sys2Proof.Machine.execSlotRetry count unread params s
  | .slotOverride count unread params => Sys2Proof.Machine.execSlotOverride count unread params s
  | .tableUpdate count unread params => Sys2Proof.Machine.execTableUpdate count unread params s
  | .alarmReset count unread params => Sys2Proof.Machine.execAlarmReset count unread params s
  -- ends of the command unit's transfers
  | .setupBlockReadDone => Sys2Proof.Machine.execSetupBlockReadDone s
  | .loadImagesReadDone => Sys2Proof.Machine.execLoadImagesReadDone s
  | .loadWritebackDone => Sys2Proof.Machine.execLoadWritebackDone s
  | .adoptWriteoutDone => Sys2Proof.Machine.execAdoptWriteoutDone s
  | .shutdownComplete => Sys2Proof.Machine.execShutdownComplete s
  | .statusRewriteDone => Sys2Proof.Machine.execStatusRewriteDone s
  | .counterSnapshotDone => Sys2Proof.Machine.execCounterSnapshotDone s
  | .stagingRecordReadDone => Sys2Proof.Machine.execStagingRecordReadDone s
  | .imageEntryRewriteDone => Sys2Proof.Machine.execImageEntryRewriteDone s
  | .imageWordRewriteDone => Sys2Proof.Machine.execImageWordRewriteDone s
  -- resets
  | .controllerReset => Sys2Proof.Machine.execControllerReset s
  | .coldReset => Sys2Proof.Machine.execColdReset s
  -- lanes
  | .trainingComplete slot plane => Sys2Proof.Machine.execTrainingComplete slot plane s
  | .lossOfSignal slot plane => Sys2Proof.Machine.execLossOfSignal slot plane s
  | .frameStartReceived slot plane bytes => Sys2Proof.Machine.execFrameStartReceived slot plane bytes s
  | .frameEndReceived slot plane bytes => Sys2Proof.Machine.execFrameEndReceived slot plane bytes s
  | .frameTransmitEnd slot plane => Sys2Proof.Machine.execFrameTransmitEnd slot plane s
  -- slot pins and slot timers
  | .presenceArrival slot => Sys2Proof.Machine.execPresenceArrival slot s
  | .presenceLoss slot => Sys2Proof.Machine.execPresenceLoss slot s
  | .presenceDebounceExpiry slot => Sys2Proof.Machine.execPresenceDebounceExpiry slot s
  | .latchClosed slot => Sys2Proof.Machine.execLatchClosed slot s
  | .latchOpened slot => Sys2Proof.Machine.execLatchOpened slot s
  | .powerGoodArrival slot => Sys2Proof.Machine.execPowerGoodArrival slot s
  | .powerGoodLoss slot => Sys2Proof.Machine.execPowerGoodLoss slot s
  | .powerGoodWaitExpiry slot => Sys2Proof.Machine.execPowerGoodWaitExpiry slot s
  | .trainingTimerExpiry slot => Sys2Proof.Machine.execTrainingTimerExpiry slot s
  | .identWaitExpiry slot => Sys2Proof.Machine.execIdentWaitExpiry slot s
  | .drainTimerExpiry slot => Sys2Proof.Machine.execDrainTimerExpiry slot s
  | .backoffExpiry slot => Sys2Proof.Machine.execBackoffExpiry slot s
  | .drainEnd slot => Sys2Proof.Machine.execDrainEnd slot s
  -- controller rings
  | .heldFrameReoffer => Sys2Proof.Machine.execHeldFrameReoffer s
  | .rxMovementStart => Sys2Proof.Machine.execRxMovementStart s
  | .rxWalkEnd => Sys2Proof.Machine.execRxWalkEnd s
  | .rxHoldExpiry => Sys2Proof.Machine.execRxHoldExpiry s
  | .rxPlacementDone => Sys2Proof.Machine.execRxPlacementDone s
  | .rxFrameDelivered => Sys2Proof.Machine.execRxFrameDelivered s
  | .rxMissMarkerDone => Sys2Proof.Machine.execRxMissMarkerDone s
  | .txExamineDone => Sys2Proof.Machine.execTxExamineDone s
  | .txChainJudge => Sys2Proof.Machine.execTxChainJudge s
  | .txLoadComplete => Sys2Proof.Machine.execTxLoadComplete s
  | .txReturnDone => Sys2Proof.Machine.execTxReturnDone s
  | .ringHaltComplete => Sys2Proof.Machine.execRingHaltComplete s
  -- time base
  | .rollover => Sys2Proof.Machine.execRollover s
  | .ppsOutPulseEnd => Sys2Proof.Machine.execPpsOutPulseEnd s
  | .ppsInEdge => Sys2Proof.Machine.execPpsInEdge s
  | .referenceWatchExpiry entry => Sys2Proof.Machine.execReferenceWatchExpiry entry s
  -- cycle engine
  | .cycleEntryFetchDone => Sys2Proof.Machine.execCycleEntryFetchDone s
  | .waitGapExpiry => Sys2Proof.Machine.execWaitGapExpiry s
  | .waitBoundaryReached => Sys2Proof.Machine.execWaitBoundaryReached s
  | .pollResponseTimeout => Sys2Proof.Machine.execPollResponseTimeout s
  | .cycleWriteBackDone => Sys2Proof.Machine.execCycleWriteBackDone s
  -- alarm unit
  | .alarmScan => Sys2Proof.Machine.execAlarmScan s
  | .logEntryWritten => Sys2Proof.Machine.execLogEntryWritten s
  -- oscillator and contacts
  | .oscillatorPeriod periods => Sys2Proof.Machine.execOscillatorPeriod periods s
  | .contactLevelChange input closed => Sys2Proof.Machine.execContactLevelChange input closed s

end Sys2Proof.Machine
end

