-- ==== Sys2Proof/Machine/Step.lean ====
section
/-! DEFINITION. One step of the GH412: the command or event at the front of the queue is taken. -/

namespace Sys2Proof.Machine

open Sys2Proof

/-- One step: the command at the front of the queue on the state with the queue's rest. On an empty queue the block
idles (assumption log 6). -/
def step (s : State) : Host.Outcome State Fault Refusal :=
  match s.pending with
  | [] => .next s
  | c :: rest => exec c { s with pending := rest }

/-- The command that a word spells put at the front of the queue; the state unchanged where the word spells none. -/
def State.withFetchWord (s : State) (nbits w : Nat) : State :=
  match decodeTableWord nbits w with
  | some c => { s with pending := c :: s.pending }
  | none => s

end Sys2Proof.Machine
end

