-- ==== Sys2Proof/Safety.lean ====
section
/-! DEFINITION. What statements about the GH412 are said in terms of: the controller's side of the machine, a quiet bus,
and the state apart from the port's own bookkeeping. -/

namespace Sys2Proof.Machine

open Sys2Proof

/-- What the blocks' own work never touches: shelf memory, the queue of commands and events, the accesses that the
controller has put on its bus with the word last returned, whether the port is held, and the arbiter's count and its
memory of the last requester served. -/
def State.outside (s : State) :
    Memory × List Instr × Option Classed × List BusAccess × Word × Bool × Nat × Requester :=
  (s.mem, s.pending, s.path.waiting, s.path.line, s.path.cdata, s.path.holder.isSome, s.path.passedOver,
    s.path.lastServed)

/-- No access of the controller waits for the port (CWAIT is low) or is still to be made. -/
def State.busQuiet (s : State) : Prop := s.path.waiting = none ∧ s.path.line = []

/-- The port is free for the controller: no access holds it, none of the controller waits, and fewer than sixteen
decisions in a row have passed a GH412 requester over (R12). -/
def State.portFree (s : State) : Prop := s.busQuiet ∧ s.path.holder = none ∧ s.path.passedOver < 16

/-- The state apart from the bookkeeping of the arbiter (its holder, its counts, the words that wait) and of the words
still to be rewritten: what a decision of the arbiter that serves no controller access leaves alone. -/
def State.apart (s : State) : State :=
  { s with
    path := { s.path with holder := none, passedOver := 0, lastServed := .alarm }
    cmd := { s.cmd with rewrite := [], images := [], place := none, lastSource := .transfer, doneOwed := false }
    ring := { s.ring with place := none, lastSide := .tx } }

/-- Is there work for the port: an access of the controller, a status or image word to rewrite, a word of a transfer, of a
ring movement, of a cycle entry or of a log entry? -/
def State.portWork (s : State) : Bool :=
  s.path.waiting.isSome || !s.path.line.isEmpty
    || (s.supply .status).isSome || (s.supply .image).isSome || (s.supply .transfer).isSome
    || (s.ringWord .rx).isSome || (s.ringWord .tx).isSome || s.cycleWord.isSome || s.alarmWord.isSome

/-- The transfer of the command executing is the only work for the port: no access of the controller, no status or image word
to rewrite, no word of a ring movement, of a cycle entry or of a log entry. -/
def State.onlyTransfers (s : State) : Prop :=
  s.busQuiet ∧ s.cmd.rewrite = [] ∧ s.cmd.images = [] ∧ s.cmd.place = none ∧ s.ring.place = none ∧
    (∀ x, s.ringWord x = none) ∧ s.cycleWord = none ∧ s.alarmWord = none

/-! ## Commands -/

/-- The command status record when a command has been opened (R17). -/
def CmdRecord.opened (r : CmdRecord) : CmdRecord := { r with accepted := (r.accepted + 1) % 65536 }

/-- The command status record when the command opened last has finished (R22). -/
def CmdRecord.finished (r : CmdRecord) (c : Command) (res : CmdResult) (item : Nat) (clamped : Bool) : CmdRecord :=
  { r with done := r.accepted, lastCode := c.code, result := res, fail := ⟨item, 0⟩, clamped := clamped }

/-- Shelf memory after the full writes of a command word and of the parameters that follow it (R3). -/
def commandMem (m : Memory) (code : BitVec 8) (count : BitVec 4) (unread : BitVec 20) (params : List Word) : Memory :=
  params.zipIdx.foldl (fun m x => Memory.writeWord m (pageAddr (x.2 + 1)) x.1 allBytes)
    (Memory.writeWord m (pageAddr 0) (commandWordOf code count unread) allBytes)

/-- The command unit takes a new command, and the port is free for its words: the collection state is IDLE, no transfer
is in progress, the hub refuses no command word (R21), and the arbiter passes nothing over (R12). -/
def State.takesCommand (s : State) : Prop :=
  s.portFree ∧ s.path.passedOver = 0 ∧ s.cmd.collection = .idle ∧ s.cmd.transfer = none ∧ s.cmd.hub.refusesAll = false

/-- The state when a command has finished: memory and the command status record as given. -/
def State.afterCommand (s : State) (m : Memory) (r : CmdRecord) : State :=
  { s with mem := m, cmd := { s.cmd with record := r } }

/-- R130: the discipline parameters after a SET_DISCIPLINE that carries the parameters given: each carried one is replaced,
clamped to its range, and the others stay. -/
def Discipline.replaced (d : Discipline) (ps : List Word) : Discipline :=
  let p (k old lo hi : Nat) : Nat := if k < ps.length then max lo (min hi (ps.getD k 0).toNat) else old
  { kp := p 0 d.kp 0 15, ki := p 1 d.ki 0 15, stepLimit := p 2 d.stepLimit 1000 10000000
    lockWindow := p 3 d.lockWindow 10 10000, lockCount := p 4 d.lockCount 2 255
    holdoverLimit := p 5 d.holdoverLimit 60 86400 }

/-- R130: was one of the parameters carried clamped? -/
def disciplineClamped (ps : List Word) : Bool :=
  let out (k lo hi : Nat) : Bool := k < ps.length && ((ps.getD k 0).toNat < lo || hi < (ps.getD k 0).toNat)
  out 0 0 15 || out 1 0 15 || out 2 1000 10000000 || out 3 10 10000 || out 4 2 255 || out 5 60 86400

/-- The code, count, unread bits and parameters of a command row. -/
def commandOf : Instr → Option (BitVec 8 × BitVec 4 × BitVec 20 × List Word)
  | .unknownCommand code n u ps => some (code, n, u, ps)
  | .loadSetup n u ps => some (0x01, n, u, ps)
  | .shutdown n u ps => some (0x02, n, u, ps)
  | .counterSnapshot n u ps => some (0x03, n, u, ps)
  | .setDiscipline n u ps => some (0x04, n, u, ps)
  | .setTime n u ps => some (0x05, n, u, ps)
  | .ringStart n u ps => some (0x06, n, u, ps)
  | .ringStop n u ps => some (0x07, n, u, ps)
  | .cycleStart n u ps => some (0x08, n, u, ps)
  | .cycleStop n u ps => some (0x09, n, u, ps)
  | .slotRelease n u ps => some (0x0A, n, u, ps)
  | .slotRetry n u ps => some (0x0B, n, u, ps)
  | .slotOverride n u ps => some (0x0C, n, u, ps)
  | .tableUpdate n u ps => some (0x0D, n, u, ps)
  | .alarmReset n u ps => some (0x0E, n, u, ps)
  | _ => none

/-- The state when a command has been opened and is executing: memory as given, `c` with its parameters executing. -/
def State.executing (s : State) (m : Memory) (c : Command) (params : List Word) : State :=
  { s with mem := m, cmd := { s.cmd with record := s.cmd.record.opened
                                         collection := .executing ⟨c, params.length, params⟩ } }

/-- Rows that wait for the end of one port access (`State.awaitPort`): the port works up to it, one completion after
another. -/
def rowAwaits : Instr → Bool
  | .setupBlockReadDone | .loadImagesReadDone | .loadWritebackDone | .adoptWriteoutDone | .statusRewriteDone
  | .counterSnapshotDone | .stagingRecordReadDone | .imageEntryRewriteDone | .imageWordRewriteDone | .rxWalkEnd
  | .rxPlacementDone | .rxFrameDelivered | .rxMissMarkerDone | .txExamineDone | .txChainJudge | .txLoadComplete
  | .txReturnDone | .cycleEntryFetchDone | .cycleWriteBackDone | .logEntryWritten => true
  | _ => false

/-! ## Causes and slots -/

/-- The attention pending set after the causes of a set have been delivered (R23). -/
def State.withCauses (s : State) (causes : BitVec 12) : State :=
  { s with cmd := { s.cmd with pending := s.cmd.pending ||| (causes &&& s.cmd.mask) } }

/-- A slot's entry replaced, with SLOT_CHANGE delivered (R77). -/
def State.slotBecomes (s : State) (i : Slot) (e : SlotEntry) : State := (s.setSlot i e).withCauses 0x200

/-- Both lanes of the slot are out of UP, and neither delay is valid: as in every state without lanes. -/
def State.slotDark (s : State) (i : Slot) : Prop :=
  (∀ p, (s.lane i p).state ≠ .up) ∧ (s.slot i).delayA.valid = false ∧ (s.slot i).delayB.valid = false

/-- A change of the slot's state finds nothing else to act on: no frame waits for its lanes or in its queues, no cycle
entry and no transmit movement is in progress, no reference entry and no card alarm point names it. -/
def State.slotStill (s : State) (i : Slot) : Prop :=
  (∀ p, (s.lane i p).queue = []) ∧ (∀ c, s.sw.queue i c = EgressQueue.nil) ∧ s.cyc.entry = none ∧ s.ring.tx = none ∧
    (∀ k, (s.ref k).names i = false) ∧
    (∀ k, ((s.point k).cfg.kind.isCard && (s.point k).cfg.which == i.val + 1) = false)

/-- R45, checks 1 to 3: the frame is whole, of an allowed length, and names its slot as its source. -/
def State.frameFits (s : State) (i : Slot) (g : Staging) : Prop :=
  12 ≤ g.count ∧ g.count = 12 + hdrLength g.kept ∧ g.tail = checkBytes (~~~ g.check) ∧ hdrLength g.kept ≤ 2040 ∧
    (∀ d, (s.slot i).card = some d → hdrLength g.kept ≤ d.maxPayload) ∧ hdrSource g.kept = i.val + 1

/-- The lane ports of a slot after their enable has gone off, none of them having been UP (R39). -/
def Lanes.disabled (l : Lanes) : Lanes :=
  { a := { l.a with enable := false, state := .off }, b := { l.b with enable := false, state := .off } }

/-- The lane ports of a slot after their enable has come on (R39). -/
def Lanes.enabled (l : Lanes) : Lanes :=
  { a := { l.a with enable := true, state := .training }, b := { l.b with enable := true, state := .training } }

/-- The switch core after the head of queue 0 has left with the ring engine's claim, its last (R85): its blocks are free,
and port 0 counts it. -/
def SwitchCore.headGone (w : SwitchCore) (id blocks : Nat) (count : PortCounters → PortCounters) : SwitchCore :=
  { w with free := w.free + blocks, stored := w.stored.filter (·.id ≠ id)
           queue0 := { w.queue0 with frames := w.queue0.frames.filter (· ≠ id) }
           counters := vset w.counters 0 (count (vget w.counters 0)) }

/-- The relays as the points stand, in a hub state that may energise them (R178). -/
def AlarmUnit.judged (a : AlarmUnit) (on : Bool) : AlarmUnit :=
  { a with major := on && !a.anyRaised [.critical, .major], minor := on && !a.anyRaised [.minor] }

/-! ## Ranges -/

/-- 7.1, R114: ns is below one second, the residue below its unit, the trim and the integral within their bounds; the
seconds and a waiting SET_TIME value are 32-bit numbers, and the adjustment mark a 16-bit one. -/
def TimeBase.inRange (t : TimeBase) : Prop :=
  t.ns < Config.second ∧ t.residue.natAbs < 1000000000 ∧ t.trim.natAbs ≤ 50000 ∧ t.integral.natAbs ≤ 8000000 ∧
    t.sec < 2 ^ 32 ∧ t.mark < 65536 ∧ ∀ v, t.pendingSet = some v → v < 2 ^ 32

/-- R85: every block is free or in a stored frame, and stored frames have names of their own. -/
def SwitchCore.poolKept (w : SwitchCore) : Prop :=
  w.free + (w.stored.map (·.blocks)).sum = Config.poolBlocks ∧ (w.stored.map (·.id)).Nodup ∧
    ∀ f ∈ w.stored, f.id < w.nextId

/-- R60, R39: the power enable and the lane enables of a slot follow its state, and a lane is OFF exactly while its enable
is off. -/
def State.powerFollows (s : State) : Prop :=
  ∀ i : Slot, (s.slot i).pwren = (s.slot i).state.powered ∧
    ∀ p, (s.lane i p).enable = ((s.slot i).state.powered && (s.slot i).state != .powering) ∧
      ((s.lane i p).state = .off ↔ (s.lane i p).enable = false)

/-! ## Invariants of the manual's prose -/

/-- A transfer belongs to a command that is executing; a setup block is read only while LOADING (R28), and images only while
LOADING in LOAD mode (R30, R35). -/
def State.transferFits (s : State) : Prop :=
  (s.cmd.transfer.isSome → ∃ o, s.cmd.collection = .executing o) ∧
    (∀ addr got, s.cmd.transfer = some (.setup addr got) → ∃ m, s.cmd.hub = .loading m) ∧
    ∀ done got, s.cmd.transfer = some (.images done got) → s.cmd.hub = .loading .load

/-- R91, R92: a slot's queues are empty, of frames and of reservations, unless the slot is serving or draining; its TIMED
queue is empty while the quality is worse than its time gate. Before a setup is loaded every slot is EMPTY or SEATED. -/
def State.queuesFollow (s : State) : Prop :=
  (∀ i, (s.slot i).serving = true ∨ (s.slot i).state = .draining ∨ ∀ c, s.sw.queue i c = EgressQueue.nil) ∧
    (∀ i, (s.slot i).cfg.gate < s.sw.quality → s.sw.queue i .timed = EgressQueue.nil) ∧
    (s.cmd.hub = .unconfigured ∨ s.cmd.hub = .loading .load → ∀ i, (s.slot i).state = .empty ∨ (s.slot i).state = .seated)

/-- R165, R172: a point that is not enabled is CLEAR with count 0 and flag clear, and a card's point is CLEAR while its slot
is not ADMITTED. -/
def State.pointsFollow (s : State) : Prop :=
  ∀ k, ((s.point k).cfg.enabled = false →
      (s.point k).state = .clear ∧ (s.point k).count = 0 ∧ (s.point k).sourceCleared = false) ∧
    ∀ i, (s.point k).cfg.kind.isCard = true → (s.point k).cfg.which = i.val + 1 → (s.slot i).state ≠ .admitted →
      (s.point k).state = .clear

/-- R147: a poll attempt is in progress only for a slot in ADMITTED. -/
def State.pollsFollow (s : State) : Prop := ∀ i, (s.attemptOf i).isSome → (s.slot i).state = .admitted

/-- R178: each relay is energised exactly when the hub is IN_SERVICE, CARRYING or LOADING in ADOPT mode and no unmasked
point of its severities is RAISED. -/
def State.relaysFollow (s : State) : Prop :=
  let hubOn := s.cmd.hub = .inService ∨ s.cmd.hub = .carrying ∨ s.cmd.hub = .loading .adopt
  let raised := fun (v : Severity) => ∃ k, (s.point k).state = .raised ∧ (s.point k).cfg.masked = false ∧
    (s.point k).cfg.severity = v
  (s.alarm.major = true ↔ hubOn ∧ ¬ raised .critical ∧ ¬ raised .major) ∧
    (s.alarm.minor = true ↔ hubOn ∧ ¬ raised .minor)

end Sys2Proof.Machine
end

