-- ==== Sys2Proof/WellFormed.lean ====
section
/-! DEFINITION. When a command or event of the queue is well formed: its operands are ones the outside world can put on
the bus under that row's name. Meanings do not rest on it: a write is classed by R2 whatever row it comes as. -/

namespace Sys2Proof

/-- Offsets of the control words: 00h to 0Eh and 10h to 12h (2.1). -/
def controlWordOffset (o : Nat) : Bool := o ≤ 0x0E || (0x10 ≤ o && o ≤ 0x12)

/-- Is the address one of a control word? -/
def controlWordAddr (a : Addr) : Bool := 0xFFF00 ≤ a.toNat && controlWordOffset (a.toNat - 0xFFF00)

/-- Is the code one of the catalogue (2.3: 01h to 0Eh)? -/
def catalogued (code : BitVec 8) : Bool := 1 ≤ code.toNat && code.toNat ≤ 0x0E

/-- Parameters that can follow a command word: offsets 01h to 0Eh. -/
def parametersFit (params : List Word) : Bool := params.length ≤ 14

/-- Well-formed commands and events. -/
def Instr.wellFormed : Instr → Bool
  | .controllerRead _ => true
  | .plainWrite a _ be => !(controlWordAddr a && be == 0xF)
  | .partialControlWrite o _ be => controlWordOffset o.toNat && be != 0xF
  | .guardedWrite a _ _ => !controlWordAddr a
  | .snoopedRingWrite a _ _ => a.toNat < 0xFFF00
  | .portAccessComplete => true
  | .parameterWrite _ _ => true
  | .attentionMaskWrite _ => true
  | .attentionAcknowledge _ => true
  | .consumerIndexWrite _ => true
  | .unknownCommand code _ _ ps => !catalogued code && parametersFit ps
  | .loadSetup _ _ ps => parametersFit ps
  | .shutdown _ _ ps => parametersFit ps
  | .counterSnapshot _ _ ps => parametersFit ps
  | .setDiscipline _ _ ps => parametersFit ps
  | .setTime _ _ ps => parametersFit ps
  | .ringStart _ _ ps => parametersFit ps
  | .ringStop _ _ ps => parametersFit ps
  | .cycleStart _ _ ps => parametersFit ps
  | .cycleStop _ _ ps => parametersFit ps
  | .slotRelease _ _ ps => parametersFit ps
  | .slotRetry _ _ ps => parametersFit ps
  | .slotOverride _ _ ps => parametersFit ps
  | .tableUpdate _ _ ps => parametersFit ps
  | .alarmReset _ _ ps => parametersFit ps
  | .setupBlockReadDone => true
  | .loadImagesReadDone => true
  | .loadWritebackDone => true
  | .adoptWriteoutDone => true
  | .shutdownComplete => true
  | .statusRewriteDone => true
  | .counterSnapshotDone => true
  | .stagingRecordReadDone => true
  | .imageEntryRewriteDone => true
  | .imageWordRewriteDone => true
  | .controllerReset => true
  | .coldReset => true
  | .trainingComplete _ _ => true
  | .lossOfSignal _ _ => true
  | .frameStartReceived _ _ _ => true
  | .frameEndReceived _ _ _ => true
  | .frameTransmitEnd _ _ => true
  | .presenceArrival _ => true
  | .presenceLoss _ => true
  | .presenceDebounceExpiry _ => true
  | .latchClosed _ => true
  | .latchOpened _ => true
  | .powerGoodArrival _ => true
  | .powerGoodLoss _ => true
  | .powerGoodWaitExpiry _ => true
  | .trainingTimerExpiry _ => true
  | .identWaitExpiry _ => true
  | .drainTimerExpiry _ => true
  | .backoffExpiry _ => true
  | .drainEnd _ => true
  | .heldFrameReoffer => true
  | .rxMovementStart => true
  | .rxWalkEnd => true
  | .rxHoldExpiry => true
  | .rxPlacementDone => true
  | .rxFrameDelivered => true
  | .rxMissMarkerDone => true
  | .txExamineDone => true
  | .txChainJudge => true
  | .txLoadComplete => true
  | .txReturnDone => true
  | .ringHaltComplete => true
  | .rollover => true
  | .ppsOutPulseEnd => true
  | .ppsInEdge => true
  | .referenceWatchExpiry _ => true
  | .cycleEntryFetchDone => true
  | .waitGapExpiry => true
  | .waitBoundaryReached => true
  | .pollResponseTimeout => true
  | .cycleWriteBackDone => true
  | .alarmScan => true
  | .logEntryWritten => true
  | .oscillatorPeriod n => 1 ≤ n
  | .contactLevelChange _ _ => true

end Sys2Proof
end

