-- ==== Sys2Proof/Certificates/Slice0/Obligations.lean ====
section
/-! DEFINITION. The statements for the provers. `State.apart` is the state apart from the arbiter's bookkeeping and the
words still to be rewritten: a statement that ends in an equation of it says what an event changes and that everything
else, every register and every byte of memory, stays as it is. -/

open Sys2Proof Sys2Proof.Machine

/-! ## Steps and invariants -/

/-- A step takes the command at the front of the queue and runs it on the state with the queue's rest; on an empty queue
the block idles (the model's form; assumption log 6). -/
def Obligations.StepTakesFront : Prop :=
  (∀ (c : Instr) (rest : List Instr) (s : State), s.pending = c :: rest → step s = exec c { s with pending := rest }) ∧
  (∀ s : State, s.pending = [] → step s = .next s)

/-- The state after reset meets every invariant stated below. -/
def Obligations.ResetMeetsInvariants : Prop :=
  Memory.WF State.reset.mem ∧ State.reset.time.inRange ∧ State.reset.sw.poolKept ∧ State.reset.powerFollows ∧
    State.reset.transferFits ∧ State.reset.queuesFollow ∧ State.reset.pointsFollow ∧ State.reset.pollsFollow ∧
    State.reset.relaysFollow

/-- Every step keeps shelf memory in canonical form. -/
def Obligations.MemoryStaysCanonical : Prop :=
  ∀ s t : State, Memory.WF s.mem → step s = .next t → Memory.WF t.mem

/-- R11: after every command and event but a cold reset, the port is held or there is no work for it. -/
def Obligations.PortNeverIdle : Prop :=
  ∀ (c : Instr) (s t : State), c ≠ .coldReset → exec c s = .next t → t.path.holder = none → t.portWork = false

/-- No row of the table stops: every command and event answers a next state in every state, and puts nothing into the queue
(the model's choice that rows which do not apply are passed over: assumption log 4). -/
def Obligations.EveryRowAnswers : Prop :=
  ∀ (c : Instr) (s : State), ∃ t, exec c s = .next t ∧ t.pending = s.pending

/-- R114, 7.1: every step keeps ns below one second, the seconds and a waiting SET_TIME value below 2^32, the adjustment mark
below 65,536, the residue below its unit, the trim within ±50,000 and the integral within ±8,000,000. -/
def Obligations.TimeStaysInRange : Prop :=
  ∀ s t : State, s.time.inRange → step s = .next t → t.time.inRange

/-- R85: every step keeps the pool whole: the free blocks and the blocks of the stored frames are 512 together. -/
def Obligations.PoolStaysWhole : Prop :=
  ∀ s t : State, s.sw.poolKept → step s = .next t → t.sw.poolKept

/-- R60: every step keeps the power enable of every slot on exactly when the slot is in POWERING, TRAINING, IDENTIFYING,
ADMITTED or DRAINING, the lane enables of its two lanes on exactly when it is in one of these but POWERING, and a lane OFF
exactly while its enable is off. -/
def Obligations.PowerFollowsState : Prop :=
  ∀ s t : State, s.powerFollows → step s = .next t → t.powerFollows

/-- R91, R92: every step keeps a slot's queues empty unless the slot is serving or draining, and its TIMED queue empty while
the quality is worse than its time gate (with what this rests on: before a setup is loaded every slot is EMPTY or SEATED, a
setup block is read only while LOADING, and images only while LOADING in LOAD mode). -/
def Obligations.QueuesFollowSlots : Prop :=
  ∀ s t : State, s.transferFits → s.queuesFollow → step s = .next t → t.transferFits ∧ t.queuesFollow

/-- R165, R172: every step keeps a point that is not enabled CLEAR with count 0 and flag clear, and a card's point CLEAR while
its slot is not ADMITTED (with what this rests on, R147: a poll attempt is in progress only for a slot in ADMITTED). -/
def Obligations.PointsFollowSlots : Prop :=
  ∀ s t : State, s.pointsFollow → s.pollsFollow → step s = .next t → t.pointsFollow ∧ t.pollsFollow

/-- R178: every step keeps each relay energised exactly when the hub is IN_SERVICE, CARRYING or LOADING in ADOPT mode and no
unmasked point of its severities is RAISED (images being read only while LOADING in LOAD mode). -/
def Obligations.RelaysFollowPoints : Prop :=
  ∀ s t : State, s.transferFits → s.relaysFollow → step s = .next t → t.relaysFollow

/-! ## The memory path -/

/-- R1, R11, R12, R14: with the port free a controller read returns the word that memory holds, and changes nothing else.
While a GH412 word holds the port, an access of the controller that is not guarded waits for it with CWAIT asserted, and but for
the requesters' waiting places nothing else changes, except that a partial control write is counted as it arrives (R3, R9). The
controller has one access outstanding at a time: while its own access
holds the port, its next one is still to be made, and CWAIT is not asserted for it (that it is kept in a line is the model's
choice: assumption log 3). When a GH412 word (a status word) that holds the port completes, the
access that waits takes the port, the passed-over count being below 16; and when it completes itself a read returns its word
and a plain write stores its enabled bytes. (That a controller access which is granted in its own row completes in it is the
model's choice: assumption log 13.) -/
def Obligations.AccessAnsweredOrWaits : Prop :=
  (∀ (a : Addr) (s : State), s.portFree →
    ∃ t, exec (.controllerRead a) s = .next t ∧
      t.apart = ({ s with path := { s.path with cdata := Memory.readWord s.mem a } } : State).apart) ∧
  (∀ (h : Held) (s : State), s.busQuiet → s.path.holder = some (.word h) →
    let waits := fun (c : Classed) (t : State) =>
      let path := { s.path with
        waiting := some c
        partialCount := if c.cls = .partialControl then min (s.path.partialCount + 1) 4294967295 else s.path.partialCount }
      t.path = path ∧ t.cwait = true ∧ t.apart = ({ s with path := path } : State).apart
    (∀ a : Addr, ∃ t, exec (.controllerRead a) s = .next t ∧ waits ⟨.read a, .read⟩ t) ∧
    (∀ (a : Addr) (d : Word) (be : ByteEnables), s.classify a be ≠ .guarded →
      ∃ t, exec (.plainWrite a d be) s = .next t ∧ waits ⟨.write a d be, s.classify a be⟩ t)) ∧
  (∀ (k : Classed) (a : Addr) (d : Word) (be : ByteEnables) (s : State), s.path.waiting = none →
    s.path.holder = some (.controller k) →
    let later := fun (c : Instr) (acc : BusAccess) => ∃ t, exec c s = .next t ∧ t.cwait = false ∧
      t.path = { s.path with line := s.path.line ++ [acc] } ∧
      t.apart = ({ s with path := { s.path with line := s.path.line ++ [acc] } } : State).apart
    later (.controllerRead a) (.read a) ∧ later (.plainWrite a d be) (.write a d be) ∧
      later (.guardedWrite a d be) (.write a d be)) ∧
  (∀ (c : Classed) (o : Nat) (a : Addr) (d : Word) (s : State), s.path.waiting = some c → s.path.passedOver < 16 →
    s.path.holder = some (.word ⟨.command, .status o false, .write a d⟩) →
    ∃ t, exec .portAccessComplete s = .next t ∧ t.path.holder = some (.controller c) ∧ t.cwait = false ∧
      t.apart = ({ s with mem := Memory.writeWord s.mem a d allBytes
                          path := { s.path with waiting := none } } : State).apart) ∧
  (∀ s : State, s.busQuiet →
    (∀ a : Addr, s.path.holder = some (.controller ⟨.read a, .read⟩) →
      ∃ t, exec .portAccessComplete s = .next t ∧
        t.apart = ({ s with path := { s.path with cdata := Memory.readWord s.mem a } } : State).apart) ∧
    (∀ (a : Addr) (d : Word) (be : ByteEnables), s.path.holder = some (.controller ⟨.write a d be, .plain⟩) →
      ∃ t, exec .portAccessComplete s = .next t ∧
        t.apart = ({ s with mem := Memory.writeWord s.mem a d be } : State).apart))

/-- R2: a plain write stores its enabled bytes and is handed to no block: every other byte of memory, and all else, is as
before. R3: a partial write of a control word is performed with its byte enables, counted (up to 4,294,967,295), and handed to
no block. (That byte enable j stores bits 8j+7 to 8j, and that they are byte 4a + j of memory, is the model's choice: assumption
logs 41 and 2.) -/
def Obligations.PlainAndPartialWritesStore : Prop :=
  (∀ (a : Addr) (d : Word) (be : ByteEnables) (s : State), s.portFree → Memory.WF s.mem →
    ((a.toNat < Config.controlPage ∧
        (s.guard = false ∨ s.path.zones = none ∨ ∃ z, s.path.zones = some z ∧ ∀ x ∈ z.toList, x.has a.toNat = false)) ∨
      (Config.controlPage ≤ a.toNat ∧ controlWordOffset (a.toNat - Config.controlPage) = false ∧
        (s.guard = false ∨ a.toNat < Config.controlPage + 0x20 ∨ Config.controlPage + 0x5B < a.toNat))) →
    ∃ t, exec (.plainWrite a d be) s = .next t ∧ t.apart = ({ s with mem := t.mem } : State).apart ∧
      ∀ b, Memory.read t.mem b =
        if 4 * a.toNat ≤ b ∧ b < 4 * a.toNat + 4 ∧ be.getLsbD (b - 4 * a.toNat) = true
        then Memory.byteOf d (b - 4 * a.toNat) else Memory.read s.mem b) ∧
  (∀ (o : BitVec 8) (d : Word) (be : ByteEnables) (s : State), s.portFree →
    controlWordOffset o.toNat = true → be ≠ 0xF →
    ∃ t, exec (.partialControlWrite o d be) s = .next t ∧
      t.apart = ({ s with
        mem := Memory.writeWord s.mem (pageAddr o.toNat) d be
        path := { s.path with partialCount := min (s.path.partialCount + 1) 4294967295 } } : State).apart)

/-- R7, R8: a guarded write, with the port free or held by a GH412 word, is not performed: memory is unchanged. It is counted, its address is
recorded, and GUARD becomes pending when the mask holds it. -/
def Obligations.GuardedWriteDiscarded : Prop :=
  ∀ (a : Addr) (d : Word) (be : ByteEnables) (s : State), s.busQuiet → (∀ c, s.path.holder ≠ some (.controller c)) →
    s.guard = true →
    (Config.controlPage + 0x20 ≤ a.toNat ∧ a.toNat ≤ Config.controlPage + 0x5B ∨
      a.toNat < Config.controlPage ∧ ∃ z, s.path.zones = some z ∧ z.rx.has a.toNat = false ∧ z.tx.has a.toNat = false ∧
        ∃ x ∈ [z.log, z.portImage, z.groupImage, z.pointImage, z.referenceImage], x.has a.toNat = true) →
    ∃ t, exec (.guardedWrite a d be) s = .next t ∧
      t.apart = ({ s with
        path := { s.path with guardedCount := min (s.path.guardedCount + 1) 4294967295, lastGuarded := a }
        cmd := { s.cmd with pending := s.cmd.pending ||| (0x004 &&& s.cmd.mask) } } : State).apart

/-- R6: a snooped write is performed with its byte enables and handed to the ring engine. In the transmit ring (R106) it
begins an examination of the transmit index when the ring engine runs with no movement and no examination in progress. In
the receive ring (R102) it begins the look-ahead again for a held frame. While the ring engine is RING_STOPPED it does
nothing. -/
def Obligations.SnoopedWriteHandedOver : Prop :=
  ∀ (a : Addr) (d : Word) (be : ByteEnables) (s : State) (z : ZoneSet), s.portFree → s.guard = true →
    s.path.zones = some z → a.toNat < Config.controlPage →
    (s.ring.state = .stopped → (z.rx.has a.toNat = true ∨ z.tx.has a.toNat = true) →
      ∃ t, exec (.snoopedRingWrite a d be) s = .next t ∧
        t.apart = ({ s with mem := Memory.writeWord s.mem a d be } : State).apart) ∧
    (z.rx.has a.toNat = false → z.tx.has a.toNat = true → s.ring.state = .running → s.ring.tx = none →
      s.ring.exam = none →
      ∃ t, exec (.snoopedRingWrite a d be) s = .next t ∧
        t.apart = ({ s with mem := Memory.writeWord s.mem a d be
                            ring := { s.ring with exam := some false } } : State).apart) ∧
    (∀ m : RxMove, z.rx.has a.toNat = true → s.ring.state = .running → s.ring.rx = some m → m.phase = .held →
      ∃ t, exec (.snoopedRingWrite a d be) s = .next t ∧
        t.apart = ({ s with mem := Memory.writeWord s.mem a d be
                            ring := { s.ring with rx := some { m with phase := .looking [] false } } } : State).apart)

/-- R11, R22, R23: the status or image word that holds the port is performed when it completes, and CMD_DONE is delivered
with the done-sequence word of a finished command. -/
def Obligations.PortWordPerformed : Prop :=
  (∀ (s : State) (o : Nat) (fin : Bool) (a : Addr) (d : Word), s.busQuiet →
    s.path.holder = some (.word ⟨.command, .status o fin, .write a d⟩) →
    ∃ t, exec .portAccessComplete s = .next t ∧ exec .statusRewriteDone s = .next t ∧
      t.apart = ({ s with
        mem := Memory.writeWord s.mem a d allBytes
        cmd := { s.cmd with pending := if fin then s.cmd.pending ||| (0x001 &&& s.cmd.mask) else s.cmd.pending } }
          : State).apart) ∧
  (∀ (s : State) (a : Addr) (d : Word), s.busQuiet → s.path.holder = some (.word ⟨.command, .image, .write a d⟩) →
    ∃ t, exec .portAccessComplete s = .next t ∧ exec .imageWordRewriteDone s = .next t ∧
      t.apart = ({ s with mem := Memory.writeWord s.mem a d allBytes } : State).apart)

/-- R34, R35, 12.2: the status words. Every row whose end is not a wait for one port access (`State.awaitPort`: such a row is
several completions, each as in PORT_ACCESS_COMPLETE), in every state in which the controller's accesses do not wait behind a
free port, leaves every word whose value it has changed in the rewrite set, or at the port with its new value. A status word
that holds the port after any row held it before or carries the value of that moment, and goes to its own address. Every
word is laid out as 12.2 says (the fields within their ranges). -/
def Obligations.StatusWordsRewritten : Prop :=
  (∀ (c : Instr) (s t : State) (o : Nat), rowAwaits c = false → (s.path.holder = none → s.path.line = []) →
    exec c s = .next t → 0x20 ≤ o → o ≤ 0x5B → t.statusWord o ≠ s.statusWord o →
    o ∈ t.cmd.rewrite ∨
      ∃ fin, t.path.holder = some (.word ⟨.command, .status o fin, .write (pageAddr o) (t.statusWord o)⟩)) ∧
  (∀ (c : Instr) (s t : State) (w : Requester) (o : Nat) (fin : Bool) (op : DmaOp), exec c s = .next t →
    t.path.holder = some (.word ⟨w, .status o fin, op⟩) →
    s.path.holder = some (.word ⟨w, .status o fin, op⟩) ∨ op = .write (pageAddr o) (t.statusWord o)) ∧
  (∀ s : State,
    let r := s.cmd.record
    let w22 := s.statusWord 0x22
    let w23 := s.statusWord 0x23
    let w24 := s.statusWord 0x24
    let w31 := s.statusWord 0x31
    let w34 := s.statusWord 0x34
    let w3B := s.statusWord 0x3B
    (r.lastCode < 256 → field w22 0 8 = r.lastCode ∧ field w22 8 8 = r.result.code ∧ w22.getLsbD 16 = r.clamped) ∧
      (r.fail.number < 256 → r.fail.table < 8 → field w23 0 8 = r.fail.number ∧ field w23 8 3 = r.fail.table) ∧
      (r.refusals < 65536 → r.lastOffset < 16 →
        field w24 0 16 = r.refusals ∧ field w24 16 2 = r.lastReason.code ∧ field w24 24 4 = r.lastOffset) ∧
      (s.alarm.producer < 256 → s.alarm.overflow < 65536 →
        field w3B 0 8 = s.alarm.producer ∧ field w3B 16 16 = s.alarm.overflow) ∧
      (∀ x ∈ [(0x20, r.accepted), (0x21, r.done), (0x25, r.lastRefusedCode), (0x37, s.time.holdover), (0x38, s.cmd.snapSec),
          (0x39, s.cmd.snapNs), (0x3C, s.sw.free), (0x3D, s.path.guardedCount), (0x3E, s.path.lastGuarded.toNat)],
        s.statusWord x.1 = BitVec.ofNat 32 x.2) ∧
      (-500000000 ≤ s.time.lastError → s.time.lastError < 500000000 → (s.statusWord 0x35).toInt = s.time.lastError) ∧
      field w31 0 3 = s.cmd.hub.code ∧ field w31 4 2 = s.ring.state.code ∧ field w31 8 2 = s.cyc.state.code ∧
      field w31 12 3 = (if s.cyc.state = .faulted then s.cyc.fault.code else 0) ∧
      s.statusWord 0x32 = s.cyc.cur.setWidth 32 ∧ s.statusWord 0x33 = s.cyc.notify ∧
      field w34 0 2 = s.time.state.code ∧ field w34 4 3 = s.time.quality ∧ w34.getLsbD 8 = s.time.beyond ∧
      field w34 12 3 = (match s.time.selected with | some k => k.val | none => 7) ∧
      s.statusWord 0x3A = s.cmd.pending.setWidth 32 ∧ s.statusWord 0x30 = 0x00010412 ∧
      (s.time.inRange → (s.statusWord 0x36).toInt = s.time.trim) ∧
      (∀ i : Slot, let w := s.statusWord (0x50 + i.val)
        field w 0 4 = (s.slot i).state.code ∧ w.getLsbD 4 = (s.slot i).fenced ∧
          w.getLsbD 5 = ((s.slot i).active == .b)) ∧
      (∀ o, (0x26 ≤ o ∧ o ≤ 0x2F) ∨ (0x3F ≤ o ∧ o ≤ 0x4F) → s.statusWord o = 0))

/-- R12: with a GH412 word waiting and the passed-over count below 16, the controller's accesses go first: the read is
answered, and the word is granted only afterwards. R13: the requester granted is the first that has a word waiting in the cyclic
order command unit, ring engine, cycle engine, alarm unit, after the one served last. With the count at 16 the decision goes to the GH412 word: the controller's
read waits behind it with CWAIT asserted, and the count is 0. A controller access that follows another is granted with the count
risen by 1 when a GH412 word waits, and at 0 when none does. No step takes the count above 16. (That a read which is granted in
its own row completes in it, and that the controller's accesses wait in a line, are the model's choices: assumption logs 13 and
3.) -/
def Obligations.ArbiterPassesOverAtMostSixteen : Prop :=
  let turn : Requester → Nat := fun r => match r with | .command => 0 | .ring => 1 | .cycle => 2 | .alarm => 3
  let waits : State → Requester → Prop := fun u r => match r with
    | .command => u.cmd.place.isSome = true
    | .ring => u.ring.place.isSome = true
    | .cycle => u.cycleWord.isSome = true
    | .alarm => u.alarm.queue ≠ []
  let first := fun (s : State) (r : Requester) => waits s.fill r ∧ ∀ x, waits s.fill x →
    (turn r + 3 - turn s.path.lastServed) % 4 ≤ (turn x + 3 - turn s.path.lastServed) % 4
  (∀ (a : Addr) (s : State), s.portFree → (∃ r, waits s.fill r) →
    ∃ t h, exec (.controllerRead a) s = .next t ∧ t.path.cdata = Memory.readWord s.mem a ∧ t.path.holder = some (.word h) ∧
      first s h.who ∧
      t.path.lastServed = h.who ∧ t.path.passedOver = 0 ∧ t.cwait = false) ∧
  (∀ (a : Addr) (s : State), s.busQuiet → s.path.holder = none → s.path.passedOver = 16 → (∃ r, waits s.fill r) →
    ∃ t h, exec (.controllerRead a) s = .next t ∧ t.path.holder = some (.word h) ∧ first s h.who ∧
      t.path.lastServed = h.who ∧ t.path.passedOver = 0 ∧ t.cwait = true ∧ t.path.cdata = s.path.cdata ∧ t.mem = s.mem) ∧
  (∀ (b : Addr) (acc : BusAccess) (rest : List BusAccess) (s : State),
    s.path.holder = some (.controller ⟨.read b, .read⟩) → s.path.waiting = none → s.path.line = acc :: rest →
    (s.classed acc).cls ≠ .guarded → s.path.passedOver < 16 →
    ∃ t, exec .portAccessComplete s = .next t ∧ t.path.holder = some (.controller (s.classed acc)) ∧ t.path.line = rest ∧
      ((∃ r, waits s.release.fill r) → t.path.passedOver = s.path.passedOver + 1) ∧
      ((∀ r, ¬ waits s.release.fill r) → t.path.passedOver = 0)) ∧
  (∀ s t : State, s.path.passedOver ≤ 16 → step s = .next t → t.path.passedOver ≤ 16)

/-! ## Control page words -/

/-- R24: a full write of the attention mask replaces the mask with the twelve causes listed, and leaves the pending set.
R25, R26: a full write of the attention acknowledge removes the causes listed from the pending set, whatever the mask; ATTN
stays asserted exactly while a cause is left. R176: outside IN_SERVICE a write of the consumer index changes nothing but memory.
In IN_SERVICE an index that lies in the log and between the consumer and the producer index is taken; any other is ignored and
counted. -/
def Obligations.ControlWordsTaken : Prop :=
  (∀ (d : Word) (s : State), s.portFree →
    ∃ t, exec (.attentionMaskWrite d) s = .next t ∧
      t.apart = ({ s with mem := Memory.writeWord s.mem (pageAddr 0x10) d allBytes
                          cmd := { s.cmd with mask := d.extractLsb' 0 12 } } : State).apart) ∧
  (∀ (d : Word) (s : State), s.portFree →
    ∃ t, exec (.attentionAcknowledge d) s = .next t ∧
      t.apart = ({ s with mem := Memory.writeWord s.mem (pageAddr 0x11) d allBytes
                          cmd := { s.cmd with pending := s.cmd.pending &&& ~~~(d.extractLsb' 0 12) } } : State).apart ∧
      (t.attn = true ↔ ∃ k : Fin 12, s.cmd.pending.getLsbD k.val = true ∧ d.getLsbD k.val = false)) ∧
  (∀ (d : Word) (s : State), s.portFree →
    ∃ t, exec (.consumerIndexWrite d) s = .next t ∧
      t.apart = ({ s with
        mem := Memory.writeWord s.mem (pageAddr 0x12) d allBytes
        alarm :=
          if s.cmd.hub = .inService then
            if d.toNat < s.alarm.logSize ∧
              (d.toNat + s.alarm.logSize - s.alarm.consumer) % s.alarm.logSize
                ≤ (s.alarm.producer + s.alarm.logSize - s.alarm.consumer) % s.alarm.logSize
            then { s.alarm with consumer := d.toNat }
            else { s.alarm with ignored := min (s.alarm.ignored + 1) 4294967295 }
          else s.alarm } : State).apart)

/-- R18, R19: a parameter write. At the next expected offset of a collecting command that has more to come it is latched.
At any other offset, or with no command collecting, it is ignored: it is counted with reason PARAMETER_IGNORED and its
offset, and REFUSAL is delivered. -/
def Obligations.ParameterLatchedOrIgnored : Prop :=
  ∀ (k : Fin 14) (v : Word) (s : State), s.portFree →
    (∀ o : OpenCmd, s.cmd.collection = .collecting o → k.val = o.params.length → o.params.length + 1 ≠ o.count →
      ∃ t, exec (.parameterWrite k v) s = .next t ∧
        t.apart = ({ s with
          mem := Memory.writeWord s.mem (pageAddr (k.val + 1)) v allBytes
          cmd := { s.cmd with collection := .collecting { o with params := o.params ++ [v] } } } : State).apart) ∧
    ((∀ o : OpenCmd, s.cmd.collection = .collecting o → k.val ≠ o.params.length) →
      ∃ t, exec (.parameterWrite k v) s = .next t ∧
        t.apart = ({ s with
          mem := Memory.writeWord s.mem (pageAddr (k.val + 1)) v allBytes
          cmd := { s.cmd with
            record := { s.cmd.record with refusals := min (s.cmd.record.refusals + 1) 65535,
                                          lastReason := .parameterIgnored, lastOffset := k.val + 1, lastRefusedCode := 0 }
            pending := s.cmd.pending ||| (0x002 &&& s.cmd.mask) } } : State).apart)

/-! ## Commands -/

/-- R17, R21: a command word that opens no execution. While a command executes, or in LOADING or SHUTTING_DOWN, it is
refused with the reason of the hub state. Otherwise it opens a command that finishes at once: a code that is not in the
catalogue (`unknownCommand`, the row UNKNOWN_COMMAND) with REFUSED_UNKNOWN, a count that the command does not allow with
REFUSED_PARAMETER and failing item 0. -/
def Obligations.CommandWordsRefused : Prop :=
  ∀ (c : Instr) (code : BitVec 8) (count : BitVec 4) (unread : BitVec 20) (s : State),
    commandOf c = some (code, count, unread, []) →
    (s.portFree → ((∃ o, s.cmd.collection = .executing o) ∨ s.cmd.hub.refusesAll = true) →
      ∃ t, exec c s = .next t ∧
        t.apart = ({ s with
          mem := commandMem s.mem code count unread []
          cmd := { s.cmd with
            record := { s.cmd.record with refusals := min (s.cmd.record.refusals + 1) 65535,
                                          lastReason := if s.cmd.hub = .shuttingDown then .state else .busy,
                                          lastOffset := 0, lastRefusedCode := code.toNat }
            pending := s.cmd.pending ||| (0x002 &&& s.cmd.mask) } } : State).apart) ∧
    (s.takesCommand → catalogued code = false →
      ∃ t, exec c s = .next t ∧
        t.apart = (s.afterCommand (commandMem s.mem code count unread [])
          { s.cmd.record.opened with done := (s.cmd.record.accepted + 1) % 65536, lastCode := code.toNat,
                                     result := .refusedUnknown, fail := ⟨0, 0⟩, clamped := false }).apart) ∧
    (∀ k : Command, s.takesCommand → k.code = code.toNat → k.allowsCount count.toNat = false →
      ∃ t, exec c s = .next t ∧
        t.apart = (s.afterCommand (commandMem s.mem code count unread [])
          (s.cmd.record.opened.finished k .refusedParameter 0 false)).apart)

/-- R21: a command that the hub state does not allow finishes with REFUSED_STATE once its last parameter has come.
R20: a command word that comes while another command is collecting its parameters cuts that one short and opens its own.
The first finishes with CUT_SHORT and its owner sees nothing; but a SET_DISCIPLINE takes the parameters it has, and finishes
with DONE_PARTIAL and its clamped flag (here outside HOLDOVER, where it also judges the beyond-limit flag again, R128). -/
def Obligations.CommandOpeningRules : Prop :=
  (∀ (c : Instr) (k : Command) (code : BitVec 8) (count : BitVec 4) (unread : BitVec 20) (ps : List Word) (s : State),
    commandOf c = some (code, count, unread, ps) → s.takesCommand → k.code = code.toNat →
    k.allowsCount count.toNat = true → ps.length = count.toNat → k.allowedIn s.cmd.hub = false →
    ∃ t, exec c s = .next t ∧
      t.apart = (s.afterCommand (commandMem s.mem code count unread ps)
        (s.cmd.record.opened.finished k .refusedState 0 false)).apart) ∧
  (∀ (c : Instr) (k : Command) (o : OpenCmd) (code : BitVec 8) (count : BitVec 4) (unread : BitVec 20) (s : State),
    commandOf c = some (code, count, unread, []) → s.portFree → s.cmd.hub.refusesAll = false → s.cmd.transfer = none →
    s.cmd.collection = .collecting o → o.cmd ≠ .setDiscipline → k.code = code.toNat →
    k.allowsCount count.toNat = true → count ≠ 0 →
    ∃ t, exec c s = .next t ∧
      t.apart = ({ s with
        mem := commandMem s.mem code count unread []
        cmd := { s.cmd with collection := .collecting ⟨k, count.toNat, []⟩
                            record := (s.cmd.record.finished o.cmd .cutShort 0 false).opened } } : State).apart) ∧
  (∀ (c : Instr) (k : Command) (o : OpenCmd) (code : BitVec 8) (count : BitVec 4) (unread : BitVec 20) (s : State),
    commandOf c = some (code, count, unread, []) → s.portFree → s.cmd.hub.refusesAll = false → s.cmd.transfer = none →
    s.cmd.collection = .collecting o → o.cmd = .setDiscipline → k.code = code.toNat →
    k.allowsCount count.toNat = true → count ≠ 0 → s.time.state ≠ .holdover →
    ∃ t, exec c s = .next t ∧
      t.apart = ({ s with
        mem := commandMem s.mem code count unread []
        time := { s.time with disc := s.time.disc.replaced o.params }
        cmd := { s.cmd with
          collection := .collecting ⟨k, count.toNat, []⟩
          record := (s.cmd.record.finished .setDiscipline .donePartial 0 (disciplineClamped o.params)).opened } }
            : State).apart)

/-- R28: LOAD_SETUP checks its mode (failing item 1), then the hub state, then its address (failing item 2: at or below
FFEE0h). Taken, it puts the hub into LOADING, judges the relays (R178) and begins to read the setup block. -/
def Obligations.LoadSetupTaken : Prop :=
  ∀ (unread : BitVec 20) (mode addr : Word) (s : State), s.takesCommand →
    (mode = 1 → s.cmd.hub = .unconfigured → addr.toNat ≤ 0xFFEE0 →
      ∃ t, exec (.loadSetup 2 unread [mode, addr]) s = .next t ∧
        t.apart = ({ s.executing (commandMem s.mem 0x01 2 unread [mode, addr]) .loadSetup [mode, addr] with
          cmd := { (s.executing s.mem .loadSetup [mode, addr]).cmd with
            hub := .loading .load, transfer := some (.setup addr.toNat []) }
          alarm := { s.alarm with major := false, minor := false } } : State).apart) ∧
    (mode = 2 → s.cmd.hub = .carrying → addr.toNat ≤ 0xFFEE0 → (∀ i, (s.slot i).state ≠ .seated) →
      ∃ t, exec (.loadSetup 2 unread [mode, addr]) s = .next t ∧
        t.apart = ({ s.executing (commandMem s.mem 0x01 2 unread [mode, addr]) .loadSetup [mode, addr] with
          cmd := { (s.executing s.mem .loadSetup [mode, addr]).cmd with
            hub := .loading .adopt, transfer := some (.setup addr.toNat []) }
          alarm := { s.alarm with major := !s.alarm.anyRaised [.critical, .major],
                                  minor := !s.alarm.anyRaised [.minor] } } : State).apart) ∧
    (∀ (r : CmdResult) (item : Nat),
      (mode ≠ 1 ∧ mode ≠ 2 ∧ r = .refusedParameter ∧ item = 1 ∨
        (mode = 1 ∧ s.cmd.hub ≠ .unconfigured ∨ mode = 2 ∧ s.cmd.hub ≠ .carrying) ∧ r = .refusedState ∧ item = 0 ∨
        (mode = 1 ∧ s.cmd.hub = .unconfigured ∨ mode = 2 ∧ s.cmd.hub = .carrying) ∧ 0xFFEE0 < addr.toNat ∧
          r = .refusedParameter ∧ item = 2) →
      ∃ t, exec (.loadSetup 2 unread [mode, addr]) s = .next t ∧
        t.apart = (s.afterCommand (commandMem s.mem 0x01 2 unread [mode, addr])
          (s.cmd.record.opened.finished .loadSetup r item false)).apart)

/-- R32: SHUTDOWN in IN_SERVICE. With no card powered, the rings stopped and no log entry being written, it puts the hub
into SHUTTING_DOWN, drops the relays (R178), stops the cycle engine (R152) and leaves the command executing. In every
case the slots leave their states as R76 says: ADMITTED for DRAINING, and every other state but EMPTY, SEATED and
DRAINING for SEATED. R33: when every slot is EMPTY or SEATED, the rings stopped and the cycle engine idle, the shutdown
completes: the working tables and the zone set are emptied, the hub is UNCONFIGURED with the relays de-energised, and SHUTDOWN
finishes with DONE. (No alarm point standing unmasked and no reference entry qualified: those would be reported, R165,
R122.) -/
def Obligations.ShutdownTaken : Prop :=
  (∀ (unread : BitVec 20) (s : State), s.takesCommand → s.cmd.hub = .inService →
    ((∀ i, (s.slot i).state = .empty ∨ (s.slot i).state = .seated) → s.ring.state = .stopped → s.alarm.queue = [] →
      s.alarm.headDone = 0 →
      ∃ t, exec (.shutdown 0 unread []) s = .next t ∧
        t.apart = ({ s.executing (commandMem s.mem 0x02 0 unread []) .shutdown [] with
          cmd := { (s.executing s.mem .shutdown []).cmd with hub := .shuttingDown }
          cyc := { s.cyc with state := .idle, stack := [], zeroRun := 0, entry := none }
          alarm := { s.alarm with major := false, minor := false, writeIdx := s.alarm.producer } } : State).apart) ∧
    (∃ t, exec (.shutdown 0 unread []) s = .next t ∧ t.cmd.hub = .shuttingDown ∧ t.cyc.state = .idle ∧
      t.ring.state ≠ .running ∧
      ∀ i, (t.slot i).state =
        match (s.slot i).state with
        | .empty => .empty
        | .admitted | .draining => .draining
        | _ => .seated)) ∧
  (∀ (o : OpenCmd) (s : State), s.busQuiet → s.cmd.hub = .shuttingDown →
    (∀ i, (s.slot i).state = .empty ∨ (s.slot i).state = .seated) → s.ring.state = .stopped → s.cyc.state = .idle →
    s.cmd.collection = .executing o → o.cmd = .shutdown →
    (∀ k, (s.point k).cfg.masked = true ∨ (s.point k).state = .clear ∨ (s.point k).state = .pendingRaise) →
    (∀ k, (s.ref k).qualified = false) →
    ∃ t, exec .shutdownComplete s = .next t ∧
      t.apart = ({ s with
        path := { s.path with zones := none }
        cmd := { s.cmd with hub := .unconfigured, collection := .idle, transfer := none
                            record := s.cmd.record.finished .shutdown .done 0 false }
        sm := { s.sm with slots := s.sm.slots.map (fun e => { e with cfg := PortCfg.cold }), q0Limit := 128 }
        sw := { s.sw with groups := Vector.replicate 64 Group.none }
        time := { s.time with refs := Vector.replicate 4 RefEntry.cold }
        alarm := { s.alarm with points := Vector.replicate 64 Point.cold, major := false, minor := false } }
          : State).apart)

/-- R36, R180: COUNTER_SNAPSHOT and TABLE_UPDATE check their parameters in order and begin their transfers. -/
def Obligations.SnapshotAndUpdateBegin : Prop :=
  ∀ (unread : BitVec 20) (s : State), s.takesCommand → s.cmd.hub = .inService →
    (∀ addr clear : Word,
      (addr.toNat + 192 ≤ 0x100000 → s.path.touchesKept addr.toNat 192 = false →
        ∃ t, exec (.counterSnapshot 2 unread [addr, clear]) s = .next t ∧
          t.apart = ({ s.executing (commandMem s.mem 0x03 2 unread [addr, clear]) .counterSnapshot [addr, clear] with
            cmd := { (s.executing s.mem .counterSnapshot [addr, clear]).cmd with
              transfer := some (.snapshot addr.toNat (clear ≠ 0) 0) } } : State).apart) ∧
      (0x100000 < addr.toNat + 192 ∨ s.path.touchesKept addr.toNat 192 = true →
        ∃ t, exec (.counterSnapshot 2 unread [addr, clear]) s = .next t ∧
          t.apart = (s.afterCommand (commandMem s.mem 0x03 2 unread [addr, clear])
            (s.cmd.record.opened.finished .counterSnapshot .refusedParameter 1 false)).apart)) ∧
    (∀ code index addr : Word,
      (∀ k : Table, k.code = code.toNat → index.toNat < k.entries → addr.toNat + k.words ≤ 0x100000 →
        s.path.touchesKept addr.toNat k.words = false →
        ∃ t, exec (.tableUpdate 3 unread [code, index, addr]) s = .next t ∧
          t.apart = ({ s.executing (commandMem s.mem 0x0D 3 unread [code, index, addr]) .tableUpdate
              [code, index, addr] with
            cmd := { (s.executing s.mem .tableUpdate [code, index, addr]).cmd with
              transfer := some (.staging k index.toNat addr.toNat []) } } : State).apart) ∧
      (∀ item : Nat,
        (item = 1 ∧ (∀ k : Table, k.code ≠ code.toNat) ∨
          (∃ k : Table, k.code = code.toNat ∧
            (item = 2 ∧ k.entries ≤ index.toNat ∨
              item = 3 ∧ index.toNat < k.entries ∧
                (0x100000 < addr.toNat + k.words ∨ s.path.touchesKept addr.toNat k.words = true)))) →
        ∃ t, exec (.tableUpdate 3 unread [code, index, addr]) s = .next t ∧
          t.apart = (s.afterCommand (commandMem s.mem 0x0D 3 unread [code, index, addr])
            (s.cmd.record.opened.finished .tableUpdate .refusedParameter item false)).apart))

/-- R116: SET_TIME leaves the seconds waiting for the next rollover. R130: SET_DISCIPLINE replaces the parameters it
carries, each clamped to its range, leaves the others, and answers whether one was clamped. R128, R129: in HOLDOVER it judges the
beyond-limit flag against the holdover limit (also when it carries none: the model's reading, assumption log 30); a change of the
flag takes the quality to 3 or back to 1 and delivers TIME_STATE (no slot's time gate shut by the new quality). -/
def Obligations.TimeCommandsTaken : Prop :=
  ∀ (unread : BitVec 20) (s : State), s.takesCommand →
    (∀ v : Word,
      ∃ t, exec (.setTime 1 unread [v]) s = .next t ∧
        t.apart = ({ s.afterCommand (commandMem s.mem 0x05 1 unread [v])
            (s.cmd.record.opened.finished .setTime .done 0 false) with
          time := { s.time with pendingSet := some v.toNat } } : State).apart) ∧
    (∀ (count : BitVec 4) (ps : List Word), ps.length = count.toNat → count.toNat ≤ 6 →
      let done := s.afterCommand (commandMem s.mem 0x04 count unread ps)
        (s.cmd.record.opened.finished .setDiscipline .done 0 (disciplineClamped ps))
      let disc := s.time.disc.replaced ps
      let beyond : Bool := disc.holdoverLimit < s.time.holdover
      let quality := if beyond then 3 else 1
      let ends := fun (t' : State) => ∃ t, exec (.setDiscipline count unread ps) s = .next t ∧ t.apart = t'.apart
      (s.time.state ≠ .holdover ∨ beyond = s.time.beyond → ends { done with time := { s.time with disc := disc } }) ∧
      (s.time.state = .holdover → beyond ≠ s.time.beyond → (∀ i, quality ≤ (s.slot i).cfg.gate) →
        ends (State.withCauses { done with
          time := { s.time with disc := disc, beyond := beyond }
          sw := { s.sw with quality := quality } } 0x400)))

/-- R98: RING_START in RING_STOPPED starts both rings at index 0 and examines the transmit index; in another ring state it
is refused. R99: RING_STOP in RING_STOPPED is done at once; in RING_RUNNING it halts the engine and goes on executing until the
halt is complete. A receive movement past its look-ahead and a chain being loaded or handed back go on; a chain still being
fetched or held is handed back as UNDELIVERABLE; a frame whose look-ahead has not ended is missed (here with no transmit movement
in progress). (That an examination in progress ends with the halt, `exam := none`, is the model's choice, DEDUCED: assumption log
24.) -/
def Obligations.RingCommandsTaken : Prop :=
  ∀ (unread : BitVec 20) (s : State), s.takesCommand → s.cmd.hub = .inService →
    (s.ring.state = .stopped →
      ∃ t, exec (.ringStart 0 unread []) s = .next t ∧
        t.apart = ({ s.afterCommand (commandMem s.mem 0x06 0 unread [])
            (s.cmd.record.opened.finished .ringStart .done 0 false) with
          ring := { s.ring with state := .running, rxIdx := 0, txIdx := 0, exam := some false } } : State).apart) ∧
    (s.ring.state ≠ .stopped →
      ∃ t, exec (.ringStart 0 unread []) s = .next t ∧
        t.apart = (s.afterCommand (commandMem s.mem 0x06 0 unread [])
            (s.cmd.record.opened.finished .ringStart .refusedState 0 false)).apart) ∧
    (s.ring.state = .stopped →
      ∃ t, exec (.ringStop 0 unread []) s = .next t ∧
        t.apart = (s.afterCommand (commandMem s.mem 0x07 0 unread [])
            (s.cmd.record.opened.finished .ringStop .done 0 false)).apart) ∧
    (s.ring.state = .running → (∀ m, s.ring.rx = some m → m.phase ≠ .held ∧ ∀ ds b, m.phase ≠ .looking ds b) →
      let halted : Option TxMove := match s.ring.tx with
        | some m => (match m.phase with
          | .fetching _ | .held _ => some { m.readSoFar with phase := .returning .undeliverable 0 }
          | _ => some m)
        | none => none
      ∃ t, exec (.ringStop 0 unread []) s = .next t ∧
        t.apart = ({ s.executing (commandMem s.mem 0x07 0 unread []) .ringStop [] with
          ring := { s.ring with state := .halting, tx := halted
                                exam := if s.ring.tx = none then none else s.ring.exam } } : State).apart) ∧
    (∀ (m : RxMove) (f : Stored), s.ring.state = .running → s.ring.tx = none → s.ring.rx = some m →
      (m.phase = .held ∨ ∃ ds b, m.phase = .looking ds b) → s.sw.find m.id = some f → f.refs = 2 →
      s.sw.queue0.frames.contains m.id = true →
      ∃ t, exec (.ringStop 0 unread []) s = .next t ∧
        t.apart = (State.withCauses { s.executing (commandMem s.mem 0x07 0 unread []) .ringStop [] with
          sw := s.sw.headGone m.id f.blocks (fun c => { c with flushed := min (c.flushed + 1) 4294967295 })
          ring := { s.ring with
            state := .halting, exam := none
            rx := some { m with phase := .marking 0, hold := none, rewalk := false }
            counters := { s.ring.counters with missed := min (s.ring.counters.missed + 1) 4294967295 } }
          alarm := { s.alarm with marks := { s.alarm.marks with rxMissed := true } } } 0x020).apart)

/-- R135: CYCLE_START in CYCLE_IDLE or CYCLE_FAULTED starts the walk at its address, or faults with ILLEGAL_ADDRESS where
no entry may stand (R137, R142); a parameter that is no word address is taken so too (the model's reading: assumption log
14). In another cycle state it is refused. R136: CYCLE_STOP in CYCLE_IDLE is done at once, in CYCLE_FAULTED and while an
entry is being fetched it ends the cycle with CYCLE_END (that the current entry address stays at the entry being fetched is the
model's reading: assumption log 43). It ends a wait at once with STOPPED, the engine halting to write the result (its plane bit
and the fields a wait has not are free: assumption logs 10 and 44); a poll, a TIME send and a write-back go on, the engine halting. In these the command goes on executing. -/
def Obligations.CycleCommandsTaken : Prop :=
  ∀ (unread : BitVec 20) (s : State), s.takesCommand → s.cmd.hub = .inService →
    (∀ v : Word, s.cyc.state = .idle ∨ s.cyc.state = .faulted →
      (v.toNat < 0x100000 → v.toNat % 8 = 0 → s.path.touchesKept v.toNat 8 = false →
        ∃ t, exec (.cycleStart 1 unread [v]) s = .next t ∧
          t.apart = ({ s.afterCommand (commandMem s.mem 0x08 1 unread [v])
              (s.cmd.record.opened.finished .cycleStart .done 0 false) with
            cyc := { s.cyc with state := .running, fault := .none, stack := [], zeroRun := 0, cur := addrOf v.toNat,
                                entry := some ⟨addrOf v.toNat, .fetch []⟩ } } : State).apart) ∧
      (0x100000 ≤ v.toNat ∨ v.toNat % 8 ≠ 0 ∨ s.path.touchesKept v.toNat 8 = true →
        ∃ t, exec (.cycleStart 1 unread [v]) s = .next t ∧
          t.apart = (State.withCauses { s.afterCommand (commandMem s.mem 0x08 1 unread [v])
              (s.cmd.record.opened.finished .cycleStart .done 0 false) with
            cyc := { s.cyc with
              state := .faulted, fault := .illegalAddress, stack := [], zeroRun := 0, cur := addrOf v.toNat,
              entry := none, counters := { s.cyc.counters with faults := min (s.cyc.counters.faults + 1) 4294967295 } } }
                0x100).apart)) ∧
    (∀ v : Word, s.cyc.state = .running ∨ s.cyc.state = .halting →
      ∃ t, exec (.cycleStart 1 unread [v]) s = .next t ∧
        t.apart = (s.afterCommand (commandMem s.mem 0x08 1 unread [v])
            (s.cmd.record.opened.finished .cycleStart .refusedState 0 false)).apart) ∧
    (s.cyc.state = .idle →
      ∃ t, exec (.cycleStop 0 unread []) s = .next t ∧
        t.apart = (s.afterCommand (commandMem s.mem 0x09 0 unread [])
            (s.cmd.record.opened.finished .cycleStop .done 0 false)).apart) ∧
    (s.cyc.state = .faulted ∨ (s.cyc.state = .running ∧ ∃ a got, s.cyc.entry = some ⟨a, .fetch got⟩) →
      ∃ t, exec (.cycleStop 0 unread []) s = .next t ∧
        t.apart = (State.withCauses { s.afterCommand (commandMem s.mem 0x09 0 unread [])
            (s.cmd.record.opened.finished .cycleStop .done 0 false) with
          cyc := { s.cyc with state := .idle, stack := [], zeroRun := 0, entry := none } } 0x080).apart) ∧
    (∀ (a : Addr) (ws : List Word), s.cyc.state = .running →
      (∃ x, s.cyc.entry = some ⟨a, .run ws (.gap x)⟩) ∨ (∃ d, s.cyc.entry = some ⟨a, .run ws (.boundary d)⟩) →
      ∃ t, exec (.cycleStop 0 unread []) s = .next t ∧
        t.apart = ({ s.executing (commandMem s.mem 0x09 0 unread []) .cycleStop [] with
          draws := s.draws + 1
          cyc := { s.cyc with
            state := .halting
            entry := some ⟨a, .writeBack ws
              { w4 := wordOf (3 + 2 ^ 12 * (if Config.freePlane s.draws then 1 else 0) + 2 ^ 24 * (Config.freeCodes s.draws).val)
                w5 := wordOf (Config.freeRtt s.draws).toNat, w6 := wordOf s.time.sec
                w7 := wordOf s.time.ns, n := 0, next := a + 8 }⟩ } } : State).apart) ∧
    (∀ (a : Addr) (ws : List Word), s.cyc.state = .running →
      (∃ w, s.cyc.entry = some ⟨a, .run ws (.poll w)⟩) ∨ (∃ w, s.cyc.entry = some ⟨a, .run ws (.time w)⟩) ∨
        (∃ b, s.cyc.entry = some ⟨a, .writeBack ws b⟩) →
      ∃ t, exec (.cycleStop 0 unread []) s = .next t ∧
        t.apart = ({ s.executing (commandMem s.mem 0x09 0 unread []) .cycleStop [] with
          cyc := { s.cyc with state := .halting } } : State).apart)

/-- R75: the slot commands. A number outside 1 to 12 is refused as failing item 1, a slot in another state with
REFUSED_STATE. SLOT_RELEASE takes an ADMITTED slot to DRAINING with cause RELEASE. SLOT_RETRY takes a LOCKED_OUT slot to
SEATED with no attempts, and R62 judges it. SLOT_OVERRIDE takes a REJECTED slot, provisioned with its latch closed, to
POWERING with the override flag set. -/
def Obligations.SlotCommandsTaken : Prop :=
  ∀ (unread : BitVec 20) (s : State), s.takesCommand → s.cmd.hub = .inService →
    (∀ v : Word, v.toNat = 0 ∨ 12 < v.toNat →
      ∃ t1 t2 t3, exec (.slotRelease 1 unread [v]) s = .next t1 ∧ exec (.slotRetry 1 unread [v]) s = .next t2 ∧
        exec (.slotOverride 1 unread [v]) s = .next t3 ∧
        t1.apart = (s.afterCommand (commandMem s.mem 0x0A 1 unread [v])
          (s.cmd.record.opened.finished .slotRelease .refusedParameter 1 false)).apart ∧
        t2.apart = (s.afterCommand (commandMem s.mem 0x0B 1 unread [v])
          (s.cmd.record.opened.finished .slotRetry .refusedParameter 1 false)).apart ∧
        t3.apart = (s.afterCommand (commandMem s.mem 0x0C 1 unread [v])
          (s.cmd.record.opened.finished .slotOverride .refusedParameter 1 false)).apart) ∧
    ∀ i : Slot,
      let v : Word := BitVec.ofNat 32 (i.val + 1)
      let e := s.slot i
      (e.state ≠ .admitted → ∃ t, exec (.slotRelease 1 unread [v]) s = .next t ∧
        t.apart = (s.afterCommand (commandMem s.mem 0x0A 1 unread [v])
          (s.cmd.record.opened.finished .slotRelease .refusedState 0 false)).apart) ∧
      (e.state ≠ .lockedOut → ∃ t, exec (.slotRetry 1 unread [v]) s = .next t ∧
        t.apart = (s.afterCommand (commandMem s.mem 0x0B 1 unread [v])
          (s.cmd.record.opened.finished .slotRetry .refusedState 0 false)).apart) ∧
      (e.state ≠ .rejected ∨ e.cfg.provisioned = false ∨ e.latch = false →
        ∃ t, exec (.slotOverride 1 unread [v]) s = .next t ∧
          t.apart = (s.afterCommand (commandMem s.mem 0x0C 1 unread [v])
            (s.cmd.record.opened.finished .slotOverride .refusedState 0 false)).apart) ∧
      (e.state = .admitted → s.slotStill i → ∃ t, exec (.slotRelease 1 unread [v]) s = .next t ∧
        t.apart = ((s.afterCommand (commandMem s.mem 0x0A 1 unread [v])
            (s.cmd.record.opened.finished .slotRelease .done 0 false)).slotBecomes i
          { e with state := .draining, drainCause := .release, timer := some (s.osc + 10000000), pwren := true }).apart) ∧
      (e.state = .lockedOut → s.slotDark i → e.cfg.provisioned = false ∨ e.latch = false →
        ∃ t, exec (.slotRetry 1 unread [v]) s = .next t ∧
          t.apart = ((s.afterCommand (commandMem s.mem 0x0B 1 unread [v])
              (s.cmd.record.opened.finished .slotRetry .done 0 false)).slotBecomes i
            { e with state := .seated, attempts := 0, override := false, timer := none, pwren := false }).apart) ∧
      (e.state = .lockedOut → s.slotDark i → e.cfg.provisioned = true → e.latch = true → e.pgood = false →
        ∃ t, exec (.slotRetry 1 unread [v]) s = .next t ∧
          t.apart = ((s.afterCommand (commandMem s.mem 0x0B 1 unread [v])
              (s.cmd.record.opened.finished .slotRetry .done 0 false)).slotBecomes i
            { e with state := .powering, attempts := 0, override := false, timer := some (s.osc + 20000000),
                     pwren := true }).apart) ∧
      (e.state = .rejected → s.slotDark i → e.cfg.provisioned = true → e.latch = true → e.pgood = false →
        ∃ t, exec (.slotOverride 1 unread [v]) s = .next t ∧
          t.apart = ((s.afterCommand (commandMem s.mem 0x0C 1 unread [v])
              (s.cmd.record.opened.finished .slotOverride .done 0 false)).slotBecomes i
            { e with state := .powering, attempts := 0, override := true, timer := some (s.osc + 20000000),
                     pwren := true }).apart)

/-- R171, R173, R174: ALARM_RESET of a latching point that is RAISED with its source cleared takes it to CLEAR, and
reports the change unless the point is masked: with room in the log and nothing counted, as an entry of its own, and with
both relays judged again. A point in another state is passed over, and a number that names no point is refused. -/
def Obligations.AlarmResetTaken : Prop :=
  ∀ (unread : BitVec 20) (s : State), s.takesCommand → s.cmd.hub = .inService →
    (∀ v : Word, 64 ≤ v.toNat → v.toNat ≠ 255 →
      ∃ t, exec (.alarmReset 1 unread [v]) s = .next t ∧
        t.apart = (s.afterCommand (commandMem s.mem 0x0E 1 unread [v])
          (s.cmd.record.opened.finished .alarmReset .refusedParameter 1 false)).apart) ∧
    ∀ k : Fin 64,
      let v : Word := BitVec.ofNat 32 k.val
      let p := s.point k
      let done := s.afterCommand (commandMem s.mem 0x0E 1 unread [v])
        (s.cmd.record.opened.finished .alarmReset .done 0 false)
      let points := vset s.alarm.points k { p with state := .clear, count := 0, sourceCleared := false }
      (p.cfg.latching = false ∨ p.state ≠ .raised ∨ p.sourceCleared = false →
        ∃ t, exec (.alarmReset 1 unread [v]) s = .next t ∧ t.apart = done.apart) ∧
      (p.cfg.latching = true → p.state = .raised → p.sourceCleared = true →
        (p.cfg.masked = true →
          ∃ t, exec (.alarmReset 1 unread [v]) s = .next t ∧
            t.apart = ({ done with alarm := { s.alarm with points := points } } : State).apart) ∧
        (p.cfg.masked = false → s.alarm.overflow = 0 → 1 ≤ s.alarm.freePositions →
          let a := { s.alarm with points := points }
          ∃ t, exec (.alarmReset 1 unread [v]) s = .next t ∧
            t.apart = ({ done with alarm :=
              { a with
                queue := a.queue ++ [{ addr := addrOf (a.logBase + 4 * a.writeIdx), pos := a.writeIdx, seq := a.seq,
                                       body := .change k.val false p.cfg.severity p.cfg.logSlot, sec := s.time.sec,
                                       ns := s.time.ns, stale := false }]
                writeIdx := (a.writeIdx + 1) % a.logSize
                seq := (a.seq + 1) % 65536
                major := !a.anyRaised [.critical, .major]
                minor := !a.anyRaised [.minor] } } : State).apart))

/-! ## Transfers of the command unit -/

/-- R4: a setup block that passes validation has seven zones that run past no end of memory and overlap neither the
control page nor each other. R29: with the last word of a valid setup block read, the zone set is installed and the block is
kept, and the images are read (LOAD) or written (ADOPT). An invalid block leaves no zone set, returns the hub to the state it
came from, and finishes LOAD_SETUP with SETUP_INVALID and the number of the word that failed (its table 0). -/
def Obligations.SetupBlockRead : Prop :=
  (∀ b : Setup, b.fail = none →
    (∀ z ∈ b.zones.toList, z.base + z.len ≤ 0x100000 ∧ ∀ a, z.has a = true → a < 0xFFF00) ∧
    (b.zones.toList.Pairwise fun x y => ∀ a, ¬ (x.has a = true ∧ y.has a = true))) ∧
  ∀ (m : LoadMode) (addr : Nat) (got : List Word) (a : Addr) (s : State), s.busQuiet →
    s.path.holder = some (.word ⟨.command, .transfer, .read a⟩) → s.cmd.transfer = some (.setup addr got) → got.length = 12 →
    s.cmd.hub = .loading m →
    let b := Setup.ofWords (got ++ [Memory.readWord s.mem a])
    (b.fail = none →
      ∃ t, exec .setupBlockReadDone s = .next t ∧
        t.apart = ({ s with
          path := { s.path with zones := some b.zones }
          cmd := { s.cmd with setup := some b
                              transfer := some (if m = .load then .images [] [] else .writeout 0) } } : State).apart) ∧
    (∀ n, b.fail = some n → (∀ i, (s.slot i).state ≠ .seated) →
      ∃ t, exec .setupBlockReadDone s = .next t ∧
        t.apart = ({ s with
          path := { s.path with zones := none }
          cmd := { s.cmd with setup := none, hub := if m = .load then .unconfigured else .carrying
                              collection := .idle, transfer := none
                              record := s.cmd.record.finished .loadSetup .setupInvalid n false }
          alarm := s.alarm.judged (m = .adopt) } : State).apart)

/-- R28, R30, R31, R36, R180, R184: when a word of a transfer completes and the transfer is the only work for the port, the next
word is granted: of a reading, the next word of the block, of the image entry or of the staging record; of a write-back, a
write-out or an entry's rewrite, the image words in their order, each with its working value; of a snapshot, the next of
its 192 words (12.8), with its value at this moment. A transfer word that holds the port after any row held it before or is the
next word of the transfer as it stands. -/
def Obligations.TransferWordsInOrder : Prop :=
  (∀ (c : Instr) (s t : State) (w : Requester) (op : DmaOp), exec c s = .next t →
    t.path.holder = some (.word ⟨w, .transfer, op⟩) →
    s.path.holder = some (.word ⟨w, .transfer, op⟩) ∨ ∃ x, t.cmd.transfer = some x ∧ op = t.transferOp x) ∧
  (∀ (a : Addr) (s : State), s.onlyTransfers → s.path.holder = some (.word ⟨.command, .transfer, .read a⟩) →
    let goes := fun (x : Transfer) (next : Nat) => exec .portAccessComplete s = .next { s with
      path := { s.path with holder := some (.word ⟨.command, .transfer, .read (addrOf next)⟩), passedOver := 0
                            lastServed := .command }
      cmd := { s.cmd with transfer := some x, lastSource := .transfer } }
    let v := Memory.readWord s.mem a
    (∀ addr got, s.cmd.transfer = some (.setup addr got) → got.length < 12 →
      goes (.setup addr (got ++ [v])) (addr + got.length + 1)) ∧
    (∀ k i addr got, s.cmd.transfer = some (.staging k i addr got) → got.length + 1 < k.cfgWords i →
      goes (.staging k i addr (got ++ [v])) (addr + got.length + 1)) ∧
    (∀ (done : List (List Word)) (got : List Word) (z : ZoneSet) (k : Table) (i : Nat),
      s.cmd.transfer = some (.images done got) → s.path.zones = some z → loadEntries[done.length]? = some (k, i) →
      got.length + 1 < k.cfgWords i →
      goes (.images done (got ++ [v])) (z.imageBase k + k.words * i + got.length + 1))) ∧
  (∀ (a : Addr) (d : Word) (s : State), s.onlyTransfers →
    s.path.holder = some (.word ⟨.command, .transfer, .write a d⟩) →
    let goes := fun (x : Transfer) (next : Nat) (v : Word) => exec .portAccessComplete s = .next { s with
      mem := Memory.writeWord s.mem a d allBytes
      path := { s.path with holder := some (.word ⟨.command, .transfer, .write (addrOf next) v⟩), passedOver := 0
                            lastServed := .command }
      cmd := { s.cmd with transfer := some x, lastSource := .transfer } }
    (∀ addr clear k, s.cmd.transfer = some (.snapshot addr clear k) → k < 191 →
      goes (.snapshot addr clear (k + 1)) (addr + (k + 1)) (wordOf ((s.snapshotWords clear).getD (k + 1) 0))) ∧
    (∀ (z : ZoneSet) (k : Nat), s.path.zones = some z → s.cmd.transfer = some (.writeback k) → k < 127 →
      let n := k + 1
      let w : ImgWord := if n < 60 then ⟨.port, n / 5 + 1, 3 + n % 5⟩
        else if n < 124 then ⟨.alarmPoint, n - 60, 3⟩ else ⟨.reference, n - 124, 1⟩
      goes (.writeback n) (z.imageBase w.table + w.table.words * w.index + w.word) (s.imageValue w)) ∧
    (∀ (z : ZoneSet) (k : Nat), s.path.zones = some z → s.cmd.transfer = some (.writeout k) → k < 495 →
      let n := k + 1
      let w : ImgWord := if n < 104 then ⟨.port, n / 8, n % 8⟩
        else if n < 232 then ⟨.group, (n - 104) / 2, n % 2⟩
        else if n < 488 then ⟨.alarmPoint, (n - 232) / 4, n % 4⟩ else ⟨.reference, (n - 488) / 2, n % 2⟩
      goes (.writeout n) (z.imageBase w.table + w.table.words * w.index + w.word) (s.imageValue w)) ∧
    (∀ (z : ZoneSet) (k : Table) (i n : Nat), s.path.zones = some z → s.cmd.transfer = some (.entryRewrite k i n) →
      n + 1 < k.words →
      goes (.entryRewrite k i (n + 1)) (z.imageBase k + k.words * i + (n + 1)) (s.imageValue ⟨k, i, n + 1⟩)))

/-- R185, R36, R186, 12.5, 12.8: the image words and the snapshot words. Only GH412-maintained words of the tables enter the image
rewrite set, and an image word that holds the port after any row, not of a transfer, held it before or is such a word with the
working value of that moment, at its own address. The GH412-maintained words of an entry are laid out as
12.5 says, and the words of a snapshot stand in the order of 12.8. -/
def Obligations.ImageAndSnapshotWords : Prop :=
  (∀ (c : Instr) (s t : State),
    let kept := fun (w : ImgWord) => w.table = .port ∧ 1 ≤ w.index ∧ w.index ≤ 12 ∧ 3 ≤ w.word ∧ w.word ≤ 7 ∨
      w.table = .alarmPoint ∧ w.index < 64 ∧ w.word = 3 ∨ w.table = .reference ∧ w.index < 4 ∧ w.word = 1
    (∀ w ∈ s.cmd.images, kept w) → exec c s = .next t →
    (∀ w ∈ t.cmd.images, kept w) ∧
      ∀ (r : Requester) (op : DmaOp), t.path.holder = some (.word ⟨r, .image, op⟩) →
        s.path.holder = some (.word ⟨r, .image, op⟩) ∨ ∃ w, kept w ∧ op = .write (t.imageAddr w) (t.imageValue w)) ∧
  (∀ (i : Slot) (s : State),
    let e := s.slot i
    let w := fun k => s.imageValue ⟨.port, i.val + 1, k⟩
    e.missed < 16 → e.alt < 4 → e.attempts < 4 → e.delayA.value < 8192 → e.delayB.value < 8192 →
    (∀ d, e.card = some d → d.maxPayload < 2048) →
    field (w 3) 0 4 = e.state.code ∧ (w 3).getLsbD 4 = e.fenced ∧ (w 3).getLsbD 5 = (e.active == .b) ∧
      field (w 3) 6 2 = e.laneA.code ∧ field (w 3) 8 2 = e.laneB.code ∧ field (w 3) 10 4 = e.missed ∧
      (w 3).getLsbD 14 = e.override ∧ field (w 3) 15 2 = e.drainCause.code ∧ field (w 3) 17 3 = e.reason.code ∧
      (w 3).getLsbD 20 = e.card.isSome ∧ field (w 3) 21 11 = (match e.card with | some d => d.maxPayload | none => 0) ∧
      field (w 4) 0 13 = e.delayA.value ∧ (w 4).getLsbD 13 = e.delayA.valid ∧ field (w 4) 14 2 = e.alt ∧
      field (w 4) 16 13 = e.delayB.value ∧ (w 4).getLsbD 29 = e.delayB.valid ∧ field (w 4) 30 2 = e.attempts ∧
      (∀ d, e.card = some d → w 5 = d.revision ++ d.cardType ∧ w 6 = d.serial1 ∧ w 7 = d.serial2) ∧
      (e.card = none → w 5 = 0 ∧ w 6 = 0 ∧ w 7 = 0)) ∧
  (∀ (k : Fin 64) (j : Fin 4) (s : State), (s.point k).count < 256 → (s.ref j).good < 4 →
    let w := s.imageValue ⟨.alarmPoint, k.val, 3⟩
    let v := s.imageValue ⟨.reference, j.val, 1⟩
    field w 0 2 = (s.point k).state.code ∧ field w 8 8 = (s.point k).count ∧ w.getLsbD 16 = (s.point k).sourceCleared ∧
      v.getLsbD 0 = (s.ref j).qualified ∧ field v 8 2 = (s.ref j).good) ∧
  (∀ (clear : Bool) (s : State),
    let w := fun n => (s.snapshotWords clear).getD n 0
    let at_ := fun (n : Nat) (l : List Nat) => (List.range l.length).map (fun j => w (n + j)) = l
    let p := vget s.sw.counters 0
    let lanes := fun (n : Nat) (q : Plane) =>
      at_ n ([fun l : LanePort => l.partialCount, (·.setAside), (·.resend), (·.notSent)].map
        (fun f => min ((allSlots.map (fun i => f (s.lane i q))).sum) 4294967295))
    (s.snapshotWords clear).length = 192 ∧
      at_ 0 [0x10412, s.cmd.record.accepted + (if clear then 65536 else 0), s.time.sec, s.time.ns, s.time.mark, s.sw.free] ∧
      at_ 6 [p.framesIn, p.framesOut, p.badDestination, p.poolEmpty, p.notServing, p.portClosed, p.queueFull, p.flushed] ∧
      (∀ i : Slot, let c := vget s.sw.counters (portOf i)
        at_ (14 + 12 * i.val) [c.framesIn, c.framesOut, c.check, c.overlength, c.spoofed, c.notAdmitted,
          c.badDestination, c.poolEmpty, c.notServing, c.queueFull, c.timeGated, c.flushed]) ∧
      lanes 158 .a ∧ lanes 162 .b ∧
      at_ 166 [s.path.guardedCount, s.path.partialCount, s.ring.counters.placed, s.ring.counters.missed,
        s.ring.counters.badBuffer, s.ring.counters.accepted, s.ring.counters.someLost, s.ring.counters.undeliverable,
        s.ring.counters.overlength, s.ring.counters.badDestination, s.ring.counters.malformed] ∧
      at_ 177 [s.cyc.counters.attempts, s.cyc.counters.succeeded, s.cyc.counters.unanswered, s.cyc.counters.absent,
        s.cyc.counters.stray, s.cyc.counters.slips, s.cyc.counters.timeNotSent, s.cyc.counters.faults, s.time.steps,
        s.time.setApplied, s.time.discardedRefs, s.time.intervalRejects, s.time.watchExpiries, s.sm.discarded,
        s.alarm.ignored])

/-- R30: with the last word of the last image read and every record valid, the controller-set fields of all four tables
are installed at one moment, the maintained fields of points and references take their initial values, the slots stay as they
are, and the write-back begins. A record that fails ends LOAD_SETUP with SETUP_INVALID, the entry and the table. (No reference entry
qualified: none is in UNCONFIGURED.) The model's readings, DEDUCED: of an image entry the words with controller-set fields are
read, so that the last entry, a reference entry, is one word (assumption log 39), and the maintained fields of a slot keep their
values (R58; assumption log 42). -/
def Obligations.LoadImagesRead : Prop :=
  ∀ (done : List (List Word)) (got : List Word) (a : Addr) (s : State), s.busQuiet →
    s.path.holder = some (.word ⟨.command, .transfer, .read a⟩) → s.cmd.transfer = some (.images done got) →
    s.cmd.hub = .loading .load →
    let v := Memory.readWord s.mem a
    let all := done ++ [[v]]
    (done.length = 144 → got = [] → recordFail .reference 3 [v] = none → (∀ k, (s.ref k).qualified = false) →
      ∃ t, exec .loadImagesReadDone s = .next t ∧
        t.apart = ({ s with
          cmd := { s.cmd with transfer := some (.writeback 0) }
          sm := { s.sm with
            slots := Vector.ofFn (fun i : Fin 12 => { s.slot i with cfg := PortCfg.ofWords (all.getD (i.val + 1) []) })
            q0Limit := field ((all.getD 0 []).getD 0 0) 0 10 }
          sw := { s.sw with groups := Vector.ofFn (fun k : Fin 64 => Group.ofWords (all.getD (13 + k.val) [])) }
          alarm := { s.alarm with points := Vector.ofFn (fun k : Fin 64 =>
            { Point.cold with cfg := PointCfg.ofWords (all.getD (77 + k.val) []) }) }
          time := { s.time with refs := Vector.ofFn (fun k : Fin 4 =>
            { RefEntry.cold with cfg := RefCfg.ofWords (all.getD (141 + k.val) []) }) } } : State).apart) ∧
    (∀ (k : Table) (i n : Nat), loadEntries[done.length]? = some (k, i) → got.length + 1 = k.cfgWords i →
      recordFail k i (got ++ [v]) = some n →
      ∃ t, exec .loadImagesReadDone s = .next t ∧
        t.apart = ({ s with
          path := { s.path with zones := none }
          cmd := { s.cmd with setup := none, hub := .unconfigured, collection := .idle, transfer := none
                              record := { s.cmd.record with done := s.cmd.record.accepted, lastCode := 0x01,
                                                            result := .setupInvalid, fail := ⟨i, k.code⟩,
                                                            clamped := false } }
          alarm := { s.alarm with major := false, minor := false } } : State).apart)

/-- R30, R31, R29, R177, R178: with the last word of a LOAD's write-back or of an ADOPT's write-out performed the hub is
IN_SERVICE: the mask is the setup block's, the ring parameters and the poll response timeout take effect, the log starts
anew, its first entry an OVERFLOW entry where an overflow is counted, the relays are judged and LOAD_SETUP finishes with DONE.
R62: every SEATED slot that is provisioned with its latch closed enters POWERING at the entry, with SLOT_CHANGE under the new mask
(none of these with power-good asserted already, and without lanes). (The order of these effects is the model's reading, DEDUCED:
assumption log 20.) -/
def Obligations.ServiceEntered : Prop :=
  ∀ (b : Setup) (a : Addr) (d : Word) (s : State), s.busQuiet →
    s.path.holder = some (.word ⟨.command, .transfer, .write a d⟩) → s.cmd.setup = some b →
    let powers := fun (i : Slot) => (s.slot i).state == .seated && (s.slot i).cfg.provisioned && (s.slot i).latch
    (∀ i, powers i = true → s.slotDark i ∧ (s.slot i).pgood = false) →
    let n := s.alarm.overflow
    let first : LogEntry :=
      { addr := addrOf b.logBase, pos := 0, seq := s.alarm.seq, body := .overflow n, sec := s.time.sec, ns := s.time.ns
        stale := false }
    let after := (State.withCauses { s with
      mem := Memory.writeWord s.mem a d allBytes
      cmd := { s.cmd with mask := b.mask.extractLsb' 0 12, setup := none, hub := .inService, collection := .idle
                          transfer := none, record := s.cmd.record.finished .loadSetup .done 0 false }
      ring := { s.ring with params := some b.rings, rxIdx := 0, txIdx := 0 }
      cyc := { s.cyc with timeoutUs := b.pollUs }
      sm := { s.sm with slots := Vector.ofFn (fun i : Fin 12 => if powers i
        then { s.slot i with state := .powering, timer := some (s.osc + 20000000), pwren := true } else s.slot i) }
      alarm := { s.alarm.judged true with
        logBase := b.logBase, logSize := b.logSize, producer := 0, consumer := 0
        writeIdx := if n = 0 then 0 else 1 % b.logSize
        seq := if n = 0 then s.alarm.seq else (s.alarm.seq + 1) % 65536
        overflow := 0
        queue := s.alarm.queue.map (fun e => { e with stale := true }) ++ if n = 0 then [] else [first] } }
      (if (List.finRange 12).any powers then 0x200 else 0)).apart
    (s.cmd.hub = .loading .load → s.cmd.transfer = some (.writeback 127) →
      ∃ t, exec .loadWritebackDone s = .next t ∧ t.apart = after) ∧
    (s.cmd.hub = .loading .adopt → s.cmd.transfer = some (.writeout 495) →
      ∃ t, exec .adoptWriteoutDone s = .next t ∧ t.apart = after)

/-- R36, R184: the last word of a COUNTER_SNAPSHOT or of an image entry's rewrite finishes its command with DONE; a
snapshot with the clear flag sets every counter it holds to 0 at that moment (R186). R9: a guarded write or a partial control
write that arrives while the last snapshot word holds the port, so after its count has been copied, is lost from the count: the
clear sets both counts to 0, and they stay 0 when the partial write, which has waited, is performed. -/
def Obligations.TransfersFinish : Prop :=
  (∀ (a b : Addr) (d v : Word) (be : ByteEnables) (x : Nat) (s : State), s.busQuiet → s.path.passedOver < 16 →
    s.path.holder = some (.word ⟨.command, .transfer, .write a d⟩) → s.cmd.transfer = some (.snapshot x true 191) →
    (s.classify b be = .guarded →
      ∃ t u, exec (.guardedWrite b v be) s = .next t ∧ exec .counterSnapshotDone t = .next u ∧
        t.path.guardedCount = min (s.path.guardedCount + 1) 4294967295 ∧ u.path.guardedCount = 0) ∧
    (∀ o : BitVec 8, controlWordOffset o.toNat = true → be ≠ 0xF →
      ∃ t u w, exec (.partialControlWrite o v be) s = .next t ∧ exec .counterSnapshotDone t = .next u ∧
        exec .portAccessComplete u = .next w ∧
        t.path.partialCount = min (s.path.partialCount + 1) 4294967295 ∧ t.path.waiting.isSome = true ∧
        u.path.partialCount = 0 ∧ u.path.waiting = none ∧
        w.path.partialCount = 0 ∧ w.mem = Memory.writeWord u.mem (pageAddr o.toNat) v be)) ∧
  ∀ (a : Addr) (d : Word) (s : State), s.busQuiet → s.path.holder = some (.word ⟨.command, .transfer, .write a d⟩) →
    let after := fun (c : Command) => ({ s with
      mem := Memory.writeWord s.mem a d allBytes
      cmd := { s.cmd with collection := .idle, transfer := none, record := s.cmd.record.finished c .done 0 false } } : State)
    (∀ x : Nat, s.cmd.transfer = some (.snapshot x false 191) →
      ∃ t, exec .counterSnapshotDone s = .next t ∧ t.apart = (after .counterSnapshot).apart) ∧
    (∀ x : Nat, s.cmd.transfer = some (.snapshot x true 191) →
      ∃ t, exec .counterSnapshotDone s = .next t ∧
        t.apart = ({ after .counterSnapshot with
          path := { s.path with guardedCount := 0, partialCount := 0 }
          lanes := s.lanes.map (fun l =>
            { a := { l.a with partialCount := 0, setAside := 0, resend := 0, notSent := 0 }
              b := { l.b with partialCount := 0, setAside := 0, resend := 0, notSent := 0 } })
          sm := { s.sm with discarded := 0 }
          sw := { s.sw with counters := Vector.replicate 13 PortCounters.zero }
          ring := { s.ring with counters := RingCounters.zero }
          time := { s.time with steps := 0, setApplied := 0, discardedRefs := 0, intervalRejects := 0, watchExpiries := 0 }
          cyc := { s.cyc with counters := CycleCounters.zero }
          alarm := { s.alarm with ignored := 0 } } : State).apart) ∧
    (∀ (k : Table) (i n : Nat), s.cmd.transfer = some (.entryRewrite k i n) → n + 1 = k.words →
      ∃ t, exec .imageEntryRewriteDone s = .next t ∧ t.apart = (after .tableUpdate).apart)

/-- R181: with the last controller-set word of a staging record read, a record that fails finishes TABLE_UPDATE with
UPDATE_INVALID and the number of the field, and changes no table (that the failing item then names no table, its table 0, is
the model's choice, DEDUCED: assumption log 29). A valid record is handed to its owner and its image is
rewritten. R93: a GROUP record replaces the entry whole. R118: a REFERENCE record starts its entry afresh. R182: a PORT record of a
slot replaces its fields; a limit that rises is told to the ring engine; a time gate that falls below the quality flushes the TIMED
queue; a new plane policy clears the alternate-success count, except to AUTO, and moves an ADMITTED or DRAINING slot to the plane
it asks for; a slot no longer provisioned goes from ADMITTED to DRAINING, and from POWERING, TRAINING and IDENTIFYING to SEATED; a
SEATED slot that is now provisioned is powered as R62 says (not more than one of provisioning, policy and gate changed at once). A
record of port 0 replaces the limit of queue 0. R183: an ALARM_POINT record that keeps the point's source keeps its state; one that
changes it takes the point to CLEAR, logged by its old fields where it stood unmasked (with room in the log and nothing counted),
and installs the fields; the relays are judged again. -/
def Obligations.StagingRecordRead : Prop :=
  ∀ (k : Table) (i addr : Nat) (got : List Word) (a : Addr) (s : State), s.busQuiet →
    s.path.holder = some (.word ⟨.command, .transfer, .read a⟩) → s.cmd.transfer = some (.staging k i addr got) →
    got.length + 1 = k.cfgWords i →
    let ws := got ++ [Memory.readWord s.mem a]
    let rewriting := ({ s with cmd := { s.cmd with transfer := some (.entryRewrite k i 0) } } : State)
    (∀ n, recordFail k i ws = some n →
      ∃ t, exec .stagingRecordReadDone s = .next t ∧
        t.apart = ({ s with cmd := { s.cmd with collection := .idle, transfer := none
                                                record := s.cmd.record.finished .tableUpdate .updateInvalid n false } }
                    : State).apart) ∧
    (recordFail k i ws = none →
      (∀ h : i < 64, k = .group →
        ∃ t, exec .stagingRecordReadDone s = .next t ∧
          t.apart = ({ rewriting with sw := { s.sw with groups := vset s.sw.groups ⟨i, h⟩ (Group.ofWords ws) } }
            : State).apart) ∧
      (∀ h : i < 4, k = .reference → (s.ref ⟨i, h⟩).qualified = false →
        ∃ t, exec .stagingRecordReadDone s = .next t ∧
          t.apart = ({ rewriting with time := { s.time with
            refs := vset s.time.refs ⟨i, h⟩ { RefEntry.cold with cfg := RefCfg.ofWords ws } } } : State).apart) ∧
      (∀ j : Slot, k = .port → i = j.val + 1 →
        let e := s.slot j
        let c := PortCfg.ofWords ws
        let e1 : SlotEntry := { e with cfg := c }
        let room : RingEngine := { s.ring with tx := s.ring.tx.map TxMove.roomSeen }
        let u : State := { rewriting with
          ring := if e.cfg.timedLimit < c.timedLimit ∨ e.cfg.bulkLimit < c.bulkLimit then room else s.ring }
        let ends := fun (t' : State) => ∃ t, exec .stagingRecordReadDone s = .next t ∧ t.apart = t'.apart
        let shut := c.gate ≠ e.cfg.gate ∧ c.gate < s.sw.quality
        let withdrawn := e.cfg.provisioned = true ∧ c.provisioned = false
        let mayPower := s.cmd.hub.allowsPowering = true ∧ c.provisioned = true ∧ e.latch = true
        (¬ shut → c.policy = e.cfg.policy → ¬ (withdrawn ∧ e.state ∈ [.powering, .training, .identifying, .admitted]) →
          ¬ (e.state = .seated ∧ mayPower) → ends (u.setSlot j e1)) ∧
        (¬ shut → c.policy = e.cfg.policy → withdrawn →
          (e.state = .powering → s.slotDark j →
            ends (u.slotBecomes j { e1 with state := .seated, timer := none, pwren := false, override := false })) ∧
          (e.state = .training ∨ e.state = .identifying → s.slotDark j →
            ends (State.slotBecomes { u with lanes := vset s.lanes j (vget s.lanes j).disabled } j { e1 with
              state := .seated, timer := none, pwren := false, override := false, laneA := .off, laneB := .off })) ∧
          (e.state = .admitted → s.slotStill j →
            ends (u.slotBecomes j { e1 with
              state := .draining, drainCause := .unprovision, timer := some (s.osc + 10000000), pwren := true }))) ∧
        (¬ shut → c.policy = e.cfg.policy → e.state = .seated → mayPower → e.pgood = false → s.slotDark j →
          ends (u.slotBecomes j { e1 with state := .powering, timer := some (s.osc + 20000000), pwren := true })) ∧
        (¬ shut → c.policy ≠ e.cfg.policy → ¬ withdrawn → e.state ≠ .seated → s.slotStill j →
          let e2 : SlotEntry := { e1 with alt := if c.policy = .auto then e.alt else 0 }
          let asks := fun (q : Plane) => (e.state = .admitted ∨ e.state = .draining) ∧ q ≠ e.active ∧ e.laneState q = .up ∧
            (c.policy = .auto ∧ e.laneState e.active ≠ .up ∨ c.policy = .pinA ∧ q = .a ∨ c.policy = .pinB ∧ q = .b)
          (∀ q, asks q → ends (u.slotBecomes j { e2 with active := q, alt := 0 })) ∧
          ((∀ q, ¬ asks q) → ends (u.setSlot j e2))) ∧
        (shut → (∃ t, exec .stagingRecordReadDone s = .next t ∧ (t.slot j).cfg = c ∧ t.sw.queue j .timed = EgressQueue.nil) ∧
          ∀ f : Stored, c.policy = e.cfg.policy → ¬ withdrawn → e.state ≠ .seated →
            s.sw.queue j .timed = ⟨[f.id], []⟩ → s.sw.find f.id = some f → f.refs = 1 → s.sw.queue j .bulk = EgressQueue.nil →
            (∀ q, (s.lane j q).tx = .none ∧ (s.lane j q).queue = []) →
            ends (State.setSlot { u with
              ring := room
              sw := { s.sw.setQueue j .timed EgressQueue.nil with
                free := s.sw.free + f.blocks, stored := s.sw.stored.filter (·.id ≠ f.id)
                counters := vset s.sw.counters (portOf j) { vget s.sw.counters (portOf j) with
                  flushed := min ((vget s.sw.counters (portOf j)).flushed + 1) 4294967295 } } } j e1))) ∧
      (k = .port → i = 0 →
        let limit := field (ws.getD 0 0) 0 10
        ∃ t, exec .stagingRecordReadDone s = .next t ∧
          t.apart = ({ rewriting with
            sm := { s.sm with q0Limit := limit }
            ring := if s.sm.q0Limit < limit then { s.ring with tx := s.ring.tx.map TxMove.roomSeen } else s.ring }
              : State).apart) ∧
      (∀ h : i < 64, k = .alarmPoint →
        let p := s.point ⟨i, h⟩
        let c := PointCfg.ofWords ws
        let same := p.cfg.enabled = true ∧ c.enabled = true ∧ c.kind = p.cfg.kind ∧ c.selector = p.cfg.selector ∧
          (p.cfg.kind = .contact → c.whenOpen = p.cfg.whenOpen)
        let standing := p.state = .raised ∨ p.state = .pendingClear
        let a := s.alarm
        let ends := fun (a' : AlarmUnit) => ∃ t, exec .stagingRecordReadDone s = .next t ∧
          t.apart = ({ rewriting with alarm := a'.judged s.cmd.hub.relaysOn } : State).apart
        let kept : Point := { cfg := c, count := 0, sourceCleared := p.sourceCleared && c.latching
                              state := if p.state = .pendingClear ∧ c.latching = true then .raised else p.state }
        let fresh := vset a.points ⟨i, h⟩ { Point.cold with cfg := c }
        (same → ends { a with points := vset a.points ⟨i, h⟩ kept }) ∧
        (¬ same → ¬ standing ∨ p.cfg.masked = true → ends { a with points := fresh }) ∧
        (¬ same → standing → p.cfg.masked = false → s.cmd.hub = .inService → a.overflow = 0 → 1 ≤ a.freePositions →
          ends { a with
            points := fresh
            queue := a.queue ++ [{ addr := addrOf (a.logBase + 4 * a.writeIdx), pos := a.writeIdx, seq := a.seq
                                   body := .change i false p.cfg.severity p.cfg.logSlot, sec := s.time.sec
                                   ns := s.time.ns, stale := false }]
            writeIdx := (a.writeIdx + 1) % a.logSize
            seq := (a.seq + 1) % 65536 })))

/-! ## Resets -/

/-- R15, R37, R111, R152: a controller reset, in any state. The access holding the port has completed (an access of the
controller is performed and handed over first) and no access of the controller waits. The guarded-write count, the last guarded
address and the partial-control-write count are kept. The hub state follows R37; the command
unit is as after a cold reset but for the hub state and the time snapshot, and every word of offsets 20h to 5Bh is still to be
rewritten, or is the first granted; the zone set is empty, the rings are stopped and the
cycle engine idle. The cards stay powered: no slot that was not SEATED changes its state, and cabinet time goes on. (The
model's choices, DEDUCED: that the time snapshot words and a command word that waits are as assumption log 22 says (the line of
accesses is dropped with the one that waits, a partial write that waits stays counted, and a controller access that holds the port is handed over before the reset), and
that an examination in progress ends with the reset, `exam := none`, as assumption log 24 says.) -/
def Obligations.ControllerResetTaken : Prop :=
  ∀ s : State,
    let u : State := match s.path.holder with
      | some (.controller c) => (s.release.perform c.acc).handOver c
      | _ => s
    ∃ t, exec .controllerReset s = .next t ∧
    (t.mem = match s.path.holder with
      | some (.word ⟨_, _, .write a d⟩) => Memory.writeWord s.mem a d allBytes
      | some (.controller ⟨.write a d be, _⟩) => Memory.writeWord s.mem a d be
      | _ => s.mem) ∧
    t.path.waiting = none ∧ t.path.line = [] ∧ t.path.cdata = u.path.cdata ∧ t.path.zones = none ∧
    t.path.guardedCount = u.path.guardedCount ∧ t.path.lastGuarded = u.path.lastGuarded ∧
    t.path.partialCount = u.path.partialCount ∧
    t.cmd.hub = (match u.cmd.hub with
      | .unconfigured => .unconfigured
      | .loading .load => .unconfigured
      | .loading .adopt => .carrying
      | .inService => .carrying
      | .carrying => .carrying
      | .shuttingDown => .shuttingDown) ∧
    t.cmd.collection = .idle ∧ t.cmd.transfer = none ∧ t.cmd.setup = none ∧ t.cmd.record = CmdRecord.cold ∧
    t.cmd.mask = 0 ∧ t.cmd.pending = 0 ∧ t.attn = false ∧ t.cmd.snapSec = u.cmd.snapSec ∧ t.cmd.snapNs = u.cmd.snapNs ∧
    t.cmd.images = [] ∧ (∀ o, o ∈ t.cmd.rewrite → 0x20 ≤ o ∧ o ≤ 0x5B) ∧
    (∀ o, 0x20 ≤ o → o ≤ 0x5B → o ∈ t.cmd.rewrite ∨
      t.path.holder = some (.word ⟨.command, .status o false, .write (pageAddr o) (t.statusWord o)⟩)) ∧
    t.ring.state = .stopped ∧ t.ring.rxIdx = 0 ∧ t.ring.txIdx = 0 ∧ t.ring.rx = none ∧ t.ring.tx = none ∧
    t.ring.exam = none ∧ t.cyc.state = .idle ∧ t.cyc.stack = [] ∧ t.cyc.entry = none ∧
    t.time.sec = u.time.sec ∧ t.time.ns = u.time.ns ∧ t.time.trim = u.time.trim ∧ t.osc = u.osc ∧
    ∀ i, (u.slot i).state ≠ .seated → (t.slot i).state = (u.slot i).state

/-- R16, R38, R57, R78, R97, R112, R133, R153, R179: a cold reset, in any state. Every block is at its cold values; the
pins keep their levels, and a card present starts its debounce. A word of memory that was being written, by the GH412 or by the
controller, holds its earlier or its new content in each byte enabled, and every other byte is as before. (The model's choices:
the levels of the contacts and the pins are kept, the controller's line of accesses not yet on the bus is dropped, and oscillator
time is counted from the reset, DEDUCED, assumption log 23; which bytes hold the new content is free, assumption log 11; byte
enable j stores bits 8j+7 to 8j, which are byte 4a + j of memory, assumption logs 41 and 2.) -/
def Obligations.ColdResetTaken : Prop :=
  ∀ s : State, ∃ t, exec .coldReset s = .next t ∧ t.osc = 0 ∧
    t.path = MemoryPath.cold ∧ t.cmd = CommandUnit.cold ∧ t.sw = SwitchCore.cold ∧ t.ring = RingEngine.cold ∧
    t.time = TimeBase.cold ∧ t.cyc = CycleEngine.cold ∧ t.alarm = { AlarmUnit.cold with contacts := s.alarm.contacts } ∧
    t.sm.q0Limit = 128 ∧ t.sm.discarded = 0 ∧
    (∀ i p, t.lane i p = { LanePort.cold with lastOut := (t.lane i p).lastOut }) ∧
    (∀ i, t.slot i = { SlotEntry.cold with
      pres := (s.slot i).pres, latch := (s.slot i).latch, pgood := (s.slot i).pgood
      timer := if (s.slot i).pres then some (t.osc + 5000000) else none }) ∧
    (Memory.WF s.mem → ∀ b, Memory.read t.mem b = Memory.read s.mem b ∨
      ∃ (a : Addr) (d : Word) (be : ByteEnables),
        ((∃ w p, s.path.holder = some (.word ⟨w, p, .write a d⟩) ∧ be = allBytes) ∨
          ∃ k, s.path.holder = some (.controller ⟨.write a d be, k⟩)) ∧
        4 * a.toNat ≤ b ∧ b < 4 * a.toNat + 4 ∧ be.getLsbD (b - 4 * a.toNat) = true ∧
        Memory.read t.mem b = Memory.byteOf d (b - 4 * a.toNat))

/-! ## Lanes and frames -/

/-- R40, R64, R65, R77: training completion takes a lane in TRAINING to UP. In a slot in TRAINING whose other lane is not
UP it takes the slot to IDENTIFYING with the ident wait running, and an IDENT_REQUEST starts on the lane; a slot that is
IDENTIFYING already sends one on this lane too. In a slot in another state, or in TRAINING with frames waiting, the lane is UP
all the same, and the slot's state is as R64 says. On a lane that is not in TRAINING nothing happens (the model's choice, an
event that cannot happen is passed over: assumption log 4). -/
def Obligations.LaneTrains : Prop :=
  ∀ (i : Slot) (p : Plane) (s : State), s.busQuiet →
    ((s.lane i p).state ≠ .training → ∃ t, exec (.trainingComplete i p) s = .next t ∧ t.apart = s.apart) ∧
    ((s.lane i p).state = .training → (s.lane i p).queue = [] → (s.lane i p).tx = .none →
      let up := s.setLane i p { s.lane i p with
        state := .up, tx := .control ⟨.identRequest, .slotManager⟩ (controlFrame i .identRequest []) }
      let e := (s.slot i).setLaneState p .up
      ((s.slot i).state = .training → (s.lane i p.other).state ≠ .up →
        ∃ t, exec (.trainingComplete i p) s = .next t ∧
          t.apart = (up.slotBecomes i { e with
            state := .identifying, timer := some (s.osc + 100000000), pwren := true }).apart) ∧
      ((s.slot i).state = .identifying →
        ∃ t, exec (.trainingComplete i p) s = .next t ∧ t.apart = (up.setSlot i e).apart)) ∧
    ((s.lane i p).state = .training → ∃ t, exec (.trainingComplete i p) s = .next t ∧ (t.lane i p).state = .up ∧
      (t.slot i).laneState p = .up ∧
      (t.slot i).state = if (s.slot i).state = .training then .identifying else (s.slot i).state)

/-- R40, R41, R52, R56, R157: loss of signal takes a lane in UP back to TRAINING. The frame being received becomes a partial
frame, a control frame in transmission is cut, the control frames queued are removed, all of these counted as not sent, and the
plane's delay is no longer valid. Here in a slot in IDENTIFYING with no cycle entry in progress and no reference entry naming the
slot. A DATA frame in transmission, here in an ADMITTED slot whose other lane is UP and whose policy asks for no other plane, is
cut and counted for resending; it stays in its queue, and the lane's claim on it ends. R159, R160: loss of signal on the active
plane of an ADMITTED slot whose policy is AUTO and whose other lane is UP moves the active plane to the other (nothing to send in
the slot, no cycle entry in progress, no reference entry and no card point naming the slot). On a lane that is not UP nothing
happens: on a lane in TRAINING as R40 says, on a lane that is OFF by the model's choice (an event that cannot happen is passed
over, assumption log 4). (How many bytes of a frame cut had gone out is free: assumption log 15.) -/
def Obligations.SignalLossTaken : Prop :=
  ∀ (i : Slot) (p : Plane) (s : State), s.busQuiet →
    let l := s.lane i p
    let sent := fun (bs : List Byte) => bs.take (Config.bytesSent s.draws i p)
    let e := (s.slot i).setLaneState p .training
    let lost := e.setDelay p { e.delay p with valid := false }
    let partials := if l.staging.isSome then min (l.partialCount + 1) 4294967295 else l.partialCount
    (l.state ≠ .up → ∃ t, exec (.lossOfSignal i p) s = .next t ∧ t.apart = s.apart) ∧
    (l.state = .up → (s.slot i).laneState p = .up → s.cyc.entry = none → (∀ k, (s.ref k).names i = false) →
      ((s.slot i).state = .identifying →
        (l.tx = .none →
          ∃ t, exec (.lossOfSignal i p) s = .next t ∧
            t.apart = ((s.setLane i p { l with
              state := .training, staging := none, queue := [], partialCount := partials
              notSent := min (l.notSent + l.queue.length) 4294967295 }).setSlot i lost).apart) ∧
        (∀ (f : CtlFrame) (bs : List Byte), l.tx = .control f bs →
          ∃ t, exec (.lossOfSignal i p) s = .next t ∧
            t.apart = (({ s with draws := s.draws + 1 }.setLane i p { l with
              state := .training, staging := none, queue := [], tx := .none, partialCount := partials
              notSent := min (l.notSent + (l.queue.length + 1)) 4294967295, lastOut := .cut (sent bs) }).setSlot i
                lost).apart)) ∧
      (∀ (c : Cls) (f : Stored), (s.slot i).state = .admitted → lost.wantsPlane = none →
        (s.slot i).laneState p.other = .up → l.queue = [] → l.notSent ≤ 4294967295 → l.tx = .data c f.id →
        (s.lane i p.other).tx ≠ .none → s.sw.find f.id = some f → 2 ≤ f.refs →
        ∃ t, exec (.lossOfSignal i p) s = .next t ∧
          t.apart = (({ s with
              draws := s.draws + 1
              sw := { s.sw with stored := s.sw.stored.map (fun x : Stored => if x.id = f.id then { x with refs := x.refs - 1 } else x) }
              }.setLane i p { l with
                state := .training, staging := none, tx := .none, partialCount := partials
                resend := min (l.resend + 1) 4294967295, lastOut := .cut (sent (f.header ++ f.payload)) }).setSlot i
                  lost).apart) ∧
      (s.slotStill i → (s.slot i).state = .admitted → (s.slot i).cfg.policy = .auto → (s.slot i).active = p →
        (s.slot i).laneState p.other = .up → l.tx = .none → l.notSent ≤ 4294967295 →
        ∃ t, exec (.lossOfSignal i p) s = .next t ∧
          t.apart = ((s.setLane i p { l with state := .training, staging := none, partialCount := partials }).slotBecomes i
            { lost with active := p.other, alt := 0 }).apart))

/-- R44, R54: a frame start on a lane in UP puts the frame into the staging buffer, stamped with cabinet time at that
instant; of the bytes that follow, the first 2,052 are kept, all but the last four have gone into the check register, and a
frame that was still being received is counted as partial (R56). R45, R46, R47: at its end a frame that is not whole, that is
longer than 2,040 bytes or than its card may send, that names another source, or whose kind or payload the slot's state does not
accept, is discarded and counted at its slot's port, the first two also marked as a link error (no attempt of the cycle engine in
progress). R48, R79 to R83: a DATA frame of an ADMITTED or DRAINING slot is counted in and decided: a destination that names no
port but its own is bad; a port that does not serve, a closed time gate, an empty pool and a full queue lose it, each with its
count; else it is stored once and appended to the queue of every port it is for: port 0, one slot, the members of a group but its
source, or with 127 the serving slots but its source (the lanes of the slots it is for not free to start it). Each port it names
and cannot go to is a loss of its own, port 0 too when the rings do not run or queue 0 is full, and it goes to the others; with an
empty pool it goes to none (the losses at closed ports stay counted: the model's reading, DEDUCED, assumption log 16). A start on a lane
that is not UP and an end with no frame in the buffer are passed over; but the end of an IDENT that was being received when the
ident wait expired, coming at that same moment, is discarded as not admitted, as R59 says (what counts as the same moment is the
model's reading: assumption log 40). -/
def Obligations.FramesReceived : Prop :=
  (∀ (i : Slot) (p : Plane) (bs : List Byte) (s : State), s.busQuiet →
    ((s.lane i p).state ≠ .up → ∃ t, exec (.frameStartReceived i p bs) s = .next t ∧ t.apart = s.apart) ∧
    ((s.lane i p).state = .up →
      ∃ t, exec (.frameStartReceived i p bs) s = .next t ∧
        t.apart = (s.setLane i p { s.lane i p with
          staging := some { stamp := ⟨s.time.sec, s.time.ns, s.time.mark, s.osc⟩, kept := bs.take 2052
                            count := bs.length, check := checkRun (bs.take (bs.length - 4))
                            tail := bs.drop (bs.length - 4) }
          partialCount := if (s.lane i p).staging.isSome then min ((s.lane i p).partialCount + 1) 4294967295
            else (s.lane i p).partialCount }).apart)) ∧
  (∀ (i : Slot) (p : Plane) (bs : List Byte) (s : State), s.busQuiet →
    ((s.lane i p).staging = none →
      ((s.lane i p).overtaken = none → ∃ t, exec (.frameEndReceived i p bs) s = .next t ∧ t.apart = s.apart) ∧
      ∀ o : Overtaken, (s.lane i p).overtaken = some o →
        (o.osc ≠ s.osc ∨ (s.slot i).state ≠ .faulted ∨ hdrKind (o.buffer.feed bs).kept ≠ some .ident →
          ∃ t, exec (.frameEndReceived i p bs) s = .next t ∧ t.apart = s.apart) ∧
        (o.osc = s.osc → (s.slot i).state = .faulted → hdrKind (o.buffer.feed bs).kept = some .ident →
          s.frameFits i (o.buffer.feed bs) → s.cyc.entry = none →
          let c := vget s.sw.counters (portOf i)
          let counted := { c with notAdmitted := min (c.notAdmitted + 1) 4294967295 }
          ∃ t, exec (.frameEndReceived i p bs) s = .next t ∧
            t.apart = ({ s.setLane i p { s.lane i p with overtaken := none } with
              sw := { s.sw with counters := vset s.sw.counters (portOf i) counted } } : State).apart)) ∧
    (∀ g0 : Staging, (s.lane i p).staging = some g0 →
      let g := g0.feed bs
      let port := portOf i
      let c := vget s.sw.counters port
      let st := (s.slot i).state
      let ends := fun (w : SwitchCore) (a : AlarmUnit) => ∃ t, exec (.frameEndReceived i p bs) s = .next t ∧
        t.apart = ({ s.setLane i p { s.lane i p with staging := none } with sw := w, alarm := a } : State).apart
      let counted := fun (x : PortCounters) => ({ s.sw with counters := vset s.sw.counters port x } : SwitchCore)
      let linkError : AlarmUnit :=
        { s.alarm with marks := { s.alarm.marks with linkError := vset s.alarm.marks.linkError i true } }
      let whole := 12 ≤ g.count ∧ g.count = 12 + hdrLength g.kept ∧ g.tail = checkBytes (~~~ g.check)
      let fits := hdrLength g.kept ≤ 2040 ∧ ∀ d, (s.slot i).card = some d → hdrLength g.kept ≤ d.maxPayload
      let takes := fun (k : FrameKind) =>
        (st = .identifying ∧ k = .ident ∨ st = .admitted ∧ k ∈ [.data, .status, .ident, .ref] ∨
          st = .draining ∧ k ∈ [.data, .status, .ref]) ∧ payloadOk k g.payload = true
      (s.cyc.entry = none →
        (¬ whole → ends (counted { c with check := min (c.check + 1) 4294967295 }) linkError) ∧
        (whole → ¬ fits → ends (counted { c with overlength := min (c.overlength + 1) 4294967295 }) linkError) ∧
        (whole → fits → hdrSource g.kept ≠ i.val + 1 →
          ends (counted { c with spoofed := min (c.spoofed + 1) 4294967295 }) s.alarm) ∧
        (s.frameFits i g → (∀ k, hdrKind g.kept = some k → ¬ takes k) →
          ends (counted { c with notAdmitted := min (c.notAdmitted + 1) 4294967295 }) s.alarm)) ∧
      (s.frameFits i g → hdrKind g.kept = some .data → st = .admitted ∨ st = .draining →
        let h := g.kept.take 8
        let d := hdrDestination h
        let q := hdrClass h
        let b := blocksFor g.payload.length
        let c1 := { c with framesIn := min (c.framesIn + 1) 4294967295 }
        let frame := fun (refs : Nat) => (⟨s.sw.nextId, h, g.payload, b, refs, false⟩ : Stored)
        let limit := fun (j : Slot) => if q = .timed then (s.slot j).cfg.timedLimit else (s.slot j).cfg.bulkLimit
        let opens := fun (j : Slot) => (s.slot j).serving = true ∧ (q = .timed → s.sw.quality ≤ (s.slot j).cfg.gate)
        let busy := fun (j : Slot) => ∀ x, (s.lane j x).state ≠ .up ∨ (s.lane j x).tx ≠ .none
        (d = i.val + 1 ∨ 13 ≤ d ∧ d < 16 ∨ 80 ≤ d ∧ d < 127 ∨
            (∃ k : Fin 64, d = 16 + k.val ∧ ((vget s.sw.groups k).enabled = false ∨
              ∀ x : Fin 13, (vget s.sw.groups k).members.getLsbD x.val = true → x = port)) →
          ends (counted { c1 with badDestination := min (c1.badDestination + 1) 4294967295 }) s.alarm) ∧
        (d = 127 → (∀ j, j ≠ i → (s.slot j).serving = false) →
          ends (counted { c1 with notServing := min (c1.notServing + 1) 4294967295 }) s.alarm) ∧
        (d = 0 → s.ring.state = .running → b ≤ s.sw.free → s.sw.occupancy s.sw.queue0 + b ≤ s.sm.q0Limit →
          ends { counted c1 with
            free := s.sw.free - b, stored := s.sw.stored ++ [frame 1], nextId := s.sw.nextId + 1
            queue0 := { s.sw.queue0 with frames := s.sw.queue0.frames ++ [s.sw.nextId] } } s.alarm) ∧
        (∀ j : Slot, d = j.val + 1 → j ≠ i →
          let lost := fun (f : PortCounters → PortCounters) =>
            ({ s.sw with counters := vset (vset s.sw.counters port c1) (portOf j)
                           (f (vget s.sw.counters (portOf j))) } : SwitchCore)
          ((s.slot j).serving = false →
            ends (lost (fun x => { x with notServing := min (x.notServing + 1) 4294967295 })) s.alarm) ∧
          ((s.slot j).serving = true → q = .timed → (s.slot j).cfg.gate < s.sw.quality →
            ends (lost (fun x => { x with timeGated := min (x.timeGated + 1) 4294967295 })) s.alarm) ∧
          (opens j → s.sw.free < b →
            ends (counted { c1 with poolEmpty := min (c1.poolEmpty + 1) 4294967295 }) s.alarm) ∧
          (opens j → b ≤ s.sw.free → limit j < s.sw.occupancy (s.sw.queue j q) + b →
            ends (lost (fun x => { x with queueFull := min (x.queueFull + 1) 4294967295 }))
              { s.alarm with marks := { s.alarm.marks with
                  queueDrop := vset s.alarm.marks.queueDrop (portOf j) true } })) ∧
        (∀ ps : List (Fin 13),
          d = 0 ∧ ps = [0] ∨ (∃ j : Slot, j ≠ i ∧ d = j.val + 1 ∧ ps = [portOf j]) ∨
            (∃ k : Fin 64, d = 16 + k.val ∧ (vget s.sw.groups k).enabled = true ∧
              ps = allPorts.filter (fun x => (vget s.sw.groups k).members.getLsbD x.val && x != port)) ∨
            (d = 127 ∧ ps = allPorts.filter (fun x => s.servingPort x && x != port)) →
          ps ≠ [] →
          let names := fun (x : Fin 13) => ps.contains x
          let shut := fun (x : Fin 13) => if x = 0 then s.ring.state != .running else !s.servingPort x
          let gated := fun (x : Fin 13) => match slotOf x.val with
            | some j => q == .timed && decide ((s.slot j).cfg.gate < s.sw.quality)
            | none => false
          let room := fun (x : Fin 13) => match slotOf x.val with
            | some j => decide (s.sw.occupancy (s.sw.queue j q) + b ≤ limit j)
            | none => decide (s.sw.occupancy s.sw.queue0 + b ≤ s.sm.q0Limit)
          let goes := fun (x : Fin 13) => names x && !shut x && !gated x && room x
          let full := fun (x : Fin 13) => names x && !shut x && !gated x && !room x
          let lost := fun (x : Fin 13) (k : PortCounters) =>
            if names x && shut x then
              if x = 0 then { k with portClosed := min (k.portClosed + 1) 4294967295 }
              else { k with notServing := min (k.notServing + 1) 4294967295 }
            else if names x && gated x then { k with timeGated := min (k.timeGated + 1) 4294967295 }
            else k
          (s.sw.free < b → (∃ x ∈ ps, shut x = false ∧ gated x = false) →
            ends { s.sw with counters := Vector.ofFn (fun x : Fin 13 => if x = port
              then { c1 with poolEmpty := min (c1.poolEmpty + 1) 4294967295 } else lost x (vget s.sw.counters x)) } s.alarm) ∧
          (b ≤ s.sw.free ∨ (∀ x ∈ ps, shut x = true ∨ gated x = true) → (∀ j, goes (portOf j) = true → busy j) →
            let w : SwitchCore := { s.sw with counters := Vector.ofFn (fun x : Fin 13 => if x = port then c1
              else if full x then { vget s.sw.counters x with queueFull := min ((vget s.sw.counters x).queueFull + 1) 4294967295 }
              else lost x (vget s.sw.counters x)) }
            let n := (ps.filter goes).length
            let append := fun (z : EgressQueue) => { z with frames := z.frames ++ [s.sw.nextId] }
            ends (if n = 0 then w else { w with
                free := s.sw.free - b, stored := s.sw.stored ++ [frame n], nextId := s.sw.nextId + 1
                queue0 := if goes 0 then append s.sw.queue0 else s.sw.queue0
                queues := Vector.ofFn (fun j : Fin 12 => if goes (portOf j)
                  then (vget s.sw.queues j).set q (append (s.sw.queue j q)) else vget s.sw.queues j) })
              { s.alarm with marks := { s.alarm.marks with
                  queueDrop := Vector.ofFn (fun x : Fin 13 => full x || vget s.alarm.marks.queueDrop x) } })))))

/-- R48: the control frames of a card, whole, of the slot's own source and of an accepted length. R146, R150, R149, R154 to R156,
R162: a STATUS ends the attempt in progress of its slot and plane whose number it echoes (here the entry's first attempt, with
no condition to retry or branch on, the slot's policy pinned, no card point naming the slot): the poll is finished with SUCCESS,
its round trip (R155: the stamps' difference over full time less the card's turnaround, taken when both stamps carry one
adjustment mark, the lane is UP and it lies between 0 and 10,000 ns) enters the plane's delay (R156: half of it, the first as it
is, a later one by an eighth of the difference towards 0) or is counted as discarded, the slot's missed polls return to 0, and the
result words follow (bits of an RTT sample that is not there are free: assumption log 44); any other STATUS is counted as stray. R66, R67: an IDENT in IDENTIFYING admits its card: the card record, the active
plane and the counts are set, the ident wait is stopped, and an ADMIT starts on its lane (nothing waiting to be sent in the
slot, no reference entry naming it). A type or a maximum payload that does not pass sends the slot to REJECTED with its reason
and its lanes off (its other lane not UP, nothing to send). R69: in ADMITTED it restarts the card: the slot is admitted anew,
with its queues flushed and its delays not valid. R121, R119, R123: a REF on the plane that is not active is set aside; on the
active plane it is offered to the enabled entries naming its slot: with none it is passed over, while the slot does not serve or
the delay is not valid it is counted as discarded, else its entry judges it by its start stamp; the entry selected in LOCKED
runs the loop with the stamp less the delay, unless the adjustment mark has changed since the stamp. (The model's readings,
DEDUCED, assumption log 25: the watch is counted from the start instant of the frame, and the delay is that of the active plane
as it stands when the frame is taken.) -/
def Obligations.ControlFramesReceived : Prop :=
  ∀ (i : Slot) (p : Plane) (bs : List Byte) (g0 : Staging) (s : State), s.busQuiet → (s.lane i p).staging = some g0 →
    s.frameFits i (g0.feed bs) →
    let g := g0.feed bs
    let x := g.payload
    let e := s.slot i
    let l := { s.lane i p with staging := none }
    let u := s.setLane i p l
    let ends := fun (t' : State) => ∃ t, exec (.frameEndReceived i p bs) s = .next t ∧ t.apart = t'.apart
    (hdrKind g.kept = some .status → payloadOk .status x = true →
      (e.state = .admitted ∨ e.state = .draining →
        (∀ c, s.attemptOf i = some c → ¬ (c.plane = p ∧ c.number = statusNumber x)) →
        ends { u with cyc := { s.cyc with
          counters := { s.cyc.counters with stray := min (s.cyc.counters.stray + 1) 4294967295 } } }) ∧
      (∀ (a : Addr) (ws : List Word) (w : PollWork) (c : Attempt), e.state = .admitted →
        s.cyc.entry = some ⟨a, .run ws (.poll w)⟩ → w.slot = i → w.cur = some c → c.plane = p →
        c.number = statusNumber x → w.made = 1 → w.log = [] → w.conditions = 0 → e.cfg.policy ≠ .auto →
        e.fenced = false →
        (∀ k, ((s.point k).cfg.kind.isCard && (s.point k).cfg.which == i.val + 1) = false) →
        let rtt : Option Nat := match c.t1 with
          | none => none
          | some t1 =>
            let y : Int := (((g.stamp.sec : Int) - t1.sec) % 4294967296) * 1000000000 + ((g.stamp.ns : Int) - t1.ns)
              - statusTurnaround x
            if t1.mark = g.stamp.mark ∧ (s.lane i p).state = .up ∧ 0 ≤ y ∧ y ≤ 10000 then some y.toNat else none
        let d := e.delay p
        let e1 := match rtt with
          | some v => e.setDelay p (if d.valid = true
              then { d with value := ((d.value : Int) + Int.tdiv (((v / 2 : Nat) : Int) - d.value) 8).toNat }
              else { value := v / 2, valid := true })
          | none => e
        ends { u.setSlot i { e1 with missed := 0 } with
          draws := s.draws + 1
          sm := { (u.setSlot i { e1 with missed := 0 }).sm with
            discarded := min (s.sm.discarded + (if rtt.isSome then 0 else 1)) 4294967295 }
          cyc := { s.cyc with
            counters := { s.cyc.counters with succeeded := min (s.cyc.counters.succeeded + 1) 4294967295 }
            entry := some ⟨a, .writeBack ws
              { w4 := wordOf (4 + 2 ^ 8 + 2 ^ 12 * (if p = .b then 1 else 0) + 2 ^ 16 * (statusFlags x).toNat
                  + 2 ^ 24 * (statusCodes x).length)
                w5 := match rtt with | some v => wordOf (2 ^ 31 + v) | none => wordOf (Config.freeRtt s.draws).toNat
                w6 := wordOf s.time.sec, w7 := wordOf s.time.ns, n := 0, next := a + 8 }⟩ } })) ∧
    (hdrKind g.kept = some .ident → x.length = 16 →
      let typeOk := e.override = true ∨ identType x ≠ 0 ∧ (e.cfg.allowed = [] ∨ identType x ∈ e.cfg.allowed)
      let sizeOk := e.override = true ∨ 256 ≤ identPayload x ∧ identPayload x ≤ 2040
      let active : Plane := match e.cfg.policy with | .auto => p | .pinA => .a | .pinB => .b
      let card : Card := { cardType := identType x, serial1 := identSerial1 x, serial2 := identSerial2 x
                           maxPayload := max 256 (min (identPayload x) 2040), revision := identRevision x }
      (e.state = .identifying → typeOk → sizeOk → l.state = .up → l.tx = .none → (∀ y, (s.lane i y).queue = []) →
        (∀ c, s.sw.queue i c = EgressQueue.nil) → (∀ k, (s.ref k).names i = false) →
        let admission := controlFrame i .admission [BitVec.ofNat 8 (i.val + 1), if active = .a then 0 else 1, 0, 0]
        let sends := s.setLane i p { l with tx := .control ⟨.admission active, .slotManager⟩ admission }
        ends (State.slotBecomes { sends with ring := { s.ring with tx := s.ring.tx.map TxMove.roomSeen } } i
          { e with state := .admitted, card := some card, active := active, fenced := false, missed := 0, alt := 0
                   attempts := 0, reason := .none, timer := none, pwren := true })) ∧
      (∀ r : FailReason, e.state = .identifying → r = .type ∧ ¬ typeOk ∨ r = .payload ∧ typeOk ∧ ¬ sizeOk →
        l.tx = .none → l.queue = [] → l.notSent ≤ 4294967295 → (s.lane i p.other).state ≠ .up →
        e.delayA.valid = false → e.delayB.valid = false →
        ends (State.slotBecomes { u with lanes := vset u.lanes i (vget u.lanes i).disabled } i
          { e with state := .rejected, reason := r, timer := none, pwren := false, laneA := .off, laneB := .off })) ∧
      (e.state = .admitted → typeOk → sizeOk →
        ∃ t, exec (.frameEndReceived i p bs) s = .next t ∧ (t.slot i).state = .admitted ∧ (t.slot i).card = some card ∧
          (t.slot i).active = active ∧ (t.slot i).fenced = false ∧ (t.slot i).missed = 0 ∧
          (t.slot i).delayA.valid = false ∧ (t.slot i).delayB.valid = false ∧ ∀ c, t.sw.queue i c = EgressQueue.nil)) ∧
    (hdrKind g.kept = some .ref → x.length = 4 → e.state = .admitted ∨ e.state = .draining →
      let offered := fun (k : Fin 4) => (s.ref k).cfg.enabled = true ∧ (s.ref k).names i = true
      let at_ := fun (k : Fin 4) (good : Nat) =>
        s.time.setRef k { s.ref k with good := good, last := some g.stamp.osc, watch := some (g.stamp.osc + 110000000) }
      (p ≠ e.active →
        ends (s.setLane i p { l with setAside := min (l.setAside + 1) 4294967295 })) ∧
      (p = e.active → (∀ k, ¬ offered k) → ends u) ∧
      (p = e.active → (∃ k, offered k) → e.serving = false ∨ (e.delay p).valid = false →
        ends { u with time := { s.time with discardedRefs := min (s.time.discardedRefs + 1) 4294967295 } }) ∧
      (∀ k, p = e.active → offered k → (∀ j, j ≠ k → ¬ offered j) → e.serving = true → (e.delay p).valid = true →
        ((s.ref k).last = none → s.time.selected ≠ some k → ends { u with time := at_ k 0 }) ∧
        (∀ y : Nat, (s.ref k).last = some y → 99900000 ≤ g.stamp.osc - y → g.stamp.osc - y ≤ 100100000 →
          (s.ref k).qualified = true → s.time.selected = some k →
          let taken := at_ k (min ((s.ref k).good + 1) 3)
          (g.stamp.mark ≠ s.time.mark →
            ends { u with time := { taken with discardedRefs := min (s.time.discardedRefs + 1) 4294967295 } }) ∧
          (g.stamp.mark = s.time.mark → s.time.state = .locked →
            let n : Int := ((g.stamp.ns : Int) - (e.delay p).value) % 1000000000
            let err : Int := if n < 500000000 then n else n - 1000000000
            let sum := max (-8000000) (min 8000000 (s.time.integral + err))
            err.natAbs < s.time.disc.stepLimit → err.natAbs ≤ s.time.disc.lockWindow →
            ends { u with time := { taken with
              lastError := err, integral := sum, unlockRun := 0
              trim := max (-50000) (min 50000
                (-(Int.tdiv err (2 ^ s.time.disc.kp) + Int.tdiv sum (2 ^ s.time.disc.ki)))) } }))))

/-- R51, R85, R88: the end of a transmission. With no frame in transmission it is passed over (the model's choice: assumption
log 4). `lastOut`, what the lane has put on the backplane, is the model's own record (assumption log 15). A control frame of the slot
manager has gone out whole, with its check word, and with nothing more to send the lane is free. R145, R151: so has one of the
cycle engine, and its end is reported: the POLL of the attempt in progress is marked sent and its response timeout runs; the last
TIME frame awaited ends its entry with SENT, all its frames having been sent (its flags, alarm-code count and word 5 are free:
assumption log 44); a report for which no entry waits is passed over.
A DATA frame that is the
only one of its slot's queues leaves with its blocks, is counted out, and the room it leaves is reported. -/
def Obligations.TransmissionEnds : Prop :=
  ∀ (i : Slot) (p : Plane) (s : State), s.busQuiet →
    ((s.lane i p).tx = .none → ∃ t, exec (.frameTransmitEnd i p) s = .next t ∧ t.apart = s.apart) ∧
    (∀ (f : CtlFrame) (bs : List Byte), (s.lane i p).tx = .control f bs → f.sender = .slotManager →
      (∀ q, (s.lane i q).queue = []) → (∀ c, s.sw.queue i c = EgressQueue.nil) →
      ∃ t, exec (.frameTransmitEnd i p) s = .next t ∧
        t.apart = (s.setLane i p { s.lane i p with tx := .none, lastOut := .whole bs (checkWord bs) }).apart) ∧
    (∀ (k : CtlKind) (tag : Nat) (bs : List Byte), (s.lane i p).tx = .control ⟨k, .cycle tag⟩ bs →
      (∀ q, (s.lane i q).queue = []) → (∀ c, s.sw.queue i c = EgressQueue.nil) →
      let u := s.setLane i p { s.lane i p with tx := .none, lastOut := .whole bs (checkWord bs) }
      let ends := fun (c : CycleEngine) (draws : Nat) =>
        ∃ t, exec (.frameTransmitEnd i p) s = .next t ∧ t.apart = ({ u with cyc := c, draws := draws } : State).apart
      (s.cyc.entry = none → ends s.cyc s.draws) ∧
      (∀ (a : Addr) (ws : List Word) (w : PollWork) (c : Attempt), s.cyc.entry = some ⟨a, .run ws (.poll w)⟩ →
        w.cur = some c → c.tag = tag →
        ends { s.cyc with entry := some ⟨a, .run ws (.poll { w with cur := some { c with
          sent := true, timeout := some (s.osc + s.cyc.timeoutUs * 100) } })⟩ } s.draws) ∧
      (∀ (a : Addr) (ws : List Word) (w : TimeWork) (q : Plane), s.cyc.entry = some ⟨a, .run ws (.time w)⟩ →
        w.tag = tag → w.awaited = 1 → w.notSent = 0 → w.plane = some q →
        ends { s.cyc with entry := some ⟨a, .writeBack ws
          { w4 := wordOf (8 + 2 ^ 8 * (w.sent + 1) + 2 ^ 12 * (if q = .b then 1 else 0)
              + 2 ^ 16 * (Config.freeFlags s.draws).toNat + 2 ^ 24 * (Config.freeCodes s.draws).val)
            w5 := wordOf (2 ^ 31 * (if Config.freeRttPresent s.draws then 1 else 0) + (Config.freeRtt s.draws).toNat)
            w6 := wordOf s.time.sec, w7 := wordOf s.time.ns, n := 0, next := a + 8 }⟩ } (s.draws + 1))) ∧
    (∀ (c : Cls) (f : Stored), (s.lane i p).tx = .data c f.id → s.sw.find f.id = some f → f.refs = 2 →
      (∀ q, (s.lane i q).queue = []) →
      s.sw.queue i c = ⟨[f.id], []⟩ → (∀ d, d ≠ c → s.sw.queue i d = EgressQueue.nil) →
      ∃ t, exec (.frameTransmitEnd i p) s = .next t ∧
        t.apart = ({ s.setLane i p { s.lane i p with
              tx := .none, lastOut := .whole (f.header ++ f.payload) (checkWord (f.header ++ f.payload)) } with
          sw := { (s.sw.setQueue i c EgressQueue.nil) with
            free := s.sw.free + f.blocks
            stored := s.sw.stored.filter (·.id ≠ f.id)
            counters := vset s.sw.counters (portOf i)
              { vget s.sw.counters (portOf i) with
                framesOut := min ((vget s.sw.counters (portOf i)).framesOut + 1) 4294967295 } }
          ring := { s.ring with tx := s.ring.tx.map TxMove.roomSeen } } : State).apart)

/-! ## Slot pins and timers -/

/-- R61, R168: presence. An arrival in EMPTY starts the debounce, and in another state is only recorded (the model's choice: a
pin's row acts whatever its level was before, assumption log 26); a loss in EMPTY stops it. A loss in a state without lanes
takes the slot to EMPTY at once, unpowered, with its timer stopped, attempts 0 and its flags clear, and marks a surprise
removal when the slot was powered. A loss in any state leaves the slot EMPTY and unpowered. -/
def Obligations.PresenceTaken : Prop :=
  ∀ (i : Slot) (s : State), s.busQuiet →
    let e := s.slot i
    (e.state = .empty → ∃ t, exec (.presenceArrival i) s = .next t ∧
      t.apart = (s.setSlot i { e with pres := true, timer := some (s.osc + 5000000) }).apart) ∧
    (e.state ≠ .empty → ∃ t, exec (.presenceArrival i) s = .next t ∧
      t.apart = (s.setSlot i { e with pres := true }).apart) ∧
    (e.state = .empty → ∃ t, exec (.presenceLoss i) s = .next t ∧
      t.apart = (s.setSlot i { e with pres := false, timer := none }).apart) ∧
    (e.state ∈ [.seated, .powering, .released, .faulted, .lockedOut, .rejected] → s.slotDark i →
      ∃ t, exec (.presenceLoss i) s = .next t ∧
        t.apart = (State.slotBecomes { s with alarm := { s.alarm with marks :=
            if e.state = .powering then { s.alarm.marks with surprise := vset s.alarm.marks.surprise i true }
            else s.alarm.marks } } i
          { e with pres := false, state := .empty, attempts := 0, fenced := false, override := false, timer := none
                   pwren := false }).apart) ∧
    (e.state ≠ .empty → ∃ t, exec (.presenceLoss i) s = .next t ∧ (t.slot i).state = .empty ∧
      (t.slot i).pwren = false ∧ (t.slot i).pres = false ∧ (t.slot i).attempts = 0)

/-- R62, R72: the latch. Closed, it powers a SEATED slot that is provisioned while the hub allows powering, takes a RELEASED
slot to SEATED (R62 judges it there), and in other states is only recorded. Opened, it takes POWERING to RELEASED, takes
FAULTED, LOCKED_OUT and REJECTED there with no attempts, takes ADMITTED to DRAINING with cause RELEASE, and in EMPTY,
SEATED, RELEASED and DRAINING is only recorded. R63, R64, R73: power-good. An arrival in POWERING takes the slot to TRAINING
with both lanes enabled and the training timer running; in other states it is only recorded. A loss in TRAINING takes the slot
to FAULTED with reason POWER, one more attempt and the backoff of R73 running, with both lanes off; in a state that is not
powered, and in POWERING, it is only recorded. -/
def Obligations.LatchAndPowerGoodTaken : Prop :=
  (∀ (i : Slot) (s : State), s.busQuiet →
    let e := s.slot i
    (e.state = .seated → s.slotDark i → s.cmd.hub.allowsPowering = true → e.cfg.provisioned = true → e.pgood = false →
      ∃ t, exec (.latchClosed i) s = .next t ∧
        t.apart = (s.slotBecomes i { e with
          latch := true, state := .powering, timer := some (s.osc + 20000000), pwren := true }).apart) ∧
    (e.state = .released → s.slotDark i → s.cmd.hub.allowsPowering = false ∨ e.cfg.provisioned = false →
      ∃ t, exec (.latchClosed i) s = .next t ∧
        t.apart = (s.slotBecomes i { e with
          latch := true, state := .seated, timer := none, pwren := false, override := false }).apart) ∧
    (e.state ≠ .seated ∧ e.state ≠ .released ∨
        e.state = .seated ∧ (s.cmd.hub.allowsPowering = false ∨ e.cfg.provisioned = false) →
      ∃ t, exec (.latchClosed i) s = .next t ∧ t.apart = (s.setSlot i { e with latch := true }).apart) ∧
    (e.state = .powering → s.slotDark i →
      ∃ t, exec (.latchOpened i) s = .next t ∧
        t.apart = (s.slotBecomes i { e with
          latch := false, state := .released, timer := none, pwren := false, override := false }).apart) ∧
    (e.state ∈ [.faulted, .lockedOut, .rejected] → s.slotDark i →
      ∃ t, exec (.latchOpened i) s = .next t ∧
        t.apart = (s.slotBecomes i { e with
          latch := false, state := .released, timer := none, pwren := false, override := false, attempts := 0 }).apart) ∧
    (e.state = .admitted → s.slotStill i →
      ∃ t, exec (.latchOpened i) s = .next t ∧
        t.apart = (s.slotBecomes i { e with
          latch := false, state := .draining, drainCause := .release, timer := some (s.osc + 10000000)
          pwren := true }).apart) ∧
    (e.state ∈ [.empty, .seated, .released, .draining] →
      ∃ t, exec (.latchOpened i) s = .next t ∧ t.apart = (s.setSlot i { e with latch := false }).apart)) ∧
  (∀ (i : Slot) (s : State), s.busQuiet →
    let e := s.slot i
    (e.state = .powering → s.slotDark i → (∀ p, (s.lane i p).state = .off) →
      ∃ t, exec (.powerGoodArrival i) s = .next t ∧
        t.apart = (State.slotBecomes { s with lanes := vset s.lanes i (vget s.lanes i).enabled } i
          { e with pgood := true, state := .training, timer := some (s.osc + 50000000), pwren := true
                   laneA := .training, laneB := .training }).apart) ∧
    (e.state ≠ .powering → ∃ t, exec (.powerGoodArrival i) s = .next t ∧
      t.apart = (s.setSlot i { e with pgood := true }).apart) ∧
    (e.state = .training → s.slotDark i →
      let n := min (e.attempts + 1) 3
      ∃ t, exec (.powerGoodLoss i) s = .next t ∧
        t.apart = (State.slotBecomes { s with lanes := vset s.lanes i (vget s.lanes i).disabled } i
          { e with pgood := false, state := .faulted, attempts := n, reason := .power, pwren := false
                   timer := some (s.osc + 100000000 * 2 ^ (n - 1)), laneA := .off, laneB := .off }).apart) ∧
    (e.state.powered = false ∨ e.state = .powering → ∃ t, exec (.powerGoodLoss i) s = .next t ∧
      t.apart = (s.setSlot i { e with pgood := false }).apart))

/-- R59, R61, R63, R64, R65, R73: the slot timers. The oscillator runs up to the expiry first (`State.advanceTo`), nothing when
the moment has passed: the model's form of time (assumption logs 7 and 8). The debounce takes EMPTY to
SEATED (to POWERING where R62 allows it). The power-good wait, the training timer and the ident wait take their state to
FAULTED with reason POWER, LINK or IDENT. The backoff takes FAULTED to LOCKED_OUT after three attempts, else to POWERING
where R62 allows it, else to SEATED. A frame being received when the ident wait expires becomes a partial frame (R41, R60), and
what it held is kept for an end at that moment (R59; the model's form: assumption log 40). An expiry row whose timer does not
run, or that belongs to another state, is passed over (the model's choice: assumption logs 4 and 8). -/
def Obligations.SlotTimersExpire : Prop :=
  (∀ (i : Slot) (s : State), s.busQuiet →
    let passed := fun (c : Instr) (st : SlotState) =>
      (s.slot i).timer = none ∨ (s.slot i).state ≠ st → ∃ t, exec c s = .next t ∧ t.apart = s.apart
    passed (.presenceDebounceExpiry i) .empty ∧ passed (.powerGoodWaitExpiry i) .powering ∧
      passed (.trainingTimerExpiry i) .training ∧ passed (.identWaitExpiry i) .identifying ∧
      passed (.drainTimerExpiry i) .draining ∧ passed (.backoffExpiry i) .faulted) ∧
  ∀ (i : Slot) (x : Nat) (s : State), s.busQuiet → (s.slot i).timer = some x →
    let e := s.slot i
    let u := s.advanceTo x
    (∀ p : Plane, e.state = .identifying →
      let l := u.lane i p
      let n := min (e.attempts + 1) 3
      l.state = .up → l.tx = .none → l.queue = [] → l.notSent ≤ 4294967295 →
      (u.lane i p.other).state ≠ .up → e.delayA.valid = false → e.delayB.valid = false →
      let off : LanePort := { l with
        enable := false, state := .off, staging := none
        partialCount := if l.staging.isSome then min (l.partialCount + 1) 4294967295 else l.partialCount
        overtaken := match l.staging with | some g => some { buffer := g, osc := u.osc } | none => l.overtaken }
      ∃ t, exec (.identWaitExpiry i) s = .next t ∧
        t.apart = (State.slotBecomes { u with lanes := vset u.lanes i ((vget u.lanes i).disabled.set p off) } i { e with
          state := .faulted, attempts := n, reason := .ident, pwren := false
          timer := some (u.osc + 100000000 * 2 ^ (n - 1)), laneA := .off, laneB := .off }).apart) ∧
    (u.slotDark i →
      (e.state = .empty → u.mayPower i = false →
        ∃ t, exec (.presenceDebounceExpiry i) s = .next t ∧
          t.apart = (u.slotBecomes i { e with
            state := .seated, timer := none, pwren := false, override := false }).apart) ∧
      (e.state = .empty → u.mayPower i = true → e.pgood = false →
        ∃ t, exec (.presenceDebounceExpiry i) s = .next t ∧
          t.apart = (u.slotBecomes i { e with
            state := .powering, timer := some (u.osc + 20000000), pwren := true, override := false }).apart) ∧
      (let n := min (e.attempts + 1) 3
       let faulted := fun (r : FailReason) => { e with
         state := .faulted, attempts := n, reason := r, pwren := false, timer := some (u.osc + 100000000 * 2 ^ (n - 1)) }
       let off := { u with lanes := vset u.lanes i (vget u.lanes i).disabled }
       (e.state = .powering →
          ∃ t, exec (.powerGoodWaitExpiry i) s = .next t ∧ t.apart = (u.slotBecomes i (faulted .power)).apart) ∧
       (e.state = .training → ∃ t, exec (.trainingTimerExpiry i) s = .next t ∧
          t.apart = (off.slotBecomes i { faulted .link with laneA := .off, laneB := .off }).apart) ∧
       (e.state = .identifying → ∃ t, exec (.identWaitExpiry i) s = .next t ∧
          t.apart = (off.slotBecomes i { faulted .ident with laneA := .off, laneB := .off }).apart)) ∧
      (e.state = .faulted → 3 ≤ e.attempts →
        ∃ t, exec (.backoffExpiry i) s = .next t ∧
          t.apart = (u.slotBecomes i { e with
            state := .lockedOut, timer := none, pwren := false, override := false }).apart) ∧
      (e.state = .faulted → e.attempts < 3 → u.mayPower i = true → e.pgood = false →
        ∃ t, exec (.backoffExpiry i) s = .next t ∧
          t.apart = (u.slotBecomes i { e with
            state := .powering, timer := some (u.osc + 20000000), pwren := true }).apart) ∧
      (e.state = .faulted → e.attempts < 3 → u.mayPower i = false →
        ∃ t, exec (.backoffExpiry i) s = .next t ∧
          t.apart = (u.slotBecomes i { e with
            state := .seated, timer := none, pwren := false, override := false }).apart))

/-- R70, R71: a drain ends, when both of the slot's queues are empty or when the drain timer expires: with cause RELEASE in
RELEASED, with another cause in SEATED. The lanes go off, the delays are no longer valid (R157), the card record is dropped
and the flags and counts are clear. (Nothing left in its queues, no frame on its lanes, no reference entry naming it, and R62
not powering the slot anew; in every case the slot leaves DRAINING, unpowered or powered anew, and its queues are empty.) That
the drain timer's row lets time pass up to the expiry is the model's form of time (assumption logs 7 and 8), and that the end
of a drain is a row of its own, taken when both queues are empty, is its choice too (assumption log 33). -/
def Obligations.DrainEnds : Prop :=
  ∀ (i : Slot) (s : State), s.busQuiet → (s.slot i).state = .draining →
    let after := fun (u : State) => (State.slotBecomes { u with lanes := vset u.lanes i (vget u.lanes i).disabled } i
      { s.slot i with
        state := if (s.slot i).drainCause = .release then .released else .seated
        timer := none, pwren := false, override := false, fenced := false, missed := 0, alt := 0, card := none
        laneA := .off, laneB := .off }).apart
    (s.slotDark i → (∀ c, s.sw.queue i c = EgressQueue.nil) → s.mayPower i = false →
      ∃ t, exec (.drainEnd i) s = .next t ∧ t.apart = after s) ∧
    (∀ x : Nat, (s.slot i).timer = some x →
      let u := s.advanceTo x
      u.slotDark i → (∀ c, u.sw.queue i c = EgressQueue.nil) → u.mayPower i = false →
      ∃ t, exec (.drainTimerExpiry i) s = .next t ∧ t.apart = after u) ∧
    ((∀ c, s.sw.queue i c = EgressQueue.nil) → s.mayPower i = false →
      (∀ p, (s.lane i p).tx = .none ∧ (s.lane i p).queue = [] ∧ (s.lane i p).staging = none ∧
        (s.lane i p).notSent ≤ 4294967295) → (∀ k, (s.ref k).names i = false) →
      let e := s.slot i
      ∃ t, exec (.drainEnd i) s = .next t ∧
        t.apart = (State.slotBecomes { s with lanes := vset s.lanes i (vget s.lanes i).disabled } i { e with
          state := if e.drainCause = .release then .released else .seated
          timer := none, pwren := false, override := false, fenced := false, missed := 0, alt := 0, card := none
          laneA := .off, laneB := .off
          delayA := { e.delayA with valid := false }, delayB := { e.delayB with valid := false } }).apart) ∧
    (let left := fun (t : State) => (∀ c, t.sw.queue i c = EgressQueue.nil) ∧ (t.slot i).card = none ∧
        ((s.slot i).drainCause = .release → (t.slot i).state = .released) ∧
        ((s.slot i).drainCause ≠ .release →
          (t.slot i).state = .seated ∨ (t.slot i).state = .powering ∨ (t.slot i).state = .training)
     ((s.slot i).timer.isSome → ∃ t, exec (.drainTimerExpiry i) s = .next t ∧ left t) ∧
      ((∀ c, s.sw.queue i c = EgressQueue.nil) → ∃ t, exec (.drainEnd i) s = .next t ∧ left t)) ∧
    ((∃ c, (s.sw.queue i c).frames ≠ [] ∨ (s.sw.queue i c).reserved ≠ []) →
      ∃ t, exec (.drainEnd i) s = .next t ∧ t.apart = s.apart)

/-! ## Controller rings -/

/-- R100, R101, R102: a receive movement takes the head of queue 0 under a claim of its own and looks ahead. A walk that
meets a descriptor the GH412 does not own, a buffer of a bad size, or every descriptor of the ring ends without room: the frame is
held, its hold timer starts if it was not running, and a walk marked for it begins again; with a hold time of 0 the frame is missed
at once (R105), with RING_ERROR. A walk that has found enough room goes on to place the frame. (That the start of a movement is a
row of its own, passed over when none may begin, is the model's choice: assumption logs 4 and 33.) -/
def Obligations.ReceiveWalks : Prop :=
  (∀ (id : Nat) (rest : List Nat) (f : Stored) (s : State), s.busQuiet → s.ring.state = .running → s.ring.rx = none →
    s.sw.queue0.frames = id :: rest → s.sw.find id = some f →
    let m : RxMove := { id := id, len := (f.header ++ f.payload).length - 8, src := hdrSource f.header
                        cls := hdrClass f.header, phase := .looking [] false, hold := none, rewalk := false }
    ∃ t, exec .rxMovementStart s = .next t ∧
      t.apart = ({ s with
        sw := { s.sw with stored := s.sw.stored.map (fun x => if x.id = id then { x with refs := x.refs + 1 } else x) }
        ring := { s.ring with rx := some m } } : State).apart) ∧
  (∀ s : State, s.busQuiet → s.ring.state ≠ .running ∨ s.ring.rx.isSome ∨ s.sw.queue0.frames = [] →
    ∃ t, exec .rxMovementStart s = .next t ∧ t.apart = s.apart) ∧
  (∀ (m : RxMove) (ds : List RxDesc) (a : Addr) (s : State), s.busQuiet →
    s.path.holder = some (.word ⟨.ring, .rx, .read a⟩) → s.ring.rx = some m →
    let v := Memory.readWord s.mem a
    let holding : Option Nat := some (m.hold.getD (s.osc + s.ring.par.holdMs * 100000))
    (m.phase = .looking ds false → v.getLsbD 31 = false → s.ring.par.holdMs ≠ 0 →
      ∃ t, exec .rxWalkEnd s = .next t ∧
        t.apart = ({ s with ring := { s.ring with rx := some { m with
          hold := holding, rewalk := false, phase := if m.rewalk then .looking [] false else .held } } } : State).apart) ∧
    (∀ f : Stored, m.phase = .looking ds false → v.getLsbD 31 = false → s.ring.par.holdMs = 0 →
      s.sw.find m.id = some f → f.refs = 2 → s.sw.queue0.frames.contains m.id = true →
      ∃ t, exec .rxWalkEnd s = .next t ∧
        t.apart = (State.withCauses { s with
          sw := s.sw.headGone m.id f.blocks (fun c => { c with flushed := min (c.flushed + 1) 4294967295 })
          ring := { s.ring with
            rx := some { m with phase := .marking 0, hold := none, rewalk := false }
            tx := s.ring.tx.map TxMove.roomSeen
            counters := { s.ring.counters with missed := min (s.ring.counters.missed + 1) 4294967295 } }
          alarm := { s.alarm with marks := { s.alarm.marks with rxMissed := true } } } 0x020).apart) ∧
    (m.phase = .looking ds true → bufferSizeOk (descSize v) = true → (ds.map (·.size)).sum + descSize v < m.len →
      s.ring.par.rxSize ≤ ds.length + 1 → s.ring.par.holdMs ≠ 0 →
      ∃ t, exec .rxWalkEnd s = .next t ∧
        t.apart = ({ s with ring := { s.ring with rx := some { m with
          hold := holding, rewalk := false, phase := if m.rewalk then .looking [] false else .held } } } : State).apart) ∧
    (m.phase = .looking ds true → bufferSizeOk (descSize v) = true → m.len ≤ (ds.map (·.size)).sum + descSize v →
      ∃ t, exec .rxWalkEnd s = .next t ∧
        t.apart = ({ s with ring := { s.ring with rx := some { m with
          hold := none, phase := .placing (ds ++ [⟨s.ring.rxAt ds.length, descSize v⟩]) 0 none 0 } } } : State).apart) ∧
    (m.phase = .looking ds true → bufferSizeOk (descSize v) = false → s.ring.par.holdMs ≠ 0 →
      ∃ t, exec .rxWalkEnd s = .next t ∧
        t.apart = ({ s with ring := { s.ring with
          counters := { s.ring.counters with badBuffer := min (s.ring.counters.badBuffer + 1) 4294967295 }
          rx := some { m with
            hold := holding, rewalk := false
            phase := if m.rewalk then .looking [] false else .held } } } : State).apart))

/-- R103, R104: with the last payload word written the descriptors are handed back, and with the first descriptor's owner
word written the frame is delivered: it leaves queue 0, the receive index moves past its descriptors and RX_FRAME is
delivered. R102, R105: a hold timer that expires, with the frame held or in a walk that is then abandoned, misses the frame, with
RING_ERROR; the marker that follows is written when
the receive index's descriptor is the GH412's, and is left out when it is not. (That the hold timer's row lets time pass up to
the expiry is the model's form of time: assumption logs 7 and 8.) -/
def Obligations.ReceiveEnds : Prop :=
  (∀ (m : RxMove) (ds : List RxDesc) (d w n x : Nat) (a : Addr) (v : Word) (f : Stored) (s : State), s.busQuiet →
    s.path.holder = some (.word ⟨.ring, .rx, .write a v⟩) → s.ring.rx = some m →
    (m.phase = .placing ds d (some x) w → wordsFor (storedIn ds m.len d) ≤ w + 1 → ds.length ≤ d + 1 →
      ∃ t, exec .rxPlacementDone s = .next t ∧
        t.apart = ({ s with mem := Memory.writeWord s.mem a v allBytes
                            ring := { s.ring with rx := some { m with phase := .returning ds 0 } } } : State).apart) ∧
    (m.phase = .returning ds n → 2 * ds.length ≤ n + 1 → s.sw.find m.id = some f → f.refs = 2 →
      s.sw.queue0.frames.contains m.id = true →
      ∃ t, exec .rxFrameDelivered s = .next t ∧
        t.apart = (State.withCauses { s with
          mem := Memory.writeWord s.mem a v allBytes
          sw := s.sw.headGone m.id f.blocks (fun c => { c with framesOut := min (c.framesOut + 1) 4294967295 })
          ring := { s.ring with
            rx := none, tx := s.ring.tx.map TxMove.roomSeen, rxIdx := (s.ring.rxIdx + ds.length) % s.ring.par.rxSize
            counters := { s.ring.counters with placed := min (s.ring.counters.placed + 1) 4294967295 } } } 0x008).apart) ∧
    (m.phase = .marking 2 →
      ∃ t, exec .rxMissMarkerDone s = .next t ∧
        t.apart = ({ s with mem := Memory.writeWord s.mem a v allBytes
                            ring := { s.ring with rx := none, rxIdx := (s.ring.rxIdx + 1) % s.ring.par.rxSize } }
                    : State).apart)) ∧
  (∀ (m : RxMove) (a : Addr) (s : State), s.busQuiet → s.path.holder = some (.word ⟨.ring, .rx, .read a⟩) →
    s.ring.rx = some m → m.phase = .marking 0 → (Memory.readWord s.mem a).getLsbD 31 = false →
    ∃ t, exec .rxMissMarkerDone s = .next t ∧
      t.apart = ({ s with ring := { s.ring with rx := none } } : State).apart) ∧
  (∀ (m : RxMove) (x : Nat) (f : Stored) (s : State), s.busQuiet → s.ring.rx = some m →
    (m.phase = .held ∨ ∃ ds b, m.phase = .looking ds b) → m.hold = some x →
    let u := s.advanceTo x
    u.sw.find m.id = some f → f.refs = 2 → u.sw.queue0.frames.contains m.id = true →
    ∃ t, exec .rxHoldExpiry s = .next t ∧
      t.apart = (State.withCauses { u with
        sw := u.sw.headGone m.id f.blocks (fun c => { c with flushed := min (c.flushed + 1) 4294967295 })
        ring := { u.ring with
          rx := some { m with phase := .marking 0, hold := none, rewalk := false }
          tx := u.ring.tx.map TxMove.roomSeen
          counters := { u.ring.counters with missed := min (u.ring.counters.missed + 1) 4294967295 } }
        alarm := { u.alarm with marks := { u.alarm.marks with rxMissed := true } } } 0x020).apart)

/-- R106, R107, R108, R86: the transmit index's descriptor, read as the GH412's, begins a movement; read as the
controller's, it is left, or examined again when a write has come meanwhile. A complete chain is judged: malformed chains
are UNDELIVERABLE and counted, chains of more than 2,040 bytes are OVERLENGTH, chains without an end descriptor that fill the
ring are OVERLENGTH, and a chain for port 0 is a BAD_DESTINATION. (That a movement begins with the owner word just examined, and
does not read it again, phase `fetching (addr v)`, is the model's choice: assumption log 38.) -/
def Obligations.TransmitChainJudged : Prop :=
  ∀ (a : Addr) (s : State), s.busQuiet → s.path.holder = some (.word ⟨.ring, .tx, .read a⟩) →
    let v := Memory.readWord s.mem a
    (∀ again : Bool, s.ring.tx = none → s.ring.exam = some again →
      ∃ t, exec .txExamineDone s = .next t ∧
        t.apart = ({ s with ring := { s.ring with
          exam := if v.getLsbD 31 = false ∧ again = true then some false else none
          tx := if v.getLsbD 31 = true then some { descs := [], phase := .fetching (.addr v) } else none } } : State).apart) ∧
    (∀ (m : TxMove) (o : Word) (b : Nat), s.ring.tx = some m → m.phase = .fetching (.size o b) →
      let m1 : TxMove := { m with descs := m.descs ++ [⟨o, b, descSize v⟩] }
      let ends := fun (out : TxOutcome) => { m1 with phase := .returning out 0 }
      (descEnd o = true → m1.wellFormed = false →
        ∃ t, exec .txChainJudge s = .next t ∧
          t.apart = ({ s with ring := { s.ring with
            tx := some (ends .undeliverable)
            counters := { s.ring.counters with malformed := min (s.ring.counters.malformed + 1) 4294967295 } } }
              : State).apart) ∧
      (descEnd o = true → m1.wellFormed = true → 2040 < m1.length →
        ∃ t, exec .txChainJudge s = .next t ∧
          t.apart = ({ s with ring := { s.ring with tx := some (ends .overlength) } } : State).apart) ∧
      (descEnd o = false → s.ring.par.txSize ≤ m1.descs.length →
        ∃ t, exec .txChainJudge s = .next t ∧
          t.apart = ({ s with ring := { s.ring with tx := some (ends .overlength) } } : State).apart) ∧
      (∀ x : TxDesc, descEnd o = true → m1.wellFormed = true → m1.length ≤ 2040 → m1.descs.head? = some x →
        descDestination x.owner = 0 →
        ∃ t, exec .txChainJudge s = .next t ∧
          t.apart = ({ s with
            ring := { s.ring with tx := some (ends .badDestination) }
            sw := { s.sw with counters := vset s.sw.counters 0 { vget s.sw.counters 0 with
              framesIn := min ((vget s.sw.counters 0).framesIn + 1) 4294967295
              badDestination := min ((vget s.sw.counters 0).badDestination + 1) 4294967295 } } } : State).apart))

/-- R83, R86, R87, R88: a frame for one slot. At the judgement of its chain a frame for a serving slot with room for it is
accepted: its header is stored, its blocks are taken and reserved in the slot's queue, and its load begins. A frame that is
held and offered again, after a report of room, to a slot that has ceased to serve is UNDELIVERABLE, and one that still finds
no room is held. -/
def Obligations.TransmitFrameOffered : Prop :=
  ∀ (j : Slot) (x : TxDesc) (s : State), s.busQuiet → descDestination x.owner = j.val + 1 →
    let c := descClass x.owner
    let limit := if c = .timed then (s.slot j).cfg.timedLimit else (s.slot j).cfg.bulkLimit
    let p0 := vget s.sw.counters 0
    let counted := { p0 with framesIn := min (p0.framesIn + 1) 4294967295 }
    let pj := vget s.sw.counters (portOf j)
    let lost := { pj with notServing := min (pj.notServing + 1) 4294967295 }
    let reserved := { s.sw.queue j c with reserved := (s.sw.queue j c).reserved ++ [s.sw.nextId] }
    (∀ (a : Addr) (m : TxMove) (o : Word) (b : Nat), s.path.holder = some (.word ⟨.ring, .tx, .read a⟩) → s.ring.tx = some m →
      m.phase = .fetching (.size o b) → descEnd o = true →
      let m1 : TxMove := { m with descs := m.descs ++ [⟨o, b, descSize (Memory.readWord s.mem a)⟩] }
      let need := blocksFor m1.length
      m1.wellFormed = true → m1.length ≤ 2040 → m1.descs.head? = some x → (s.slot j).serving = true →
      (c = .timed → s.sw.quality ≤ (s.slot j).cfg.gate) → need ≤ s.sw.free →
      s.sw.occupancy (s.sw.queue j c) + need ≤ limit → (loadPoint m1.descs 0 0).1 < m1.descs.length →
      ∃ t, exec .txChainJudge s = .next t ∧
        t.apart = ({ s with
          sw := { (s.sw.setQueue j c reserved) with
            free := s.sw.free - need
            stored := s.sw.stored ++ [{ id := s.sw.nextId, header := headerBytes .data (j.val + 1) 0 c m1.length
                                        payload := [], blocks := need, refs := 2, loading := true }]
            nextId := s.sw.nextId + 1
            counters := vset s.sw.counters 0 counted }
          ring := { s.ring with tx := some { m1 with
            phase := .loading s.sw.nextId .accepted (loadPoint m1.descs 0 0).1 (loadPoint m1.descs 0 0).2 [] } } }
              : State).apart) ∧
    (∀ m : TxMove, s.ring.tx = some m → m.phase = .held true → m.descs.head? = some x →
      ((s.slot j).serving = false →
        ∃ t, exec .heldFrameReoffer s = .next t ∧
          t.apart = ({ s with
            ring := { s.ring with tx := some { m with phase := .returning .undeliverable 0 } }
            sw := { s.sw with counters := vset (vset s.sw.counters 0 counted) (portOf j) lost } } : State).apart) ∧
      ((s.slot j).serving = true → (c = .timed → s.sw.quality ≤ (s.slot j).cfg.gate) →
        s.sw.free < blocksFor m.length ∨ limit < s.sw.occupancy (s.sw.queue j c) + blocksFor m.length →
        ∃ t, exec .heldFrameReoffer s = .next t ∧
          t.apart = ({ s with ring := { s.ring with tx := some { m with phase := .held false } } } : State).apart))

/-- R87, R109, R113: with the last payload word read, a frame reserved in one queue takes its place at that queue's tail
and its chain is handed back (the slot's lanes not free to start it). With the first descriptor's owner word written the
chain is counted by its outcome, the transmit index moves past it and is examined, and TX_DONE is delivered. R99: a halt is
complete when neither movement is left: queue 0 is flushed, the engine is RING_STOPPED and a RING_STOP executing finishes. (That
the end of a halt is a row of its own, passed over when the engine is not halting, is the model's choice: assumption logs 4 and
33.) -/
def Obligations.TransmitEnds : Prop :=
  (∀ (a : Addr) (m : TxMove) (id d w : Nat) (out : TxOutcome) (bs : List Byte) (j : Slot) (c : Cls) (f : Stored)
      (s : State), s.busQuiet → s.path.holder = some (.word ⟨.ring, .tx, .read a⟩) → s.ring.tx = some m →
    m.phase = .loading id out d w bs → m.descs.length ≤ (loadPoint m.descs d (w + 1)).1 →
    s.reservedAt id = [(portOf j, c)] → s.sw.find id = some f → f.refs = 2 →
    (∀ p, (s.lane j p).state ≠ .up ∨ (s.lane j p).tx ≠ .none) →
    let size := match m.descs[d]? with | some x => x.size | none => 0
    let q := s.sw.queue j c
    ∃ t, exec .txLoadComplete s = .next t ∧
      t.apart = ({ s with
        sw := { (s.sw.setQueue j c { frames := q.frames ++ [id], reserved := q.reserved.filter (· ≠ id) }) with
          stored := s.sw.stored.map (fun y => if y.id = id then
            { y with payload := bs ++ bytesOfWord (Memory.readWord s.mem a) (size - 4 * w), loading := false
                     refs := y.refs - 1 } else y) }
        ring := { s.ring with tx := some { m with phase := .returning out 0 } } } : State).apart) ∧
  (∀ (a : Addr) (v : Word) (m : TxMove) (out : TxOutcome) (n : Nat) (s : State), s.busQuiet →
    s.path.holder = some (.word ⟨.ring, .tx, .write a v⟩) → s.ring.tx = some m → m.phase = .returning out n →
    m.descs.length ≤ n + 1 →
    ∃ t, exec .txReturnDone s = .next t ∧
      t.apart = (State.withCauses { s with
        mem := Memory.writeWord s.mem a v allBytes
        ring := { s.ring with
          tx := none, txIdx := (s.ring.txIdx + m.descs.length) % s.ring.par.txSize
          exam := if s.ring.state = .running then some false else s.ring.exam
          counters := s.ring.counters.outcome out } } 0x010).apart) ∧
  (∀ (o : OpenCmd) (s : State), s.busQuiet → s.ring.rx = none → s.ring.tx = none → s.sw.queue0 = EgressQueue.nil →
    s.cmd.collection = .executing o →
    (s.ring.state = .halting →
      ∃ t, exec .ringHaltComplete s = .next t ∧
        t.apart = ({ s with
          ring := { s.ring with state := .stopped }
          cmd := if o.cmd = .ringStop
            then { s.cmd with collection := .idle, transfer := none
                              record := s.cmd.record.finished .ringStop .done 0 false }
            else s.cmd } : State).apart) ∧
    (s.ring.state ≠ .halting → ∃ t, exec .ringHaltComplete s = .next t ∧ t.apart = s.apart)) ∧
  (∀ s : State, s.busQuiet → s.ring.state = .halting → s.ring.rx = none → s.ring.tx = none →
    (∀ o : OpenCmd, s.cmd.collection = .executing o → o.cmd ≠ .ringStop) →
    let ids := s.sw.queue0.frames ++ s.sw.queue0.reserved
    (∀ f : Stored, ids = [f.id] → s.sw.find f.id = some f → f.refs = 1 → s.sw.queue0.reserved = [] →
      ∃ t, exec .ringHaltComplete s = .next t ∧
        t.apart = ({ s with
          ring := { s.ring with state := .stopped }
          sw := s.sw.headGone f.id f.blocks (fun c => { c with flushed := min (c.flushed + 1) 4294967295 }) } : State).apart) ∧
    (ids ≠ [] →
      ∃ t, exec .ringHaltComplete s = .next t ∧ t.ring.state = .stopped ∧ t.sw.queue0 = EgressQueue.nil ∧
        t.sw.counters = vset s.sw.counters 0 { vget s.sw.counters 0 with
          flushed := min ((vget s.sw.counters 0).flushed + ids.length) 4294967295 }))

/-! ## Cabinet time -/

/-- R114: one oscillator period, away from a second boundary and with no boundary wait in progress: ns gains 10, and the
residue ten times the trim, with its carry of 1 ns. R115: a rollover takes the waiting SET_TIME value, or the next second;
PPS_OUT goes high for 10 ms; the snapshot words show the new second; and nothing else changes but ns, the residue and the
oscillator count (with no boundary wait in progress). R128: in HOLDOVER it also adds 1 to the holdover seconds, up to
4,294,967,295, and the beyond-limit flag is set when they exceed the holdover limit, else clear; a change of the flag takes the
quality to 3 or 1 and delivers TIME_STATE (no slot's time gate shut by the new quality). The pulse ends at its instant. (That these rows let the
oscillator run up to their moment is the model's form of time: assumption logs 7 and 8.) -/
def Obligations.PeriodAndRollover : Prop :=
  (∀ s : State, s.busQuiet → s.time.inRange → s.boundaryLeft = none →
    let r := s.time.residue + 10 * s.time.trim
    let k : Int := if 1000000000 ≤ r then 1 else if r ≤ -1000000000 then -1 else 0
    (s.time.ns : Int) + 10 + k < 1000000000 →
    ∃ t, exec (.oscillatorPeriod 1) s = .next t ∧
      t.apart = ({ s with osc := s.osc + 1
                          time := { s.time with ns := ((s.time.ns : Int) + 10 + k).toNat
                                                residue := r - k * 1000000000 } } : State).apart) ∧
  (∀ s : State, s.busQuiet → s.time.inRange → s.boundaryLeft = none →
    let h := min (s.time.holdover + 1) 4294967295
    let beyond : Bool := s.time.disc.holdoverLimit < h
    let quality := if beyond then 3 else 1
    ∃ (n ns : Nat) (r : Int) (t : State), exec .rollover s = .next t ∧ 0 < n ∧ ns ≤ 10 ∧
      let u : TimeBase := match s.time.pendingSet with
        | some v => { s.time with sec := v, pendingSet := none, mark := (s.time.mark + 1) % 65536
                                  setApplied := min (s.time.setApplied + 1) 4294967295 }
        | none => { s.time with sec := (s.time.sec + 1) % 4294967296 }
      let after := fun (v : TimeBase) => ({ s with
        osc := s.osc + n
        time := { v with ns := ns, residue := r, ppsOut := some (s.osc + n + 1000000) }
        cmd := { s.cmd with snapSec := u.sec, snapNs := 0 } } : State)
      (s.time.state ≠ .holdover → t.apart = (after u).apart) ∧
      (s.time.state = .holdover → beyond = s.time.beyond → t.apart = (after { u with holdover := h }).apart) ∧
      (s.time.state = .holdover → beyond ≠ s.time.beyond → (∀ i, quality ≤ (s.slot i).cfg.gate) →
        t.apart = (State.withCauses { after { u with holdover := h, beyond := beyond } with
          sw := { s.sw with quality := quality } } 0x400).apart)) ∧
  (∀ (x : Nat) (s : State), s.busQuiet → s.time.ppsOut = some x → (s.advanceTo x).time.ppsOut = some x →
    ∃ t, exec .ppsOutPulseEnd s = .next t ∧
      t.apart = ({ s.advanceTo x with time := { (s.advanceTo x).time with ppsOut := none } } : State).apart)

/-- R114, R115: the model's passing of many oscillator periods at once (its form of time, assumption log 7) is the passing of one
after another, in every state in range, whether the command unit's waiting place is filled or not (R35: it is filled before the
first period). -/
def Obligations.PeriodsOneByOne : Prop :=
  ∀ (n : Nat) (s : State), s.time.inRange → exec (.oscillatorPeriod n) s = .next ((State.tick^[n] s).settle)

/-- R119, R120, R122, R123 to R127: references. With no enabled entry of kind PPS_INPUT an edge of PPS_IN changes nothing. With
entry 0 the only one, its first edge is recorded and starts its watch; an interval that is not good returns its count to 0; a good
one counts, and the third in a row qualifies the entry, which is then selected, with the time base ACQUIRING. While it is selected
an edge gives the phase error. A phase error below the step limit runs the loop: inside the lock window it counts towards LOCKED,
which the lock count reaches, and outside it returns the run to 0; in LOCKED the fourth in a row outside the window takes the
time base back to ACQUIRING. A phase error at the step limit or beyond moves cabinet time to the edge (R124), into the next second
as a rollover does (R115) when the edge comes before the boundary. A watch that expires disqualifies its entry; when that leaves
LOCKED without a selection the time base is in HOLDOVER. (No boundary wait in progress at a step, and no slot's time gate shut by
the new quality. That the watch's row lets time pass up to the expiry is the model's form of time: assumption logs 7 and 8.) -/
def Obligations.ReferencesJudged : Prop :=
  ∀ s : State, s.busQuiet →
    ((∀ k, (s.ref k).cfg.enabled = false ∨ (s.ref k).cfg.kind = .slot) →
      ∃ t, exec .ppsInEdge s = .next t ∧ t.apart = s.apart) ∧
    ((s.ref 0).cfg.enabled = true → (s.ref 0).cfg.kind = .ppsInput →
      (∀ k, k ≠ 0 → (s.ref k).cfg.enabled = false ∨ (s.ref k).cfg.kind = .slot) →
      let at_ := fun (good : Nat) (q : Bool) => s.time.setRef 0 { s.ref 0 with
        good := good, qualified := q, last := some s.osc, watch := some (s.osc + 110000000) }
      let ends := fun (t' : State) => ∃ t, exec .ppsInEdge s = .next t ∧ t.apart = t'.apart
      let gatesOpen := ∀ i, 2 ≤ (s.slot i).cfg.gate
      ((s.ref 0).last = none → s.time.selected = none → ends { s with time := at_ 0 (s.ref 0).qualified }) ∧
      (∀ l : Nat, (s.ref 0).last = some l →
        (s.osc - l < 99900000 ∨ 100100000 < s.osc - l → (s.ref 0).qualified = false →
          ends { s with time := { at_ 0 false with
            intervalRejects := min (s.time.intervalRejects + 1) 4294967295 } }) ∧
        (99900000 ≤ s.osc - l → s.osc - l ≤ 100100000 →
          ((s.ref 0).qualified = false → (s.ref 0).good < 2 → ends { s with time := at_ ((s.ref 0).good + 1) false }) ∧
          ((s.ref 0).qualified = false → (s.ref 0).good = 2 → (∀ k, k ≠ 0 → (s.ref k).qualified = false) →
            s.time.selected = none → s.time.state = .free ∨ s.time.state = .holdover → gatesOpen →
            ends (State.withCauses { s with
              time := { at_ 3 true with selected := some 0, state := .acquiring, lockRun := 0, unlockRun := 0
                                        holdover := 0, beyond := false }
              sw := { s.sw with quality := 2 } } 0x400)) ∧
          ((s.ref 0).qualified = true → s.time.selected = some 0 → s.time.ns < 1000000000 →
            let e : Int := if s.time.ns < 500000000 then (s.time.ns : Int) else (s.time.ns : Int) - 1000000000
            let taken : TimeBase := { at_ (min ((s.ref 0).good + 1) 3) true with lastError := e }
            let i := max (-8000000) (min 8000000 (s.time.integral + e))
            let steered : TimeBase := { taken with
              integral := i
              trim := max (-50000) (min 50000 (-(Int.tdiv e (2 ^ s.time.disc.kp) + Int.tdiv i (2 ^ s.time.disc.ki)))) }
            let n := min (s.time.lockRun + 1) 255
            let m := min (s.time.unlockRun + 1) 4
            (e.natAbs < s.time.disc.stepLimit →
              (s.time.state = .locked → e.natAbs ≤ s.time.disc.lockWindow →
                ends { s with time := { steered with unlockRun := 0 } }) ∧
              (s.time.state = .acquiring → e.natAbs ≤ s.time.disc.lockWindow → n < s.time.disc.lockCount →
                ends { s with time := { steered with lockRun := n } }) ∧
              (s.time.state = .acquiring → e.natAbs ≤ s.time.disc.lockWindow → s.time.disc.lockCount ≤ n →
                ends (State.withCauses { s with
                  time := { steered with lockRun := n, state := .locked, unlockRun := 0 }
                  sw := { s.sw with quality := 0 } } 0x400)) ∧
              (s.time.state = .acquiring → s.time.disc.lockWindow < e.natAbs →
                ends { s with time := { steered with lockRun := 0 } }) ∧
              (s.time.state = .locked → s.time.disc.lockWindow < e.natAbs → m < 4 →
                ends { s with time := { steered with unlockRun := m } }) ∧
              (s.time.state = .locked → s.time.disc.lockWindow < e.natAbs → m = 4 → gatesOpen →
                ends (State.withCauses { s with
                  time := { steered with unlockRun := 4, state := .acquiring, lockRun := 0 }
                  sw := { s.sw with quality := 2 } } 0x400))) ∧
            (s.time.disc.stepLimit ≤ e.natAbs → s.boundaryLeft = none → s.time.state = .acquiring ∨ s.time.state = .locked →
              gatesOpen →
              let stepped : TimeBase := { taken with
                ns := 0, state := .acquiring, lockRun := 0, unlockRun := 0, steps := min (s.time.steps + 1) 4294967295
                mark := (s.time.mark + 1) % 65536, stepOccurred := true }
              let turned : TimeBase := match s.time.pendingSet with
                | some v => { stepped with sec := v, pendingSet := none, mark := (stepped.mark + 1) % 65536
                                           setApplied := min (s.time.setApplied + 1) 4294967295 }
                | none => { stepped with sec := (s.time.sec + 1) % 4294967296 }
              let after := fun (t' : State) => if s.time.state = .locked
                then State.withCauses { t' with sw := { t'.sw with quality := 2 } } 0x400 else t'
              (0 ≤ e → ends (after { s with time := stepped })) ∧
              (e < 0 → ends (after { s with
                time := { turned with ppsOut := some (s.osc + 1000000) }
                cmd := { s.cmd with snapSec := turned.sec, snapNs := 0 } }))))))) ∧
    (∀ (k : Fin 4) (x : Nat), (s.ref k).watch = some x →
      let u := s.advanceTo x
      let gone := { u.ref k with qualified := false, good := 0, last := none, watch := none }
      let expired := { u.time.setRef k gone with watchExpiries := min (u.time.watchExpiries + 1) 4294967295 }
      ((u.ref k).qualified = false →
        ∃ t, exec (.referenceWatchExpiry k) s = .next t ∧ t.apart = ({ u with time := expired } : State).apart) ∧
      ((u.ref k).qualified = true → (∀ j, j ≠ k → (u.ref j).qualified = false) → u.time.selected = some k →
        u.time.state = .locked → (∀ i, 1 ≤ (u.slot i).cfg.gate) →
        ∃ t, exec (.referenceWatchExpiry k) s = .next t ∧
          t.apart = (State.withCauses { u with
            time := { expired with selected := none, state := .holdover, holdover := 0, beyond := false }
            sw := { u.sw with quality := 1 } } 0x400).apart))

/-! ## The cycle list -/

/-- R138, R140 to R145, R147, R149, R151: the fourth word of an entry has been read and the entry is judged. STOP ends the cycle
with CYCLE_END; an unknown kind faults with ILLEGAL_KIND, and a value, target or plane choice outside its range with
ILLEGAL_FIELD. A WAIT_GAP runs for its time, at least 1 µs, a WAIT_BOUNDARY until the next multiple of its period. JUMP, CALL,
RETURN and NOTIFY are zero-time entries: the 64th in a row faults with RUNAWAY; else a JUMP moves the walk to its address, a CALL
too with the address after it pushed, a RETURN moves it to the address last pushed, and a NOTIFY keeps its code and delivers
CYCLE_NOTIFY. A CALL on a full return stack and a RETURN on an empty one fault with STACK, and an address where no entry may stand
with ILLEGAL_ADDRESS. A POLL of an ADMITTED slot begins its first attempt, and a TIME for one slot submits its frame: on an idle
lane that is UP the frame starts at once; a slot that is not ADMITTED makes the entry ABSENT (the plane bit of its result is free, and so are the fields
of a STATUS that it did not receive and the bits of an RTT sample that it does not have: assumption logs 10 and 44). R136, R137, R139: result word 4 performed, the walk goes on to the next entry, or in CYCLE_HALTING ends
with CYCLE_END and finishes the CYCLE_STOP that waits for it. -/
def Obligations.EntryJudgedAndWrittenBack : Prop :=
  (∀ (a b : Addr) (w0 w1 w2 : Word) (s : State), s.busQuiet → s.path.holder = some (.word ⟨.cycle, .cycle, .read b⟩) →
    s.cyc.entry = some ⟨a, .fetch [w0, w1, w2]⟩ →
    let ws := [w0, w1, w2, Memory.readWord s.mem b]
    let kind := field w0 0 4
    let target : Addr := w1.extractLsb' 0 20
    let number := field w0 8 4
    let ends := fun (t' : State) => ∃ t, exec .cycleEntryFetchDone s = .next t ∧ t.apart = t'.apart
    let faulted := fun (k : CycleFaultKind) (u : State) => ends (State.withCauses { u with cyc := { u.cyc with
      state := .faulted, fault := k, entry := none
      counters := { u.cyc.counters with faults := min (u.cyc.counters.faults + 1) 4294967295 } } } 0x100)
    let goes := fun (u : State) (x : Addr) =>
      (x.toNat % 8 = 0 → s.path.touchesKept x.toNat 8 = false →
        ends { u with cyc := { u.cyc with cur := x, entry := some ⟨x, .fetch []⟩ } }) ∧
      (x.toNat % 8 ≠ 0 ∨ s.path.touchesKept x.toNat 8 = true →
        faulted .illegalAddress { u with cyc := { u.cyc with cur := x } })
    let runs := fun (w : Work) => ends { s with cyc := { s.cyc with zeroRun := 0, entry := some ⟨a, .run ws w⟩ } }
    let absent := fun (c : CycleEngine) (present : Nat) => ends { s with
      cyc := { c with zeroRun := 0, entry := some ⟨a, .writeBack ws
        { w4 := wordOf (7 + 2 ^ 12 * (if Config.freePlane s.draws then 1 else 0) + 2 ^ 16 * (Config.freeFlags s.draws).toNat
            + 2 ^ 24 * (Config.freeCodes s.draws).val)
          w5 := wordOf (2 ^ 31 * present + (Config.freeRtt s.draws).toNat), w6 := wordOf s.time.sec
          w7 := wordOf s.time.ns, n := 0, next := a + 8 }⟩ }
      draws := s.draws + 1 }
    let zero : State := { s with cyc := { s.cyc with zeroRun := s.cyc.zeroRun + 1 } }
    (kind = 0 → ends (State.withCauses { s with cyc := { s.cyc with
      state := .idle, stack := [], zeroRun := 0, entry := none } } 0x080)) ∧
    (8 < kind → faulted .illegalKind s) ∧
    (kind = 1 → w2.toNat ≤ 1000000 → runs (.gap (s.osc + max 1 w2.toNat * 100))) ∧
    (kind = 2 → w2.toNat ∈ [1, 2, 4, 5, 8, 10, 20, 25, 40, 50, 100, 125, 200, 250, 500, 1000] →
      let u := w2.toNat * 1000000
      runs (.boundary (((s.time.ns / u + 1) * u : Nat) - (s.time.ns : Int)))) ∧
    (kind = 1 ∧ 1000000 < w2.toNat ∨
        kind = 2 ∧ w2.toNat ∉ [1, 2, 4, 5, 8, 10, 20, 25, 40, 50, 100, 125, 200, 250, 500, 1000] ∨
        kind = 6 ∧ (number = 0 ∨ 12 < number ∨ field w0 16 2 = 3) ∨
        kind = 7 ∧ (number = 0 ∨ 12 < number ∧ number ≠ 15 ∨ field w0 16 2 = 3) →
      faulted .illegalField s) ∧
    (kind = 3 ∨ kind = 4 ∨ kind = 5 ∨ kind = 8 → 63 ≤ s.cyc.zeroRun → faulted .runaway zero) ∧
    (s.cyc.zeroRun < 63 →
      (kind = 3 → goes zero target) ∧
      (kind = 4 → s.cyc.stack.length < 4 →
        goes { zero with cyc := { zero.cyc with stack := (a + 8) :: s.cyc.stack } } target) ∧
      (kind = 4 ∧ 4 ≤ s.cyc.stack.length ∨ kind = 5 ∧ s.cyc.stack = [] → faulted .stack zero) ∧
      (∀ top rest, kind = 5 → s.cyc.stack = top :: rest →
        goes { zero with cyc := { zero.cyc with stack := rest } } top) ∧
      (kind = 8 → goes (State.withCauses { zero with cyc := { zero.cyc with notify := w2 } } 0x040) (a + 8))) ∧
    (∀ (i : Slot) (choice : PlaneChoice), number = i.val + 1 →
      field w0 16 2 = (match choice with | .active => 0 | .named .a => 1 | .named .b => 2) →
      let p : Plane := match choice with | .active => (s.slot i).active | .named p => p
      let l := s.lane i p
      let starts := fun (k : CtlKind) (bytes : List Byte) =>
        s.setLane i p { l with tx := .control ⟨k, .cycle s.cyc.tag⟩ bytes }
      (kind = 6 →
        ((s.slot i).state ≠ .admitted →
          absent { s.cyc with counters := { s.cyc.counters with
            absent := min (s.cyc.counters.absent + 1) 4294967295 } } 0) ∧
        ((s.slot i).state = .admitted → l.state = .up → l.queue = [] → l.tx = .none →
          let w : PollWork :=
            { slot := i, retries := field w0 12 2, choice := choice, alternate := w0.getLsbD 18
              conditions := w0.extractLsb' 24 6, branch := w0.getLsbD 19, first := some p, made := 1, log := []
              cur := some { plane := p, number := s.cyc.pollNumber, tag := s.cyc.tag
                            t1 := some ⟨s.time.sec, s.time.ns, s.time.mark, s.osc⟩, sent := false, timeout := none } }
          ends { starts (.poll s.cyc.pollNumber) (controlFrame i .poll (pollPayload s.cyc.pollNumber)) with
            cyc := { s.cyc with
              zeroRun := 0, entry := some ⟨a, .run ws (.poll w)⟩, pollNumber := (s.cyc.pollNumber + 1) % 65536
              tag := s.cyc.tag + 1
              counters := { s.cyc.counters with attempts := min (s.cyc.counters.attempts + 1) 4294967295 } } })) ∧
      (kind = 7 →
        ((s.slot i).state ≠ .admitted → absent { s.cyc with tag := s.cyc.tag + 1 }
          (if Config.freeRttPresent s.draws then 1 else 0)) ∧
        ((s.slot i).state = .admitted → l.state = .up → l.queue = [] → l.tx = .none →
          let f := timeFields s.time.sec s.time.ns ((s.slot i).delay p)
          ends { starts .time (controlFrame i .time
                  (timePayload f.1 f.2 s.time.quality ((s.slot i).delay p).valid p)) with
            cyc := { s.cyc with
              zeroRun := 0, tag := s.cyc.tag + 1
              entry := some ⟨a, .run ws (.time
                { tag := s.cyc.tag, awaited := 1, sent := 0, notSent := 0, plane := some p })⟩ } })))) ∧
  (∀ (a x : Addr) (v : Word) (ws : List Word) (b : WriteBack) (s : State), s.busQuiet →
    s.path.holder = some (.word ⟨.cycle, .cycle, .write x v⟩) → s.cyc.entry = some ⟨a, .writeBack ws b⟩ → b.n = 3 →
    let m := Memory.writeWord s.mem x v allBytes
    (s.cyc.state ≠ .halting → b.next.toNat % 8 = 0 → s.path.touchesKept b.next.toNat 8 = false →
      ∃ t, exec .cycleWriteBackDone s = .next t ∧
        t.apart = ({ s with mem := m, cyc := { s.cyc with cur := b.next, entry := some ⟨b.next, .fetch []⟩ } }
          : State).apart) ∧
    (∀ o : OpenCmd, s.cyc.state = .halting → s.cmd.collection = .executing o → o.cmd = .cycleStop →
      ∃ t, exec .cycleWriteBackDone s = .next t ∧
        t.apart = (State.withCauses { s with
          mem := m
          cyc := { s.cyc with state := .idle, stack := [], zeroRun := 0, entry := none }
          cmd := { s.cmd with collection := .idle, transfer := none
                              record := s.cmd.record.finished .cycleStop .done 0 false } } 0x080).apart))

/-- R139, R143, R144, R146, R148, R162: work in RUN ends. A gap that expires and a boundary that is reached end their entry
with outcome ELAPSED and the time at that moment, which for a boundary is its target or up to 10 ns beyond it. A step of time, by
the entry for PPS_IN, moves the distance of a boundary wait, shortened or lengthened, and ends the wait with SLIPPED, counted, when
it leaves none (time ACQUIRING). The fields of a result that a wait has not are free (assumption logs 10 and 44). A response
timeout ends the attempt with NO_RESPONSE; when the entry does not retry that, the poll is finished, the slot counts a missed poll,
and the entry's result words follow, the fields of a STATUS free (one attempt made; plane policy pinned). At the slot's missed-poll
limit the slot is FENCED (nothing in its queues and none of its control frames waiting, no reference entry naming it). (That these
rows let time pass up to the expiry or the boundary is the model's form of time: assumption logs 7 and 8.) -/
def Obligations.WorkEnds : Prop :=
  let w4 := fun (outcome k : Nat) =>
    wordOf (outcome + 2 ^ 12 * (if Config.freePlane k then 1 else 0) + 2 ^ 24 * (Config.freeCodes k).val)
  let w5 := fun (k : Nat) => wordOf (Config.freeRtt k).toNat
  ∀ (a : Addr) (ws : List Word) (s : State), s.busQuiet →
    (∀ x : Nat, s.cyc.entry = some ⟨a, .run ws (.gap x)⟩ →
      let u := s.advanceTo x
      ∃ t, exec .waitGapExpiry s = .next t ∧
        t.apart = ({ u with cyc := { u.cyc with entry := some ⟨a, .writeBack ws
          { w4 := w4 1 u.draws, w5 := w5 u.draws, w6 := wordOf u.time.sec
            w7 := wordOf u.time.ns, n := 0, next := a + 8 }⟩ }, draws := u.draws + 1 } : State).apart) ∧
    (∀ d : Int, s.cyc.entry = some ⟨a, .run ws (.boundary d)⟩ → 0 < d → s.time.inRange →
      ∃ (t : State) (k : Nat) (beyond : Int), exec .waitBoundaryReached s = .next t ∧
        t.cyc.entry = some ⟨a, .writeBack ws
          { w4 := w4 1 k, w5 := w5 k, w6 := wordOf t.time.sec
            w7 := wordOf t.time.ns, n := 0, next := a + 8 }⟩ ∧
        0 ≤ beyond ∧ beyond ≤ 10 ∧ (t.time.ns : Int) = ((s.time.ns : Int) + d + beyond) % 1000000000 ∧
        t.mem = s.mem ∧ t.sm = s.sm ∧ t.ring.state = s.ring.state) ∧
    (∀ (d : Int) (l : Nat), s.cyc.entry = some ⟨a, .run ws (.boundary d)⟩ → (s.ref 0).cfg.enabled = true →
      (s.ref 0).cfg.kind = .ppsInput → (∀ k, k ≠ 0 → (s.ref k).cfg.enabled = false ∨ (s.ref k).cfg.kind = .slot) →
      (s.ref 0).last = some l → 99900000 ≤ s.osc - l → s.osc - l ≤ 100100000 → (s.ref 0).qualified = true →
      s.time.selected = some 0 → s.time.state = .acquiring → s.time.ns < 1000000000 →
      let e : Int := if s.time.ns < 500000000 then (s.time.ns : Int) else (s.time.ns : Int) - 1000000000
      s.time.disc.stepLimit ≤ e.natAbs →
      (0 < d + e → ∃ t, exec .ppsInEdge s = .next t ∧ t.time.ns = 0 ∧
        t.cyc = { s.cyc with entry := some ⟨a, .run ws (.boundary (d + e))⟩ }) ∧
      (d + e ≤ 0 → ∃ t, exec .ppsInEdge s = .next t ∧ t.time.ns = 0 ∧
        t.cyc = { s.cyc with
          counters := { s.cyc.counters with slips := min (s.cyc.counters.slips + 1) 4294967295 }
          entry := some ⟨a, .writeBack ws
            { w4 := w4 2 s.draws, w5 := w5 s.draws, w6 := wordOf t.time.sec
              w7 := wordOf t.time.ns, n := 0, next := a + 8 }⟩ })) ∧
    (∀ (w : PollWork) (c : Attempt) (x : Nat), s.cyc.entry = some ⟨a, .run ws (.poll w)⟩ → w.cur = some c →
      c.timeout = some x → w.made = 1 → w.log = [] → w.conditions.getLsbD 0 = false →
      let u := s.advanceTo x
      let e := u.slot w.slot
      let n := min (e.missed + 1) 15
      let ended : State := { u with
        sm := { u.sm with discarded := min u.sm.discarded 4294967295 }
        cyc := { u.cyc with
          counters := { u.cyc.counters with unanswered := min (u.cyc.counters.unanswered + 1) 4294967295 }
          entry := some ⟨a, .writeBack ws
            { w4 := wordOf (5 + 256 + 4096 * (if c.plane = .b then 1 else 0) + 2 ^ 16 * (Config.freeFlags u.draws).toNat
                + 2 ^ 24 * (Config.freeCodes u.draws).val)
              w5 := w5 u.draws, w6 := wordOf u.time.sec
              w7 := wordOf u.time.ns, n := 0, next := a + 8 }⟩ }
        draws := u.draws + 1 }
      e.cfg.policy ≠ .auto →
      (n < e.cfg.missLimit →
        ∃ t, exec .pollResponseTimeout s = .next t ∧ t.apart = (ended.setSlot w.slot { e with missed := n }).apart) ∧
      (e.cfg.missLimit ≤ n → e.state = .admitted → e.fenced = false → (∀ q, (u.lane w.slot q).queue = []) →
        (∀ k, u.sw.queue w.slot k = EgressQueue.nil) → (∀ k, (u.ref k).names w.slot = false) →
        ∃ t, exec .pollResponseTimeout s = .next t ∧
          t.apart = (State.slotBecomes { ended with ring := { u.ring with tx := u.ring.tx.map TxMove.roomSeen } } w.slot
            { e with missed := n, fenced := true }).apart))

/-! ## Alarm points and the log -/

/-- R170: a point that does not latch is RAISED by its raise count of true observations in a row, and by no fewer. R166, R168,
R170: a scan with no enabled point clears the event marks and STEP_OCCURRED, and the timer runs on. A
masked CONTACT point, the only one enabled, with raise count 1 is RAISED by a scan that finds its contact as its sense asks.
R167: a contact's level is recorded, and nothing acts on it before the next scan. (That the scan's row lets time pass up to the
scan, and that the next one is counted from the moment this one was due, is the model's form of time: assumption logs 7 and
8.) -/
def Obligations.ScanTaken : Prop :=
  (∀ (p : Point) (n : Nat), p.cfg.latching = false → p.state = .clear → 1 ≤ p.cfg.raiseCount → 1 ≤ n →
    (((fun q : Point => q.observe true)^[n] p).state = .raised ↔ p.cfg.raiseCount ≤ n)) ∧
  (∀ s : State, s.busQuiet →
    let u := s.advanceTo s.alarm.scanAt
    let after := fun (v : Vector Point 64) => ({ u with
      alarm := { u.alarm with points := v, marks := Marks.clear, scanAt := u.alarm.scanAt + 10000000 }
      time := { u.time with stepOccurred := false } } : State).apart
    ((∀ k, (u.point k).cfg.enabled = false) → ∃ t, exec .alarmScan s = .next t ∧ t.apart = after u.alarm.points) ∧
    (∀ (k : Fin 64) (c : Fin 8), (∀ j, j ≠ k → (u.point j).cfg.enabled = false) → (u.point k).cfg.enabled = true →
      (u.point k).cfg.masked = true → (u.point k).cfg.kind = .contact → (u.point k).cfg.which = c.val →
      (vget u.alarm.contacts c != (u.point k).cfg.whenOpen) = true → (u.point k).state = .clear →
      (u.point k).cfg.raiseCount = 1 → u.cmd.hub ≠ .loading .load →
      ∃ t, exec .alarmScan s = .next t ∧
        t.apart = after (vset u.alarm.points k { u.point k with state := .raised, count := 0, sourceCleared := false }))) ∧
  (∀ (c : Fin 8) (closed : Bool) (s : State), s.busQuiet →
    ∃ t, exec (.contactLevelChange c closed) s = .next t ∧
      t.apart = ({ s with alarm := { s.alarm with contacts := vset s.alarm.contacts c closed } } : State).apart)

/-- R175: with the fourth word of the head entry performed the entry leaves the write queue, the producer index advances
and ALARM_LOGGED is delivered. -/
def Obligations.LogEntryWritten : Prop :=
  ∀ (e : LogEntry) (rest : List LogEntry) (a : Addr) (d : Word) (s : State), s.busQuiet →
    s.path.holder = some (.word ⟨.alarm, .log, .write a d⟩) → s.alarm.queue = e :: rest → s.alarm.headDone = 3 →
    e.stale = false →
    ∃ t, exec .logEntryWritten s = .next t ∧
      t.apart = (State.withCauses { s with
        mem := Memory.writeWord s.mem a d allBytes
        alarm := { s.alarm with queue := rest, headDone := 0
                                producer := (s.alarm.producer + 1) % s.alarm.logSize } } 0x800).apart
end

