-- ==== Sys2Proof/Laws/Memory.lean ====
section
/-! SUPPORT. Laws of shelf memory: every operation keeps the canonical form, a read after a write answers the value
written at that byte and what was there before at every other. -/

namespace Sys2Proof.Machine

open Sys2Proof

namespace Memory

variable {m : Memory} {a b : Nat} {v : Byte}

theorem wf_nil : WF [] := by simp [WF]

theorem wf_tail {c : Host.Cell} (h : WF (c :: m)) : WF m :=
  ⟨(List.pairwise_cons.mp h.1).2, fun x hx => h.2 x (List.mem_cons_of_mem _ hx)⟩

/-- Entries after a write: the written one, or one that was there. -/
theorem mem_write {x : Host.Cell} (h : x ∈ write m a v) : x = (a, v) ∧ v ≠ unlisted ∨ x ∈ m := by
  induction m with
  | nil => unfold write at h; split at h <;> simp_all
  | cons c m ih =>
    obtain ⟨k, w⟩ := c
    unfold write at h
    split at h
    · split at h <;> simp_all
    · split at h
      · split at h
        · exact .inr (List.mem_cons_of_mem _ h)
        · rcases List.mem_cons.mp h with h | h
          · exact .inl ⟨h, by assumption⟩
          · exact .inr (List.mem_cons_of_mem _ h)
      · rcases List.mem_cons.mp h with h | h
        · exact .inr (h ▸ List.mem_cons_self ..)
        · exact (ih h).imp id (List.mem_cons_of_mem _)

/-- A write keeps the canonical form. -/
theorem wf_write (h : WF m) : WF (write m a v) := by
  induction m with
  | nil => unfold write; split <;> simp_all [WF]
  | cons c m ih =>
    obtain ⟨k, w⟩ := c
    have hm := wf_tail h
    have hk := (List.pairwise_cons.mp h.1).1
    refine ⟨?_, fun x hx => ?_⟩
    · unfold write
      split
      · split
        · exact h.1
        · refine List.pairwise_cons.mpr ⟨fun x hx => ?_, h.1⟩
          rcases List.mem_cons.mp hx with rfl | hx
          · assumption
          · have := hk x hx; simp only at *; omega
      · split
        · split
          · exact hm.1
          · exact List.pairwise_cons.mpr ⟨fun x hx => by have := hk x hx; simp only at *; omega, hm.1⟩
        · refine List.pairwise_cons.mpr ⟨fun x hx => ?_, (ih hm).1⟩
          rcases mem_write hx with ⟨rfl, _⟩ | hx
          · simp only; omega
          · exact hk x hx
    · rcases mem_write hx with ⟨rfl, hv⟩ | hx
      · exact hv
      · exact h.2 x hx

/-- Below the first entry, and where nothing is listed, memory reads as an unlisted byte. -/
theorem read_of_lt (h : ∀ c ∈ m, a < c.1) : read m a = unlisted := by
  cases m with
  | nil => rfl
  | cons c m =>
    have := h c (List.mem_cons_self ..)
    unfold read
    rw [if_neg (by omega), if_pos this]

/-- A read after a write of the same byte answers the byte written. -/
theorem read_write_same (h : WF m) : read (write m a v) a = v := by
  induction m with
  | nil => unfold write; split <;> simp_all [read]
  | cons c m ih =>
    obtain ⟨k, w⟩ := c
    unfold write
    split
    · rename_i hlt
      split
      · rename_i hv
        rw [hv]; unfold read; rw [if_neg (by omega), if_pos hlt]
      · rw [read, if_pos rfl]
    · split
      · rename_i hk
        split
        · rename_i hv
          rw [hv]
          exact read_of_lt fun x hx => hk ▸ (List.pairwise_cons.mp h.1).1 x hx
        · rw [read, if_pos rfl]
      · unfold read
        rw [if_neg (by omega), if_neg (by omega)]
        exact ih (wf_tail h)

/-- A read after a write of another byte answers what it answered before. -/
theorem read_write_ne (h : WF m) (hab : b ≠ a) : read (write m a v) b = read m b := by
  induction m with
  | nil =>
    unfold write
    split
    · rfl
    · simp [read, hab]
  | cons c m ih =>
    obtain ⟨k, w⟩ := c
    have hk := (List.pairwise_cons.mp h.1).1
    unfold write
    split
    · split
      · rfl
      · rename_i hlt _
        rw [read, if_neg hab]
        split
        · rename_i hlt'
          exact (read_of_lt fun x hx => by
            rcases List.mem_cons.mp hx with rfl | hx
            · simp only; omega
            · have := hk x hx; simp only at *; omega).symm
        · rfl
    · split
      · rename_i hak
        subst hak
        have hb : read ((a, w) :: m) b = read m b := by
          rw [read, if_neg hab]
          split
          · rename_i hlt
            exact (read_of_lt fun x hx => by have := hk x hx; simp only at *; omega).symm
          · rfl
        split
        · exact hb.symm
        · rw [hb, read, if_neg hab]
          split
          · rename_i hlt
            exact (read_of_lt fun x hx => by have := hk x hx; simp only at *; omega).symm
          · rfl
      · rw [read, read]
        split
        · rfl
        · split
          · rfl
          · exact ih (wf_tail h)

/-! ## Words -/

variable {w : Word} {be : ByteEnables} {ad : Addr} {j : Nat}

theorem wf_writeLane (h : WF m) : WF (writeLane m ad w be j) := by
  unfold writeLane; split
  · exact wf_write h
  · exact h

theorem wf_writeWord (h : WF m) : WF (writeWord m ad w be) :=
  wf_writeLane (wf_writeLane (wf_writeLane (wf_writeLane h)))

theorem read_writeLane (h : WF m) :
    read (writeLane m ad w be j) b
      = if b = 4 * ad.toNat + j ∧ be.getLsbD j = true then byteOf w j else read m b := by
  unfold writeLane
  split
  · rename_i hb
    by_cases hj : b = 4 * ad.toNat + j
    · rw [if_pos ⟨hj, hb⟩, hj, read_write_same h]
    · rw [if_neg (fun x => hj x.1), read_write_ne h hj]
  · rename_i hb
    rw [if_neg (fun x => hb x.2)]

/-- What a byte reads as after a word write: byte `j` of the word where it is one of the word's four bytes and its byte
enable is set, what it read as before otherwise. -/
theorem read_writeWord (h : WF m) :
    read (writeWord m ad w be) b
      = if 4 * ad.toNat ≤ b ∧ b < 4 * ad.toNat + 4 ∧ be.getLsbD (b - 4 * ad.toNat) = true
        then byteOf w (b - 4 * ad.toNat) else read m b := by
  have h0 := wf_writeLane (ad := ad) (w := w) (be := be) (j := 0) h
  have h1 := wf_writeLane (ad := ad) (w := w) (be := be) (j := 1) h0
  have h2 := wf_writeLane (ad := ad) (w := w) (be := be) (j := 2) h1
  unfold writeWord
  rw [read_writeLane h2, read_writeLane h1, read_writeLane h0, read_writeLane h]
  by_cases hb : 4 * ad.toNat ≤ b ∧ b < 4 * ad.toNat + 4
  · obtain ⟨c, rfl⟩ : ∃ c, b = 4 * ad.toNat + c := ⟨b - 4 * ad.toNat, by omega⟩
    obtain hc | hc | hc | hc : c = 0 ∨ c = 1 ∨ c = 2 ∨ c = 3 := by omega
    all_goals
      subst hc
      simp
  · rw [if_neg (fun x => hb (by omega)), if_neg (fun x => hb (by omega)), if_neg (fun x => hb (by omega)),
      if_neg (fun x => hb (by omega)), if_neg (fun x => hb ⟨x.1, x.2.1⟩)]

/-- Words of the same bytes are equal. -/
theorem word_of_bytes (w : Word) : byteOf w 3 ++ byteOf w 2 ++ byteOf w 1 ++ byteOf w 0 = w := by
  apply BitVec.eq_of_getLsbD_eq
  intro i hi
  simp only [BitVec.getLsbD_append, byteOf, BitVec.getLsbD_extractLsb']
  rcases (by omega : i < 8 ∨ 8 ≤ i ∧ i < 16 ∨ 16 ≤ i ∧ i < 24 ∨ 24 ≤ i) with h | h | h | h
  · simp [h]
  · simp [show ¬ i < 8 by omega, show i - 8 < 8 by omega, show 8 + (i - 8) = i by omega]
  · simp [show ¬ i < 8 by omega, show ¬ i - 8 < 8 by omega, show i - 8 - 8 < 8 by omega,
      show 16 + (i - 8 - 8) = i by omega]
  · simp [show ¬ i < 8 by omega, show ¬ i - 8 < 8 by omega, show ¬ i - 8 - 8 < 8 by omega,
      show i - 8 - 8 - 8 < 8 by omega, show 24 + (i - 8 - 8 - 8) = i by omega]

/-- A word read after a full write of it. -/
theorem readWord_writeWord_same (h : WF m) : readWord (writeWord m ad w allBytes) ad = w := by
  unfold readWord
  rw [read_writeWord h, read_writeWord h, read_writeWord h, read_writeWord h]
  have e : 4 * ad.toNat + 3 - 4 * ad.toNat = 3 ∧ 4 * ad.toNat + 2 - 4 * ad.toNat = 2 ∧
      4 * ad.toNat + 1 - 4 * ad.toNat = 1 ∧ 4 * ad.toNat - 4 * ad.toNat = 0 := by omega
  rw [e.1, e.2.1, e.2.2.1, e.2.2.2]
  rw [if_pos ⟨by omega, by omega, by decide⟩, if_pos ⟨by omega, by omega, by decide⟩,
    if_pos ⟨by omega, by omega, by decide⟩, if_pos ⟨by omega, by omega, by decide⟩]
  exact word_of_bytes w

/-- A word read after a write of another word. -/
theorem readWord_writeWord_ne {ad' : Addr} (h : WF m) (hne : ad' ≠ ad) :
    readWord (writeWord m ad w be) ad' = readWord m ad' := by
  have hn : ad'.toNat ≠ ad.toNat := fun x => hne (BitVec.eq_of_toNat_eq x)
  unfold readWord
  rw [read_writeWord h, read_writeWord h, read_writeWord h, read_writeWord h,
    if_neg (by omega), if_neg (by omega), if_neg (by omega), if_neg (by omega)]

end Memory

end Sys2Proof.Machine
end

