-- ==== Sys2Proof/Laws/Outside.lean ====
section
/-! SUPPORT. What the blocks' work leaves alone: no operation of a block, from an attention cause to a fetched cycle entry,
touches shelf memory, the queue of commands and events, the controller's accesses on the bus or the arbiter
(`State.outside`). Only the memory port (Machine/Port.lean) does. -/

namespace Sys2Proof.Machine

open Sys2Proof

/-- An update of other fields. -/
@[simp] theorem outside_with (s : State) (c : CommandUnit) (l : Vector Lanes 12) (sm : SlotManager) (sw : SwitchCore)
    (r : RingEngine) (t : TimeBase) (cy : CycleEngine) (a : AlarmUnit) (o d : Nat) :
    (State.mk s.pending s.mem s.path c l sm sw r t cy a o d).outside = s.outside := rfl

/-- An update of the zones and the counts of the memory path and of other fields. -/
@[simp] theorem outside_with_path (s : State) (z : Option ZoneSet) (g : Nat)
    (ga : Addr) (pc : Nat) (c : CommandUnit) (l : Vector Lanes 12) (sm : SlotManager) (sw : SwitchCore)
    (r : RingEngine) (t : TimeBase) (cy : CycleEngine) (a : AlarmUnit) (o d : Nat) :
    (State.mk s.pending s.mem (MemoryPath.mk z s.path.holder s.path.passedOver s.path.lastServed g ga pc s.path.waiting s.path.line s.path.cdata)
      c l sm sw r t cy a o d).outside = s.outside := rfl

/-- A fold of updates none of which touches the outside. -/
theorem foldl_outside {α : Type} (f : State → α → State) (h : ∀ s x, (f s x).outside = s.outside) (l : List α) (s : State) :
    (l.foldl f s).outside = s.outside := by
  induction l generalizing s with
  | nil => rfl
  | cons x l ih => rw [List.foldl_cons, ih, h]

@[simp] theorem State.setSlot_outside (s : State) (i : Slot) (e : SlotEntry) : (s.setSlot i e).outside = s.outside := rfl

@[simp] theorem State.setLane_outside (s : State) (i : Slot) (p : Plane) (l : LanePort) :
    (s.setLane i p l).outside = s.outside := rfl

@[simp] theorem State.touch_outside (s : State) (off : Nat) : (s.touch off).outside = s.outside := rfl

@[simp] theorem retouch_outside (offs : List Nat) (s t : State) : (retouch offs s t).outside = t.outside := rfl

@[simp] theorem reimage_outside (ws : List ImgWord) (s t : State) : (reimage ws s t).outside = t.outside := rfl

@[simp] theorem State.setPending_outside (s : State) (p : BitVec 12) :
    (State.setPending s p).outside = s.outside := by
  rfl

@[simp] theorem State.deliver_outside (s : State) (c : Cause) :
    (State.deliver s c).outside = s.outside := by
  rfl

@[simp] theorem State.setRecord_outside (s : State) (r : CmdRecord) :
    (State.setRecord s r).outside = s.outside := by
  rfl

@[simp] theorem State.setRing_outside (s : State) (r : RingEngine) :
    (State.setRing s r).outside = s.outside := by
  rfl

@[simp] theorem State.setCyc_outside (s : State) (c : CycleEngine) :
    (State.setCyc s c).outside = s.outside := by
  rfl

@[simp] theorem State.setSw_outside (s : State) (w : SwitchCore) :
    (State.setSw s w).outside = s.outside := by
  rfl

@[simp] theorem State.setAlarm_outside (s : State) (a : AlarmUnit) :
    (State.setAlarm s a).outside = s.outside := by
  rfl

@[simp] theorem State.snapshot_outside (s : State) (sec ns : Nat) :
    (State.snapshot s sec ns).outside = s.outside := by
  rfl

@[simp] theorem State.guardHit_outside (s : State) (a : Addr) :
    (State.guardHit s a).outside = s.outside := by
  rfl

@[simp] theorem State.putSlot_outside (s : State) (i : Slot) (e : SlotEntry) :
    (State.putSlot s i e).outside = s.outside := by
  unfold State.putSlot
  split <;> simp

@[simp] theorem State.putPoint_outside (s : State) (k : Fin 64) (p : Point) :
    (State.putPoint s k p).outside = s.outside := by
  rfl

@[simp] theorem State.judgeRelays_outside (s : State) :
    (State.judgeRelays s).outside = s.outside := by
  rfl

@[simp] theorem State.assignEntry_outside (s : State) (b : LogBody) :
    (State.assignEntry s b).outside = s.outside := by
  rfl

@[simp] theorem State.addOverflow_outside (s : State) (n : Nat) :
    (State.addOverflow s n).outside = s.outside := by
  rfl

@[simp] theorem State.assignOverflow_outside (s : State) :
    (State.assignOverflow s).outside = s.outside := by
  rfl

@[simp] theorem State.placeChange_outside (s : State) (b : LogBody) :
    (State.placeChange s b).outside = s.outside := by
  unfold State.placeChange
  (repeat' split) <;> simp

@[simp] theorem State.movePoint_outside (s : State) (k : Fin 64) (p : Point) :
    (State.movePoint s k p).outside = s.outside := by
  unfold State.movePoint
  dsimp only
  (repeat' split) <;> simp

@[simp] theorem State.scanPoint_outside (at0 s : State) (k : Fin 64) :
    (State.scanPoint at0 s k).outside = s.outside := by
  unfold State.scanPoint
  dsimp only
  (repeat' split) <;> simp

@[simp] theorem State.scan_outside (s : State) : s.scan.outside = s.outside := by
  unfold State.scan
  dsimp only
  split
  · rfl
  · rw [outside_with, foldl_outside _ (by simp)]

@[simp] theorem State.observeCard_outside (s : State) (i : Slot) (flags : BitVec 4) (codes : List Byte) :
    (State.observeCard s i flags codes).outside = s.outside := by
  unfold State.observeCard
  rw [foldl_outside]
  intro s x
  dsimp only
  (repeat' split) <;> simp

@[simp] theorem State.clearCardPoints_outside (s : State) (i : Slot) :
    (State.clearCardPoints s i).outside = s.outside := by
  unfold State.clearCardPoints
  rw [foldl_outside]
  intro s x
  dsimp only
  (repeat' split) <;> simp

@[simp] theorem State.resetPoint_outside (s : State) (k : Fin 64) :
    (State.resetPoint s k).outside = s.outside := by
  unfold State.resetPoint
  dsimp only
  (repeat' split) <;> simp

theorem State.alarmResetOp_outside (s t : State) (v : Nat) (h : s.alarmResetOp v = some t) : t.outside = s.outside := by
  unfold State.alarmResetOp at h
  split at h
  · rw [← Option.some.inj h, State.resetPoint_outside]
  · split at h
    · rw [← Option.some.inj h, foldl_outside _ (by simp)]
    · cases h

@[simp] theorem State.emptyPoints_outside (s : State) : s.emptyPoints.outside = s.outside :=
  foldl_outside _ (by simp) _ _

@[simp] theorem State.markLinkError_outside (s : State) (i : Slot) :
    (State.markLinkError s i).outside = s.outside := by
  rfl

@[simp] theorem State.markSurprise_outside (s : State) (i : Slot) :
    (State.markSurprise s i).outside = s.outside := by
  rfl

@[simp] theorem State.markDrop_outside (s : State) (p : Fin 13) :
    (State.markDrop s p).outside = s.outside := by
  rfl

@[simp] theorem State.markMissed_outside (s : State) :
    (State.markMissed s).outside = s.outside := by
  rfl

@[simp] theorem State.consumerWrite_outside (s : State) (v : Word) :
    (State.consumerWrite s v).outside = s.outside := by
  unfold State.consumerWrite
  dsimp only
  (repeat' split) <;> simp

@[simp] theorem State.alarmLeaves_outside (s : State) :
    (State.alarmLeaves s).outside = s.outside := by
  rfl

@[simp] theorem State.alarmEnters_outside (s : State) (base size : Nat) :
    (State.alarmEnters s base size).outside = s.outside := by
  unfold State.alarmEnters
  dsimp only
  (repeat' split) <;> simp

@[simp] theorem State.logWordDone_outside (s : State) :
    (State.logWordDone s).outside = s.outside := by
  unfold State.logWordDone
  dsimp only
  (repeat' split) <;> simp

@[simp] theorem State.bump_outside (s : State) (p : Fin 13) (f : PortCounters → PortCounters) :
    (State.bump s p f).outside = s.outside := by
  rfl

@[simp] theorem State.roomReport_outside (s : State) :
    (State.roomReport s).outside = s.outside := by
  rfl

@[simp] theorem State.dropClaim_outside (s : State) (id : Nat) :
    (State.dropClaim s id).outside = s.outside := by
  unfold State.dropClaim
  dsimp only
  (repeat' split) <;> simp

@[simp] theorem State.reportStart_outside (s : State) (f : CtlFrame) :
    (State.reportStart s f).outside = s.outside := by
  unfold State.reportStart
  split <;> simp

@[simp] theorem State.startData_outside (s : State) (i : Slot) (p : Plane) (c : Cls) (id : Nat) :
    (State.startData s i p c id).outside = s.outside := by
  rfl

@[simp] theorem State.kickLane_outside (s : State) (i : Slot) (p : Plane) :
    (State.kickLane s i p).outside = s.outside := by
  unfold State.kickLane
  dsimp only
  (repeat' split) <;> simp

@[simp] theorem State.kickSlot_outside (s : State) (i : Slot) :
    (State.kickSlot s i).outside = s.outside := by
  simp [State.kickSlot]

@[simp] theorem State.submit_outside (s : State) (i : Slot) (p : Plane) (f : CtlFrame) :
    (State.submit s i p f).1.outside = s.outside := by
  unfold State.submit
  dsimp only
  (repeat' split) <;> simp

@[simp] theorem State.leaveUp_outside (s : State) (i : Slot) (p : Plane) (st : LaneState) :
    (State.leaveUp s i p st).outside = s.outside := by
  unfold State.leaveUp
  dsimp only
  (repeat' split) <;> simp

@[simp] theorem State.frameStart_outside (s : State) (i : Slot) (p : Plane) (bs : List Byte) :
    (State.frameStart s i p bs).outside = s.outside := by
  unfold State.frameStart
  dsimp only
  (repeat' split) <;> simp

@[simp] theorem State.countLoss_outside (s : State) (x : Fin 13 × Loss) :
    (State.countLoss s x).outside = s.outside := by
  unfold State.countLoss
  split <;> simp

@[simp] theorem State.countLosses_outside (s : State) (xs : List (Fin 13 × Loss)) :
    (s.countLosses xs).outside = s.outside :=
  foldl_outside _ (by simp) _ _

@[simp] theorem State.kickPorts_outside (s : State) (ps : List (Fin 13)) : (s.kickPorts ps).outside = s.outside := by
  refine foldl_outside _ (fun s p => ?_) _ _
  split <;> simp

@[simp] theorem State.place_outside (s : State) (c : Cls) (header payload : List Byte) (b : Nat) (ps : List (Fin 13)) :
    (State.place s c header payload b ps).outside = s.outside := by
  simp [State.place]

@[simp] theorem State.placeLoading_outside (s : State) (c : Cls) (header : List Byte) (b : Nat) (ps : List (Fin 13)) :
    (State.placeLoading s c header b ps).outside = s.outside := by
  rfl

@[simp] theorem State.takeCardFrame_outside (s : State) (i : Slot) (header payload : List Byte) :
    (State.takeCardFrame s i header payload).outside = s.outside := by
  unfold State.takeCardFrame
  dsimp only
  (repeat' split) <;> simp

@[simp] theorem State.offer_outside (s : State) (d : Nat) (c : Cls) (n : Nat) :
    (State.offer s d c n).1.outside = s.outside := by
  unfold State.offer
  dsimp only
  (repeat' split) <;> simp

@[simp] theorem State.loadComplete_outside (s : State) (id : Nat) (payload : List Byte) :
    (State.loadComplete s id payload).outside = s.outside := by
  simp [State.loadComplete]

@[simp] theorem State.loadAbandon_outside (s : State) (id : Nat) :
    (State.loadAbandon s id).outside = s.outside := by
  unfold State.loadAbandon
  dsimp only
  (repeat' split) <;> simp

@[simp] theorem State.frameSent_outside (s : State) (i : Slot) (c : Cls) (id : Nat) :
    (State.frameSent s i c id).outside = s.outside := by
  rfl

@[simp] theorem State.leaveQueue0_outside (s : State) (id : Nat) (f : PortCounters → PortCounters) :
    (State.leaveQueue0 s id f).outside = s.outside := by
  unfold State.leaveQueue0
  split <;> simp

@[simp] theorem State.abandonTx_outside (i : Slot) (c : Cls) (s : State) (p : Plane) :
    (State.abandonTx i c s p).outside = s.outside := by
  unfold State.abandonTx
  dsimp only
  (repeat' split) <;> simp

@[simp] theorem State.emptyQueue_outside (i : Slot) (s : State) (c : Cls) :
    (State.emptyQueue i s c).outside = s.outside := by
  unfold State.emptyQueue
  dsimp only
  (repeat' split) <;> simp

@[simp] theorem State.flush_outside (s : State) (i : Slot) (cs : List Cls) : (s.flush i cs).outside = s.outside := by
  unfold State.flush
  rw [State.kickSlot_outside, foldl_outside _ (by simp)]

@[simp] theorem State.flushBoth_outside (s : State) (i : Slot) :
    (State.flushBoth s i).outside = s.outside := by
  simp [State.flushBoth]

@[simp] theorem State.flushQueue0_outside (s : State) :
    (State.flushQueue0 s).outside = s.outside := by
  unfold State.flushQueue0
  dsimp only
  (repeat' split) <;> simp

@[simp] theorem State.takeQuality_outside (s : State) (q : Nat) :
    (State.takeQuality s q).outside = s.outside := by
  unfold State.takeQuality
  rw [foldl_outside]
  · rfl
  · intro s i
    split <;> simp

@[simp] theorem State.cycleEnds_outside (s : State) :
    (State.cycleEnds s).outside = s.outside := by
  rfl

@[simp] theorem State.cycleFault_outside (s : State) (k : CycleFaultKind) :
    (State.cycleFault s k).outside = s.outside := by
  rfl

@[simp] theorem State.cycleGo_outside (s : State) (a : Addr) :
    (State.cycleGo s a).outside = s.outside := by
  unfold State.cycleGo
  split <;> simp

@[simp] theorem State.endEntry_outside (s : State) (a : Addr) (ws : List Word) (r : EntryResult) :
    (State.endEntry s a ws r).outside = s.outside := outside_with ..

@[simp] theorem State.endWait_outside (s : State) (o : EntryOutcome) :
    (State.endWait s o).outside = s.outside := by
  unfold State.endWait
  (repeat' split) <;> simp

@[simp] theorem State.boundaryStep_outside (s : State) (e : Int) :
    (State.boundaryStep s e).outside = s.outside := by
  unfold State.boundaryStep
  dsimp only
  (repeat' split) <;> simp

@[simp] theorem State.boundaryElapsed_outside (s : State) :
    (State.boundaryElapsed s).outside = s.outside := by
  unfold State.boundaryElapsed
  (repeat' split) <;> simp

theorem State.zeroTime_outside (s : State) (go : State → State) (h : ∀ s, (go s).outside = s.outside) :
    (s.zeroTime go).outside = s.outside := by
  unfold State.zeroTime
  dsimp only
  split <;> simp [h]

@[simp] theorem State.enterRun_outside (s : State) (a : Addr) (ws : List Word) (w : Work) :
    (State.enterRun s a ws w).outside = s.outside := by
  rfl

@[simp] theorem State.putTime_outside (s : State) (t : TimeBase) :
    (State.putTime s t).outside = s.outside := by
  unfold State.putTime
  split <;> simp

@[simp] theorem State.glide_outside (s : State) (n : Nat) :
    (State.glide s n).outside = s.outside := by
  rfl

@[simp] theorem State.rollover_outside (s : State) :
    (State.rollover s).outside = s.outside := by
  simp [State.rollover]

@[simp] theorem State.carry_outside (s : State) : s.carry.outside = s.outside := by
  unfold State.carry
  split
  · rw [State.rollover_outside, outside_with]
  · rfl

@[simp] theorem State.fillCommand_outside (s : State) : s.fillCommand.outside = s.outside := by
  unfold State.fillCommand
  (repeat' split) <;> rfl

@[simp] theorem State.stretch_outside (s : State) (k : Nat) :
    (State.stretch s k).outside = s.outside := by
  simp [State.stretch]

@[simp] theorem State.tick_outside (s : State) :
    (State.tick s).outside = s.outside := State.stretch_outside s 1

@[simp] theorem State.runOsc_outside (fuel : Nat) (s : State) (n : Nat) : (State.runOsc fuel s n).outside = s.outside := by
  induction fuel generalizing s n with
  | zero => rfl
  | succ k ih => unfold State.runOsc; split <;> simp [ih]

@[simp] theorem State.advance_outside (s : State) (n : Nat) : (s.advance n).outside = s.outside :=
  State.runOsc_outside n s n

@[simp] theorem State.advanceTo_outside (s : State) (t : Nat) :
    (State.advanceTo s t).outside = s.outside := by
  simp [State.advanceTo]

@[simp] theorem State.disqualifySlot_outside (s : State) (i : Slot) :
    (State.disqualifySlot s i).outside = s.outside := by
  simp [State.disqualifySlot]

@[simp] theorem State.timeStep_outside (s : State) (e : Int) :
    (State.timeStep s e).outside = s.outside := by
  unfold State.timeStep
  dsimp only
  (repeat' split) <;> simp

@[simp] theorem State.loop_outside (s : State) (n : Nat) :
    (State.loop s n).outside = s.outside := by
  unfold State.loop
  dsimp only
  (repeat' split) <;> simp

@[simp] theorem State.ppsEdge_outside (s : State) :
    (State.ppsEdge s).outside = s.outside := by
  unfold State.ppsEdge
  dsimp only
  (repeat' split) <;> simp

@[simp] theorem State.refArrival_outside (s : State) (i : Slot) (st : Stamp) :
    (State.refArrival s i st).outside = s.outside := by
  unfold State.refArrival
  dsimp only
  (repeat' split) <;> simp

@[simp] theorem State.setTimeOp_outside (s : State) (v : Word) :
    (State.setTimeOp s v).outside = s.outside := by
  rfl

@[simp] theorem State.setDisciplineOp_outside (s : State) (ps : List Word) :
    (State.setDisciplineOp s ps).1.outside = s.outside := by
  simp [State.setDisciplineOp]

@[simp] theorem State.changeSlot_outside (s : State) (i : Slot) (new : SlotEntry) :
    (State.changeSlot s i new).outside = s.outside := by
  unfold State.changeSlot
  dsimp only
  (repeat' split) <;> simp

@[simp] theorem State.takePoll_outside (s : State) (i : Slot) (log : List AttemptRec) (final : AttemptOutcome) :
    (State.takePoll s i log final).1.outside = s.outside := by
  simp [State.takePoll]

@[simp] theorem State.setPoll_outside (s : State) (a : Addr) (ws : List Word) (w : PollWork) :
    (State.setPoll s a ws w).outside = s.outside := by
  rfl

@[simp] theorem State.pollResult_outside (s : State) (a : Addr) (ws : List Word) (w : PollWork) (final : AttemptOutcome) (r : Option Nat) :
    (State.pollResult s a ws w final r).outside = s.outside := by
  simp [State.pollResult]

@[simp] theorem State.pollAbsent_outside (s : State) (a : Addr) (ws : List Word) (w : PollWork) :
    (State.pollAbsent s a ws w).outside = s.outside := by
  simp [State.pollAbsent]

@[simp] theorem State.pollFinish_outside (s : State) (a : Addr) (ws : List Word) (w : PollWork) (final : AttemptOutcome) :
    (State.pollFinish s a ws w final).outside = s.outside := by
  unfold State.pollFinish
  split <;> simp

@[simp] theorem State.pollGo_outside (fuel : Nat) (s : State) (a : Addr) (ws : List Word) (w : PollWork) :
    (State.pollGo fuel s a ws w).outside = s.outside := by
  induction fuel generalizing s w with
  | zero => rfl
  | succ k ih =>
    unfold State.pollGo
    dsimp only
    (repeat' split) <;> simp [ih]

@[simp] theorem State.attemptEnds_outside (s : State) (o : AttemptOutcome) :
    (State.attemptEnds s o).outside = s.outside := by
  unfold State.attemptEnds
  dsimp only
  (repeat' split) <;> simp

@[simp] theorem State.pollLeaves_outside (s : State) (i : Slot) :
    (State.pollLeaves s i).outside = s.outside := by
  unfold State.pollLeaves
  (repeat' split) <;> simp

@[simp] theorem State.pollFailedFrame_outside (s : State) (i : Slot) (p : Plane) :
    (State.pollFailedFrame s i p).outside = s.outside := by
  unfold State.pollFailedFrame
  (repeat' split) <;> simp

@[simp] theorem State.pollLaneDown_outside (s : State) (i : Slot) (p : Plane) :
    (State.pollLaneDown s i p).outside = s.outside := by
  unfold State.pollLaneDown
  (repeat' split) <;> simp

@[simp] theorem State.takeStatus_outside (s : State) (i : Slot) (p : Plane) (payload : List Byte) (t4 : Stamp) :
    (State.takeStatus s i p payload t4).outside = s.outside := by
  unfold State.takeStatus
  (repeat' split) <;> simp

@[simp] theorem State.pollTimeout_outside (s : State) :
    (State.pollTimeout s).outside = s.outside := by
  unfold State.pollTimeout
  (repeat' split) <;> simp

@[simp] theorem State.timeJudge_outside (s : State) (a : Addr) (ws : List Word) (w : TimeWork) :
    (State.timeJudge s a ws w).outside = s.outside := by
  unfold State.timeJudge
  split <;> simp

@[simp] theorem State.countTimeNotSent_outside (s : State) :
    (State.countTimeNotSent s).outside = s.outside := by
  rfl

@[simp] theorem State.timeSubmit_outside (choice : PlaneChoice) (x : State × TimeWork) (i : Slot) :
    (State.timeSubmit choice x i).1.outside = x.1.outside := by
  unfold State.timeSubmit
  extract_lets p r
  have hr : r.1.outside = x.1.outside := State.submit_outside ..
  by_cases h : r.2 = true
  · rw [if_pos h, hr]
  · rw [if_neg h, State.countTimeNotSent_outside, hr]

theorem State.timeSubmits_outside (choice : PlaneChoice) (l : List Slot) (x : State × TimeWork) :
    (l.foldl (State.timeSubmit choice) x).1.outside = x.1.outside := by
  induction l generalizing x with
  | nil => rfl
  | cons i l ih => rw [List.foldl_cons, ih, State.timeSubmit_outside]

@[simp] theorem State.timeRun_outside (s : State) (a : Addr) (ws : List Word) (target : Nat) (choice : PlaneChoice) :
    (State.timeRun s a ws target choice).outside = s.outside := by
  unfold State.timeRun
  extract_lets targets w s1
  split
  · rw [State.endEntry_outside]; exact outside_with ..
  · rw [State.timeJudge_outside, State.timeSubmits_outside]; exact outside_with ..

@[simp] theorem State.reportControl_outside (s : State) (sent : Bool) (f : CtlFrame) :
    (State.reportControl s sent f).outside = s.outside := by
  unfold State.reportControl
  (repeat' split) <;> simp

@[simp] theorem State.reportUnsent_outside (s : State) (fs : List CtlFrame) : (s.reportUnsent fs).outside = s.outside :=
  foldl_outside _ (by simp) _ _

@[simp] theorem State.laneOff_outside (i : Slot) (s : State) (p : Plane) :
    (State.laneOff i s p).outside = s.outside := by
  unfold State.laneOff
  dsimp only
  (repeat' split) <;> simp

@[simp] theorem State.laneOn_outside (i : Slot) (s : State) (p : Plane) :
    (State.laneOn i s p).outside = s.outside := by
  unfold State.laneOn
  dsimp only
  (repeat' split) <;> simp

@[simp] theorem State.followEnable_outside (s : State) (i : Slot) (was : SlotState) :
    (State.followEnable s i was).outside = s.outside := by
  unfold State.followEnable
  dsimp only
  (repeat' split) <;> simp

@[simp] theorem State.moveSlot_outside (s : State) (i : Slot) (new : SlotEntry) :
    (State.moveSlot s i new).outside = s.outside := by
  unfold State.moveSlot
  dsimp only
  (repeat' split) <;> simp

@[simp] theorem State.enterSlot_outside (s : State) (i : Slot) (st : SlotState) (f : SlotEntry → SlotEntry) :
    (State.enterSlot s i st f).outside = s.outside := by
  simp [State.enterSlot]

@[simp] theorem State.enterTraining_outside (s : State) (i : Slot) :
    (State.enterTraining s i).outside = s.outside := by
  simp [State.enterTraining]

@[simp] theorem State.enterPowering_outside (s : State) (i : Slot) (f : SlotEntry → SlotEntry) :
    (State.enterPowering s i f).outside = s.outside := by
  unfold State.enterPowering
  dsimp only
  (repeat' split) <;> simp

@[simp] theorem State.judgeSeated_outside (s : State) (i : Slot) :
    (State.judgeSeated s i).outside = s.outside := by
  unfold State.judgeSeated
  split <;> simp

@[simp] theorem State.enterSeated_outside (s : State) (i : Slot) (f : SlotEntry → SlotEntry) :
    (State.enterSeated s i f).outside = s.outside := by
  simp [State.enterSeated]

@[simp] theorem State.enterFaulted_outside (s : State) (i : Slot) (r : FailReason) :
    (State.enterFaulted s i r).outside = s.outside := by
  simp [State.enterFaulted]

@[simp] theorem State.overtake_outside (s : State) (i : Slot) (t : State) (p : Plane) :
    (State.overtake s i t p).outside = t.outside := by
  unfold State.overtake
  (repeat' split) <;> rfl

@[simp] theorem State.identExpired_outside (s : State) (i : Slot) : (State.identExpired s i).outside = s.outside := by
  unfold State.identExpired
  rw [foldl_outside _ (by simp), State.enterFaulted_outside]

@[simp] theorem State.enterDraining_outside (s : State) (i : Slot) (c : DrainCause) :
    (State.enterDraining s i c).outside = s.outside := by
  simp [State.enterDraining]

@[simp] theorem State.endDrain_outside (s : State) (i : Slot) :
    (State.endDrain s i).outside = s.outside := by
  unfold State.endDrain
  split <;> simp

@[simp] theorem State.presenceOn_outside (s : State) (i : Slot) :
    (State.presenceOn s i).outside = s.outside := by
  rfl

@[simp] theorem State.presenceOff_outside (s : State) (i : Slot) :
    (State.presenceOff s i).outside = s.outside := by
  unfold State.presenceOff
  dsimp only
  (repeat' split) <;> simp

@[simp] theorem State.debounceDone_outside (s : State) (i : Slot) :
    (State.debounceDone s i).outside = s.outside := by
  simp [State.debounceDone]

@[simp] theorem State.latchOn_outside (s : State) (i : Slot) :
    (State.latchOn s i).outside = s.outside := by
  unfold State.latchOn
  split <;> simp

@[simp] theorem State.latchOff_outside (s : State) (i : Slot) :
    (State.latchOff s i).outside = s.outside := by
  unfold State.latchOff
  split <;> simp

@[simp] theorem State.powerGoodOn_outside (s : State) (i : Slot) :
    (State.powerGoodOn s i).outside = s.outside := by
  unfold State.powerGoodOn
  split <;> simp

@[simp] theorem State.powerGoodOff_outside (s : State) (i : Slot) :
    (State.powerGoodOff s i).outside = s.outside := by
  unfold State.powerGoodOff
  split <;> simp

@[simp] theorem State.backoffDone_outside (s : State) (i : Slot) :
    (State.backoffDone s i).outside = s.outside := by
  unfold State.backoffDone
  (repeat' split) <;> simp

@[simp] theorem State.requestIdent_outside (s : State) (i : Slot) (p : Plane) :
    (State.requestIdent s i p).outside = s.outside := by
  simp [State.requestIdent]

@[simp] theorem State.judgeIdent_outside (s : State) (i : Slot) (p : Plane) (bs : List Byte) :
    (State.judgeIdent s i p bs).outside = s.outside := by
  unfold State.judgeIdent
  dsimp only
  (repeat' split) <;> simp

@[simp] theorem State.takeIdent_outside (s : State) (i : Slot) (p : Plane) (bs : List Byte) :
    (State.takeIdent s i p bs).outside = s.outside := by
  unfold State.takeIdent
  split <;> simp

@[simp] theorem State.slotLane_outside (s : State) (i : Slot) (p : Plane) (st : LaneState) :
    (State.slotLane s i p st).outside = s.outside := by
  unfold State.slotLane
  dsimp only
  (repeat' split) <;> simp

@[simp] theorem State.laneTrained_outside (s : State) (i : Slot) (p : Plane) :
    (State.laneTrained s i p).outside = s.outside := by
  unfold State.laneTrained
  dsimp only
  (repeat' split) <;> simp

@[simp] theorem State.laneLost_outside (s : State) (i : Slot) (p : Plane) :
    (State.laneLost s i p).outside = s.outside := by
  unfold State.laneLost
  dsimp only
  (repeat' split) <;> simp

@[simp] theorem State.slotReleaseOp_outside (s : State) (n : Nat) :
    (State.slotReleaseOp s n).1.outside = s.outside := by
  unfold State.slotReleaseOp
  (repeat' split) <;> simp

@[simp] theorem State.slotRetryOp_outside (s : State) (n : Nat) :
    (State.slotRetryOp s n).1.outside = s.outside := by
  unfold State.slotRetryOp
  (repeat' split) <;> simp

@[simp] theorem State.slotOverrideOp_outside (s : State) (n : Nat) :
    (State.slotOverrideOp s n).1.outside = s.outside := by
  unfold State.slotOverrideOp
  dsimp only
  (repeat' split) <;> simp

@[simp] theorem State.slotShutdown_outside (s : State) (i : Slot) :
    (State.slotShutdown s i).outside = s.outside := by
  unfold State.slotShutdown
  split <;> simp

@[simp] theorem State.judgeAllSeated_outside (s : State) : s.judgeAllSeated.outside = s.outside :=
  foldl_outside _ (by simp) _ _

@[simp] theorem State.discardFrame_outside (s : State) (i : Slot) (p : Plane) (d : Discard) :
    (State.discardFrame s i p d).outside = s.outside := by
  unfold State.discardFrame
  split <;> simp

@[simp] theorem State.deliverFrame_outside (s : State) (i : Slot) (p : Plane) (g : Staging) (k : FrameKind) :
    (State.deliverFrame s i p g k).outside = s.outside := by
  unfold State.deliverFrame
  (repeat' split) <;> simp

@[simp] theorem State.overtakenEnd_outside (s : State) (i : Slot) (p : Plane) (bs : List Byte) :
    (State.overtakenEnd s i p bs).outside = s.outside := by
  unfold State.overtakenEnd
  dsimp only
  (repeat' split) <;> simp

@[simp] theorem State.frameEnd_outside (s : State) (i : Slot) (p : Plane) (bs : List Byte) :
    (State.frameEnd s i p bs).outside = s.outside := by
  unfold State.frameEnd
  dsimp only
  (repeat' split) <;> simp

@[simp] theorem State.transmitEnd_outside (s : State) (i : Slot) (p : Plane) :
    (State.transmitEnd s i p).outside = s.outside := by
  unfold State.transmitEnd
  dsimp only
  (repeat' split) <;> simp

@[simp] theorem State.dropHeld_outside (s : State) (p : Purpose → Bool) : (s.dropHeld p).outside = s.outside := by
  unfold State.dropHeld
  split
  · rename_i h hh
    split
    · simp only [State.outside, hh, Option.isSome_some]
    · rfl
  · rfl

@[simp] theorem State.withdrawRing_outside (s : State) (side : RingSide) : (s.withdrawRing side).outside = s.outside := by
  unfold State.withdrawRing
  dsimp only
  rw [State.dropHeld_outside]
  split <;> rfl

@[simp] theorem State.setRx_outside (s : State) (m : Option RxMove) :
    (State.setRx s m).outside = s.outside := by
  rfl

@[simp] theorem State.setTx_outside (s : State) (m : Option TxMove) :
    (State.setTx s m).outside = s.outside := by
  rfl

@[simp] theorem State.ringCount_outside (s : State) (f : RingCounters → RingCounters) :
    (State.ringCount s f).outside = s.outside := by
  rfl

@[simp] theorem State.rxMiss_outside (s : State) (m : RxMove) :
    (State.rxMiss s m).outside = s.outside := by
  simp [State.rxMiss]

@[simp] theorem State.walkEnds_outside (s : State) (m : RxMove) :
    (State.walkEnds s m).outside = s.outside := by
  unfold State.walkEnds
  dsimp only
  (repeat' split) <;> simp

@[simp] theorem State.rxRead_outside (s : State) (v : Word) :
    (State.rxRead s v).outside = s.outside := by
  unfold State.rxRead
  dsimp only
  (repeat' split) <;> simp

@[simp] theorem State.rxDelivered_outside (s : State) (m : RxMove) (n : Nat) :
    (State.rxDelivered s m n).outside = s.outside := by
  simp [State.rxDelivered]

@[simp] theorem State.rxWritten_outside (s : State) :
    (State.rxWritten s).outside = s.outside := by
  unfold State.rxWritten
  (repeat' split) <;> simp

@[simp] theorem State.rxStart_outside (s : State) :
    (State.rxStart s).outside = s.outside := by
  unfold State.rxStart
  split <;> simp

@[simp] theorem State.rxHoldEnds_outside (s : State) :
    (State.rxHoldEnds s).outside = s.outside := by
  unfold State.rxHoldEnds
  (repeat' split) <;> simp

@[simp] theorem State.txReturn_outside (s : State) (m : TxMove) (out : TxOutcome) :
    (State.txReturn s m out).outside = s.outside := by
  rfl

@[simp] theorem State.txLoaded_outside (s : State) (m : TxMove) (id : Nat) (out : TxOutcome) (bytes : List Byte) :
    (State.txLoaded s m id out bytes).outside = s.outside := by
  simp [State.txLoaded]

@[simp] theorem State.txAnswer_outside (s : State) (m : TxMove) (a : OfferAnswer) :
    (State.txAnswer s m a).outside = s.outside := by
  unfold State.txAnswer
  dsimp only
  (repeat' split) <;> simp

@[simp] theorem State.txOffer_outside (s : State) (m : TxMove) :
    (State.txOffer s m).outside = s.outside := by
  simp [State.txOffer]

@[simp] theorem State.txJudge_outside (s : State) (m : TxMove) :
    (State.txJudge s m).outside = s.outside := by
  unfold State.txJudge
  (repeat' split) <;> simp

@[simp] theorem State.txFetched_outside (s : State) (m : TxMove) (x : TxDesc) :
    (State.txFetched s m x).outside = s.outside := by
  unfold State.txFetched
  dsimp only
  (repeat' split) <;> simp

@[simp] theorem State.txExamined_outside (s : State) (v : Word) (again : Bool) :
    (State.txExamined s v again).outside = s.outside := by
  unfold State.txExamined
  split <;> simp

@[simp] theorem State.txRead_outside (s : State) (v : Word) :
    (State.txRead s v).outside = s.outside := by
  unfold State.txRead
  dsimp only
  (repeat' split) <;> simp

@[simp] theorem State.examine_outside (s : State) :
    (State.examine s).outside = s.outside := by
  unfold State.examine
  split <;> simp

@[simp] theorem State.txReturned_outside (s : State) (m : TxMove) (out : TxOutcome) :
    (State.txReturned s m out).outside = s.outside := by
  simp [State.txReturned]

@[simp] theorem State.txWritten_outside (s : State) :
    (State.txWritten s).outside = s.outside := by
  unfold State.txWritten
  (repeat' split) <;> simp

@[simp] theorem State.txReoffer_outside (s : State) :
    (State.txReoffer s).outside = s.outside := by
  unfold State.txReoffer
  (repeat' split) <;> simp

@[simp] theorem State.snooped_outside (s : State) (side : RingSide) :
    (State.snooped s side).outside = s.outside := by
  unfold State.snooped
  (repeat' split) <;> simp

@[simp] theorem State.ringStartOp_outside (s : State) :
    (State.ringStartOp s).1.outside = s.outside := by
  unfold State.ringStartOp
  split <;> simp

@[simp] theorem State.txHalt_outside (s : State) :
    (State.txHalt s).outside = s.outside := by
  unfold State.txHalt
  (repeat' split) <;> simp

@[simp] theorem State.ringHalt_outside (s : State) :
    (State.ringHalt s).outside = s.outside := by
  unfold State.ringHalt
  split <;> simp

@[simp] theorem State.ringStopped_outside (s : State) :
    (State.ringStopped s).outside = s.outside := by
  simp [State.ringStopped]

@[simp] theorem State.abandonLoad_outside (s : State) :
    (State.abandonLoad s).outside = s.outside := by
  unfold State.abandonLoad
  (repeat' split) <;> simp

@[simp] theorem State.abandonRx_outside (s : State) :
    (State.abandonRx s).outside = s.outside := by
  unfold State.abandonRx
  (repeat' split) <;> simp

@[simp] theorem State.ringReset_outside (s : State) :
    (State.ringReset s).outside = s.outside := by
  simp [State.ringReset]

@[simp] theorem State.provisionChanged_outside (s : State) (i : Slot) (was now : Bool) :
    (State.provisionChanged s i was now).outside = s.outside := by
  unfold State.provisionChanged
  (repeat' split) <;> simp

@[simp] theorem State.applyPort_outside (s : State) (i : Slot) (c : PortCfg) :
    (State.applyPort s i c).outside = s.outside := by
  unfold State.applyPort
  dsimp only
  (repeat' split) <;> simp

@[simp] theorem State.applyPort0_outside (s : State) (limit : Nat) :
    (State.applyPort0 s limit).outside = s.outside := by
  unfold State.applyPort0
  split <;> simp

@[simp] theorem State.applyPoint_outside (s : State) (k : Fin 64) (c : PointCfg) :
    (State.applyPoint s k c).outside = s.outside := by
  unfold State.applyPoint
  dsimp only
  (repeat' split) <;> simp

@[simp] theorem State.applyGroup_outside (s : State) (k : Fin 64) (g : Group) :
    (State.applyGroup s k g).outside = s.outside := by
  rfl

@[simp] theorem State.applyRef_outside (s : State) (k : Fin 4) (c : RefCfg) :
    (State.applyRef s k c).outside = s.outside := by
  simp [State.applyRef]

@[simp] theorem State.applyRecord_outside (s : State) (t : Table) (index : Nat) (ws : List Word) :
    (State.applyRecord s t index ws).outside = s.outside := by
  unfold State.applyRecord
  (repeat' split) <;> simp

@[simp] theorem State.installTables_outside (s : State) (all : List (List Word)) :
    (s.installTables all).outside = s.outside := by
  unfold State.installTables
  simp only
  rw [State.putTime_outside, foldl_outside _ (by simp), outside_with, outside_with]

@[simp] theorem State.emptyTables_outside (s : State) :
    (State.emptyTables s).outside = s.outside := by
  simp [State.emptyTables]

@[simp] theorem State.finish_outside (s : State) (code : Nat) (r : CmdResult) (item : FailItem) (clamped : Bool) :
    (State.finish s code r item clamped).outside = s.outside := by
  rfl

@[simp] theorem State.finishWith_outside (s : State) (c : Command) (r : CmdResult) :
    (State.finishWith s c r).outside = s.outside := by
  rfl

@[simp] theorem State.finishAnswer_outside (s : State) (c : Command) (a : Answer) :
    (State.finishAnswer s c a).outside = s.outside := by
  rfl

@[simp] theorem State.finishIf_outside (s : State) (c : Command) :
    (State.finishIf s c).outside = s.outside := by
  unfold State.finishIf
  (repeat' split) <;> simp

@[simp] theorem State.refuse_outside (s : State) (why : RefusalReason) (offset code : Nat) :
    (State.refuse s why offset code).outside = s.outside := by
  rfl

@[simp] theorem State.setHub_outside (s : State) (h : HubState) :
    (State.setHub s h).outside = s.outside := by
  simp [State.setHub]

@[simp] theorem State.cycleLeaves_outside (s : State) :
    (State.cycleLeaves s).outside = s.outside := by
  simp [State.cycleLeaves]

@[simp] theorem State.emptyZones_outside (s : State) :
    (State.emptyZones s).outside = s.outside := by
  rfl

@[simp] theorem State.enterService_outside (s : State) :
    (State.enterService s).outside = s.outside := by
  unfold State.enterService
  split <;> simp

@[simp] theorem State.loadFails_outside (s : State) (mode : LoadMode) (item : FailItem) :
    (State.loadFails s mode item).outside = s.outside := by
  simp [State.loadFails]

@[simp] theorem State.startTransfer_outside (s : State) (t : Transfer) :
    (State.startTransfer s t).outside = s.outside := by
  rfl

@[simp] theorem State.loadSetupOp_outside (s : State) (mode addr : Nat) :
    (State.loadSetupOp s mode addr).outside = s.outside := by
  unfold State.loadSetupOp
  (repeat' split) <;> simp

@[simp] theorem State.shutdownOp_outside (s : State) : s.shutdownOp.outside = s.outside := by
  unfold State.shutdownOp
  rw [State.ringHalt_outside, foldl_outside _ (by simp), State.cycleLeaves_outside, State.alarmLeaves_outside,
    State.setHub_outside]

@[simp] theorem State.snapshotOp_outside (s : State) (addr : Nat) (clear : Bool) :
    (State.snapshotOp s addr clear).outside = s.outside := by
  unfold State.snapshotOp
  split <;> simp

@[simp] theorem State.tableUpdateOp_outside (s : State) (table index addr : Nat) :
    (State.tableUpdateOp s table index addr).outside = s.outside := by
  unfold State.tableUpdateOp
  (repeat' split) <;> simp

@[simp] theorem State.cycleStartOp_outside (s : State) (v : Word) :
    (State.cycleStartOp s v).1.outside = s.outside := by
  unfold State.cycleStartOp
  (repeat' split) <;> simp

@[simp] theorem State.cycleStopOp_outside (s : State) :
    (State.cycleStopOp s).1.outside = s.outside := by
  unfold State.cycleStopOp
  (repeat' split) <;> simp

@[simp] theorem State.ringStopOp_outside (s : State) :
    (State.ringStopOp s).1.outside = s.outside := by
  unfold State.ringStopOp
  split <;> simp

@[simp] theorem State.finishWhen_outside (x : State × Bool) (c : Command) :
    (State.finishWhen x c).outside = x.1.outside := by
  unfold State.finishWhen
  split <;> simp

@[simp] theorem State.runCommand_outside (s : State) (o : OpenCmd) : (State.runCommand s o).outside = s.outside := by
  unfold State.runCommand
  simp only
  split <;> try simp
  split
  · rename_i t h
    rw [State.finishWith_outside, State.alarmResetOp_outside s t _ h]
  · simp

@[simp] theorem State.execute_outside (s : State) (o : OpenCmd) :
    (State.execute s o).outside = s.outside := by
  unfold State.execute
  split <;> simp

@[simp] theorem State.openCommand_outside (s : State) (code count : Nat) :
    (State.openCommand s code count).outside = s.outside := by
  unfold State.openCommand
  (repeat' split) <;> simp

@[simp] theorem State.cutShort_outside (s : State) (o : OpenCmd) :
    (State.cutShort s o).outside = s.outside := by
  unfold State.cutShort
  split <;> simp

@[simp] theorem State.commandWord_outside (s : State) (w : Word) :
    (State.commandWord s w).outside = s.outside := by
  unfold State.commandWord
  (repeat' split) <;> simp

@[simp] theorem State.parameterWord_outside (s : State) (k : Nat) (v : Word) :
    (State.parameterWord s k v).outside = s.outside := by
  unfold State.parameterWord
  dsimp only
  (repeat' split) <;> simp

@[simp] theorem State.maskWord_outside (s : State) (v : Word) :
    (State.maskWord s v).outside = s.outside := by
  rfl

@[simp] theorem State.acknowledgeWord_outside (s : State) (v : Word) :
    (State.acknowledgeWord s v).outside = s.outside := by
  rfl

@[simp] theorem State.handControl_outside (s : State) (offset : Nat) (v : Word) :
    (State.handControl s offset v).outside = s.outside := by
  unfold State.handControl
  (repeat' split) <;> simp

@[simp] theorem State.setupRead_outside (s : State) (got : List Word) :
    (State.setupRead s got).outside = s.outside := by
  unfold State.setupRead
  dsimp only
  (repeat' split) <;> simp

@[simp] theorem State.imagesRead_outside (s : State) (done : List (List Word)) (got : List Word) :
    (State.imagesRead s done got).outside = s.outside := by
  unfold State.imagesRead
  dsimp only
  (repeat' split) <;> simp

@[simp] theorem State.stagingRead_outside (s : State) (t : Table) (i addr : Nat) (got : List Word) :
    (State.stagingRead s t i addr got).outside = s.outside := by
  unfold State.stagingRead
  (repeat' split) <;> simp

@[simp] theorem State.clearCounters_outside (s : State) :
    (State.clearCounters s).outside = s.outside := by
  rfl

@[simp] theorem State.transferDone_outside (s : State) (v : Word) :
    (State.transferDone s v).outside = s.outside := by
  unfold State.transferDone
  (repeat' split) <;> simp

@[simp] theorem State.completeShutdown_outside (s : State) :
    (State.completeShutdown s).outside = s.outside := by
  simp [State.completeShutdown]

@[simp] theorem State.cycleCall_outside (a target : Addr) (s : State) :
    (State.cycleCall a target s).outside = s.outside := by
  unfold State.cycleCall
  split <;> simp

@[simp] theorem State.cycleReturn_outside (s : State) :
    (State.cycleReturn s).outside = s.outside := by
  unfold State.cycleReturn
  split <;> simp

@[simp] theorem State.cycleNotify_outside (a : Addr) (v : Word) (s : State) :
    (State.cycleNotify a v s).outside = s.outside := by
  simp [State.cycleNotify]

@[simp] theorem State.cyclePoll_outside (s : State) (a : Addr) (ws : List Word) :
    (State.cyclePoll s a ws).outside = s.outside := by
  unfold State.cyclePoll
  simp only
  split
  · rw [State.pollGo_outside, State.enterRun_outside]
  · exact State.cycleFault_outside ..

@[simp] theorem State.cycleTime_outside (s : State) (a : Addr) (ws : List Word) :
    (State.cycleTime s a ws).outside = s.outside := by
  unfold State.cycleTime
  dsimp only
  (repeat' split) <;> simp

@[simp] theorem State.cycleJudge_outside (s : State) (a : Addr) (ws : List Word) :
    (State.cycleJudge s a ws).outside = s.outside := by
  unfold State.cycleJudge
  extract_lets value
  (repeat' split) <;> first | exact State.zeroTime_outside _ _ (by simp) | simp

@[simp] theorem State.cycleRead_outside (s : State) (v : Word) :
    (State.cycleRead s v).outside = s.outside := by
  unfold State.cycleRead
  (repeat' split) <;> simp

@[simp] theorem State.cycleMovesOn_outside (s : State) (next : Addr) :
    (State.cycleMovesOn s next).outside = s.outside := by
  unfold State.cycleMovesOn
  split <;> simp

@[simp] theorem State.cycleWritten_outside (s : State) :
    (State.cycleWritten s).outside = s.outside := by
  unfold State.cycleWritten
  (repeat' split) <;> simp

end Sys2Proof.Machine
end

