-- ==== Sys2Proof/Laws/Port.lean ====
section
/-! SUPPORT. What the memory port's operations can do: a decision of the arbiter on a quiet bus changes only the port's
bookkeeping, the port is never left free while something waits for it, and every operation keeps memory in canonical
form. -/

namespace Sys2Proof.Machine

open Sys2Proof

variable {s t : State}

/-! ## The parts that `State.apart` keeps -/

theorem State.mem_eq_of_apart (h : s.apart = t.apart) : s.mem = t.mem := congrArg (·.mem) h
theorem State.lanes_eq_of_apart (h : s.apart = t.apart) : s.lanes = t.lanes := congrArg (·.lanes) h
theorem State.sm_eq_of_apart (h : s.apart = t.apart) : s.sm = t.sm := congrArg (·.sm) h
theorem State.sw_eq_of_apart (h : s.apart = t.apart) : s.sw = t.sw := congrArg (·.sw) h
theorem State.time_eq_of_apart (h : s.apart = t.apart) : s.time = t.time := congrArg (·.time) h
theorem State.cyc_eq_of_apart (h : s.apart = t.apart) : s.cyc = t.cyc := congrArg (·.cyc) h
theorem State.alarm_eq_of_apart (h : s.apart = t.apart) : s.alarm = t.alarm := congrArg (·.alarm) h
theorem State.osc_eq_of_apart (h : s.apart = t.apart) : s.osc = t.osc := congrArg (·.osc) h

@[simp] theorem State.apart_apart (s : State) : s.apart.apart = s.apart := rfl

@[simp] theorem retouch_apart (o : List Nat) (s t : State) : (retouch o s t).apart = t.apart := rfl

@[simp] theorem reimage_apart (ws : List ImgWord) (s t : State) : (reimage ws s t).apart = t.apart := rfl

/-! ## Filling and granting -/

theorem State.fillCommand_apart (s : State) : s.fillCommand.apart = s.apart := by
  unfold State.fillCommand
  (repeat' split) <;> rfl

theorem State.fillRing_apart (s : State) : s.fillRing.apart = s.apart := by
  unfold State.fillRing
  (repeat' split) <;> rfl

theorem State.fill_apart (s : State) : s.fill.apart = s.apart := by
  rw [State.fill, State.fillRing_apart, State.fillCommand_apart]

/-- The image word supplied is one of the image rewrite set (R185). -/
theorem State.pickImage_mem (s : State) (w : ImgWord) (h : s.pickImage = some w) : w ∈ s.cmd.images := by
  have key : ∀ (l : List ImgWord) (b : Option ImgWord) (P : ImgWord → Prop), (∀ x ∈ l, P x) → (∀ x, b = some x → P x) →
      ∀ x, l.foldl (fun best w => match best with
        | some b => if (s.imageAddr w).toNat < (s.imageAddr b).toNat then some w else some b
        | none => some w) b = some x → P x := by
    intro l
    induction l with
    | nil => exact fun b P _ hb => hb
    | cons y l ih =>
      intro b P hl hb
      refine ih _ P (fun x hx => hl x (List.mem_cons_of_mem _ hx)) (fun x hx => ?_)
      have hy := hl y List.mem_cons_self
      cases b with
      | none => cases hx; exact hy
      | some z =>
        dsimp only at hx
        split at hx <;> cases hx
        · exact hy
        · exact hb _ rfl
  exact key _ none (· ∈ s.cmd.images) (fun _ hx => hx) (fun _ hx => nomatch hx) w h

/-- A source supplies only a word that stands in the place (R35). -/
theorem State.supply_stands (s : State) (x : Source) (w : CmdWord) (h : s.supply x = some w) : s.placeStands w = true := by
  cases x with
  | status =>
    obtain ⟨o, ho, rfl⟩ := Option.map_eq_some_iff.mp h
    have hm := List.mem_of_find?_eq_some ho
    have hp := List.find?_some ho
    simp only [State.placeStands, Bool.and_eq_true, List.contains_iff_mem, Bool.or_eq_true, decide_eq_true_eq] at hp ⊢
    exact ⟨hm, hp.elim (fun a => .inl (.inl a)) .inr⟩
  | image =>
    obtain ⟨y, hy, rfl⟩ := Option.map_eq_some_iff.mp h
    simpa [State.placeStands] using s.pickImage_mem y hy
  | transfer =>
    simp only [State.supply] at h
    split at h
    · next hc => cases h; exact (Bool.and_eq_true _ _ ▸ hc).1
    · cases h

/-- The place is filled once: filling it again changes nothing (R35). -/
theorem State.fillCommand_fillCommand (s : State) : s.fillCommand.fillCommand = s.fillCommand := by
  have stays : ∀ (t : State) (w : CmdWord), t.cmd.place = some w → t.placeStands w = true → t.fillCommand = t := by
    intro t w hp hw
    unfold State.fillCommand
    rw [hp, Option.filter_some, if_pos hw]
  cases hp : s.cmd.place.filter s.placeStands with
  | some w =>
    obtain ⟨h1, h2⟩ := Option.filter_eq_some_iff.mp hp
    rw [stays s w h1 h2, stays s w h1 h2]
  | none =>
    cases hf : s.cmd.lastSource.after.find? (fun x => (s.supply x).isSome) with
    | some x =>
      obtain ⟨w, hw⟩ := Option.isSome_iff_exists.mp (by simpa using List.find?_some hf : (s.supply x).isSome = true)
      have e : s.fillCommand = { s with cmd := { s.cmd with place := s.supply x, lastSource := x } } := by
        unfold State.fillCommand; rw [hp]; simp only [hf]
      rw [e]
      exact stays _ w hw (s.supply_stands x w hw)
    | none =>
      have e : s.fillCommand = { s with cmd := { s.cmd with place := none } } := by
        unfold State.fillCommand; rw [hp]; simp only [hf]
      rw [e]
      unfold State.fillCommand
      simp only [Option.filter_none]
      have : ∀ x, ({ s with cmd := { s.cmd with place := none } } : State).supply x = s.supply x := fun x => by cases x <;> rfl
      simp only [this, hf]

theorem State.fillCommand_path (s : State) : s.fillCommand.path = s.path := by
  unfold State.fillCommand
  (repeat' split) <;> rfl

theorem State.fillRing_path (s : State) : s.fillRing.path = s.path := by
  unfold State.fillRing
  (repeat' split) <;> rfl

@[simp] theorem State.fill_path (s : State) : s.fill.path = s.path := by
  rw [State.fill, State.fillRing_path, State.fillCommand_path]

theorem State.grant_apart (s : State) (w : Requester) : (s.grant w).apart = s.apart := by
  unfold State.grant State.grantCommand State.grantRing State.hold
  (repeat' split) <;> rfl

@[simp] theorem State.grant_waiting (s : State) (w : Requester) : (s.grant w).path.waiting = s.path.waiting := by
  unfold State.grant State.grantCommand State.grantRing State.hold
  (repeat' split) <;> rfl

@[simp] theorem State.grant_line (s : State) (w : Requester) : (s.grant w).path.line = s.path.line := by
  unfold State.grant State.grantCommand State.grantRing State.hold
  (repeat' split) <;> rfl

/-! ## Quiet buses -/

/-- With an access of the controller at the port, its next one does not come up (R14). -/
theorem State.bringAccess_own (h : s.ownHolds = true) : s.bringAccess = s := by
  unfold State.bringAccess
  rw [h, Bool.or_true, if_pos rfl]

/-- With none of the controller's accesses waiting or at the port, its next one comes up. -/
theorem State.bringAccess_next (hw : s.path.waiting = none) (ho : s.ownHolds = false) :
    s.bringAccess = State.nextAccess s.path.line s := by
  unfold State.bringAccess
  rw [hw, ho]
  rfl

theorem State.ownHolds_none (h : s.path.holder = none) : s.ownHolds = false := by
  unfold State.ownHolds
  rw [h]

theorem State.ownHolds_eq_false : s.ownHolds = false ↔ ∀ c, s.path.holder ≠ some (.controller c) := by
  unfold State.ownHolds
  split
  · rename_i c h; exact ⟨fun hf => (nomatch hf), fun hn => absurd h (hn c)⟩
  · rename_i hn; exact ⟨fun _ c h => hn c h, fun _ => rfl⟩

theorem State.bringAccess_quiet (h : s.busQuiet) : s.bringAccess = s := by
  obtain ⟨hw, hl⟩ := h
  unfold State.bringAccess
  split
  · rfl
  · obtain ⟨pending, mem, path, cmd, lanes, sm, sw, ring, time, cyc, alarm, osc, draws⟩ := s
    obtain ⟨zones, holder, po, ls, gc, lg, pc, waiting, line, cdata⟩ := path
    simp only at hw hl
    subst hw hl
    rfl

/-- With the port held, the arbiter decides nothing. -/
theorem State.arbitrate_held (hh : s.path.holder.isSome) : s.arbitrate = s := by
  unfold State.arbitrate
  rw [if_pos hh]

/-- With the port held and the bus quiet, only free waiting places are filled. -/
theorem State.settle_held (h : s.busQuiet) (hh : s.path.holder.isSome) : s.settle = s.fill.fill := by
  unfold State.settle
  rw [State.bringAccess_quiet h, State.arbitrate_held (by rw [State.fill_path]; exact hh)]

/-- On a quiet bus the arbiter's decision changes the port's bookkeeping alone, and serves no access of the controller. -/
theorem State.arbitrate_quiet (hw : s.path.waiting = none) :
    s.arbitrate.apart = s.apart ∧ (s.arbitrate = s ∨ ∃ w, s.arbitrate = s.grant w) := by
  unfold State.arbitrate
  rw [hw]
  split
  · exact ⟨rfl, .inl rfl⟩
  · split
    · exact ⟨rfl, .inl rfl⟩
    · exact ⟨State.grant_apart .., .inr ⟨_, rfl⟩⟩
    · rename_i h _; cases h
    · rename_i h _; cases h

/-- On a quiet bus the arbiter's decision changes the port's bookkeeping alone. -/
theorem State.settle_apart (h : s.busQuiet) : s.settle.apart = s.apart := by
  unfold State.settle
  rw [State.fill_apart, State.bringAccess_quiet h, (State.arbitrate_quiet (by rw [State.fill_path]; exact h.1)).1,
    State.fill_apart]

/-- A GH412 requester's grant gives the port to no access of the controller. -/
theorem State.grant_holder (s : State) (w : Requester) :
    (s.grant w).path.holder = s.path.holder ∨ ∃ h, (s.grant w).path.holder = some (.word h) := by
  unfold State.grant State.grantCommand State.grantRing State.hold
  (repeat' split) <;> first | exact .inl rfl | exact .inr ⟨_, rfl⟩

/-- On a quiet bus no access of the controller takes the port. -/
theorem State.settle_holder (h : s.busQuiet) (hh : ∀ c, s.path.holder ≠ some (.controller c)) (c : Classed) :
    s.settle.path.holder ≠ some (.controller c) := by
  unfold State.settle
  rw [State.fill_path, State.bringAccess_quiet h]
  have hp : s.fill.path.holder = s.path.holder := by rw [State.fill_path]
  rcases (State.arbitrate_quiet (s := s.fill) (by rw [State.fill_path]; exact h.1)).2 with he | ⟨w, he⟩
  · rw [he, hp]; exact hh c
  · rw [he]
    rcases s.fill.grant_holder w with hg | ⟨x, hg⟩
    · rw [hg, hp]; exact hh c
    · rw [hg]; intro hc; cases hc

/-! ## What `State.outside` gives -/

theorem outside_mem (h : t.outside = s.outside) : t.mem = s.mem := congrArg (·.1) h
theorem outside_pending (h : t.outside = s.outside) : t.pending = s.pending := congrArg (·.2.1) h
theorem outside_waiting (h : t.outside = s.outside) : t.path.waiting = s.path.waiting := congrArg (·.2.2.1) h
theorem outside_line (h : t.outside = s.outside) : t.path.line = s.path.line := congrArg (·.2.2.2.1) h
theorem outside_cdata (h : t.outside = s.outside) : t.path.cdata = s.path.cdata := congrArg (·.2.2.2.2.1) h
theorem outside_isSome (h : t.outside = s.outside) : t.path.holder.isSome = s.path.holder.isSome :=
  congrArg (·.2.2.2.2.2.1) h
theorem outside_none (h : t.outside = s.outside) (hs : s.path.holder = none) : t.path.holder = none := by
  have := outside_isSome h
  rw [hs] at this
  simpa using this
theorem outside_passedOver (h : t.outside = s.outside) : t.path.passedOver = s.path.passedOver :=
  congrArg (·.2.2.2.2.2.2.1) h
theorem outside_busQuiet (h : t.outside = s.outside) (hs : s.busQuiet) : t.busQuiet :=
  ⟨(outside_waiting h).trans hs.1, (outside_line h).trans hs.2⟩

/-- Handing an access over to its owner is work of a block. -/
@[simp] theorem State.handOver_outside (s : State) (c : Classed) : (s.handOver c).outside = s.outside := by
  unfold State.handOver
  split
  · exact State.handControl_outside ..
  · exact State.consumerWrite_outside ..
  · exact State.snooped_outside ..
  all_goals rfl

/-! ## Controller accesses -/

/-- An arrival moves the partial-control-write count, and nothing else. -/
theorem State.arrived_eq (s : State) (c : Classed) :
    ∃ n, s.arrived c = { s with path := { s.path with partialCount := n } } := by
  unfold State.arrived
  split
  · exact ⟨_, rfl⟩
  · exact ⟨s.path.partialCount, rfl⟩

/-- An arrival does not look at the line behind the access. -/
theorem State.arrived_line (s : State) (c : Classed) (l : List BusAccess) :
    State.arrived { s with path := { s.path with line := l } } c =
      { s.arrived c with path := { (s.arrived c).path with line := l } } := by
  unfold State.arrived
  split <;> rfl

theorem State.nextAccess_cons {acc : BusAccess} {rest : List BusAccess} (hg : (s.classed acc).cls ≠ .guarded) :
    State.nextAccess (acc :: rest) s =
      { s.arrived (s.classed acc) with
        path := { (s.arrived (s.classed acc)).path with waiting := some (s.classed acc), line := rest } } := by
  unfold State.nextAccess
  cases acc with
  | read a => rfl
  | write a d be => cases hc : (s.classed (.write a d be)).cls <;> simp_all

theorem State.nextAccess_guarded {a : Addr} {d : Word} {be : ByteEnables} {rest : List BusAccess}
    (hg : (s.classed (.write a d be)).cls = .guarded) :
    State.nextAccess (.write a d be :: rest) s = State.nextAccess rest (s.guardHit a) := by
  rw [State.nextAccess]
  simp only [hg]

@[simp] theorem State.classed_acc (s : State) (acc : BusAccess) : (s.classed acc).acc = acc := by
  cases acc <;> rfl

/-- With an access of the controller waiting and the port free for it, the arbiter grants it. -/
theorem State.arbitrate_serves {c : Classed} (hw : s.path.waiting = some c) (hh : s.path.holder = none)
    (hp : s.path.passedOver < 16) :
    ∃ n, s.arbitrate = s.grantController c n ∧ n ≤ s.path.passedOver + 1 := by
  unfold State.arbitrate
  simp only [hh, Option.isSome_none, Bool.false_eq_true, if_false, hw]
  cases s.chosen with
  | none => exact ⟨0, rfl, by omega⟩
  | some w => simp only [hp, if_true]; exact ⟨_, rfl, Nat.le_refl _⟩

/-- The values that filling the waiting places leaves alone. -/
theorem State.fill_eq (s : State) : ∃ p l rp rl, s.fill =
    { s with cmd := { s.cmd with place := p, lastSource := l }, ring := { s.ring with place := rp, lastSide := rl } } := by
  obtain ⟨p, l, h1⟩ : ∃ p l, s.fillCommand = { s with cmd := { s.cmd with place := p, lastSource := l } } := by
    unfold State.fillCommand
    split
    · exact ⟨s.cmd.place, s.cmd.lastSource, rfl⟩
    · split
      · exact ⟨_, _, rfl⟩
      · exact ⟨_, s.cmd.lastSource, rfl⟩
  obtain ⟨rp, rl, h2⟩ : ∃ p l, s.fillCommand.fillRing =
      { s.fillCommand with ring := { s.fillCommand.ring with place := p, lastSide := l } } := by
    generalize s.fillCommand = u
    unfold State.fillRing
    split
    · exact ⟨u.ring.place, u.ring.lastSide, rfl⟩
    · split
      · exact ⟨_, _, rfl⟩
      · exact ⟨_, u.ring.lastSide, rfl⟩
  refine ⟨p, l, rp, rl, ?_⟩
  rw [State.fill, h2, h1]

/-- An access of the controller put on a quiet bus while a GH412 word holds the port waits for it, unless it is guarded
(R11); free waiting places are filled. -/
theorem State.busAccess_held {acc : BusAccess} (h : s.busQuiet) (hh : s.path.holder.isSome) (ho : s.ownHolds = false)
    (hg : (s.classed acc).cls ≠ .guarded) :
    s.busAccess acc =
      ({ s.arrived (s.classed acc) with
        path := { (s.arrived (s.classed acc)).path with waiting := some (s.classed acc), line := [] } } : State).fill.fill := by
  unfold State.busAccess State.busAccesses
  rw [if_pos hh, h.2]
  generalize hu : ({ s with path := { s.path with line := [] ++ [acc] } } : State) = u
  have hq : u.bringAccess = { s.arrived (s.classed acc) with
      path := { (s.arrived (s.classed acc)).path with waiting := some (s.classed acc), line := [] } } := by
    rw [State.bringAccess_next (s := u) (by subst hu; exact h.1) (by subst hu; exact ho)]
    subst hu
    refine (State.nextAccess_cons (s := { s with path := { s.path with line := [] ++ [acc] } }) hg).trans ?_
    have he := congrArg
      (fun u : State => ({ u with path := { u.path with waiting := some (s.classed acc), line := [] } } : State))
      (s.arrived_line (s.classed acc) ([] ++ [acc]))
    exact he.trans rfl
  unfold State.settle
  rw [hq, State.arbitrate_held (by
    obtain ⟨m, hm⟩ := s.arrived_eq (s.classed acc)
    rw [State.fill_path, hm]; exact hh)]

/-- While an access of the controller holds the port its next one is still to be made (R14, assumption log 3): it stands in
the line, and free waiting places are filled. -/
theorem State.busAccess_own {acc : BusAccess} (ho : s.ownHolds = true) :
    s.busAccess acc = ({ s with path := { s.path with line := s.path.line ++ [acc] } } : State).fill.fill := by
  unfold State.busAccess State.busAccesses
  have hh : s.path.holder.isSome = true := by
    unfold State.ownHolds at ho
    split at ho
    · rename_i h; rw [h]; rfl
    · cases ho
  rw [if_pos hh]
  generalize hu : ({ s with path := { s.path with line := s.path.line ++ [acc] } } : State) = u
  have hb : u.bringAccess = u := State.bringAccess_own (by subst hu; exact ho)
  unfold State.settle
  rw [hb, State.arbitrate_held (by rw [State.fill_path]; subst hu; exact hh)]

/-- With no access of the controller holding the port, none is served. -/
theorem State.serve_idle {k : Nat} (h : ∀ c, s.path.holder ≠ some (.controller c)) : s.serve k = s := by
  cases k with
  | zero => rfl
  | succ k =>
    unfold State.serve
    split
    · rename_i c hc; exact absurd hc (h c)
    · rfl

/-- Serving on from a decision on a quiet bus whose port is held by no access of the controller does nothing. -/
theorem State.settle_serve {k : Nat} (h : s.busQuiet) (hh : s.path.holder = none) : s.settle.serve k = s.settle :=
  State.serve_idle (State.settle_holder h (by rw [hh]; intro c hc; cases hc))

/-- A guarded access of the controller is done with at once (R7, R8), whatever the port does. -/
theorem State.busAccess_guarded {a : Addr} {d : Word} {be : ByteEnables} (h : s.busQuiet)
    (hh : ∀ c, s.path.holder ≠ some (.controller c)) (hg : (s.classed (.write a d be)).cls = .guarded) :
    (s.busAccess (.write a d be)).apart = (s.guardHit a).apart := by
  unfold State.busAccess State.busAccesses
  rw [h.2]
  generalize hu : ({ s with path := { s.path with line := [] ++ [.write a d be] } } : State) = u
  have hq : u.bringAccess = s.guardHit a := by
    rw [State.bringAccess_next (s := u) (by subst hu; exact h.1) (by subst hu; exact State.ownHolds_eq_false.mpr hh)]
    subst hu
    obtain ⟨pending, mem, path, cmd, lanes, sm, sw, ring, time, cyc, alarm, osc, draws⟩ := s
    obtain ⟨zones, holder, po, ls, gc, lg, pc, waiting, line, cdata⟩ := path
    obtain ⟨h1, h2⟩ := h
    simp only at h1 h2
    subst h1 h2
    exact State.nextAccess_guarded hg
  have hs : (s.guardHit a).busQuiet := h
  have he : u.settle = (s.guardHit a).settle := by
    unfold State.settle
    rw [hq, State.bringAccess_quiet hs]
  have hi : ∀ k, (s.guardHit a).settle.serve k = (s.guardHit a).settle :=
    fun k => State.serve_idle (State.settle_holder hs hh)
  simp only [he, hi, ite_self]
  exact State.settle_apart hs

/-- The state as an access of the controller is granted: the waiting places have been filled, the access waits no more,
`rest` is still to be made, and the arbiter's count stands at `n`. -/
def State.granting (s : State) (rest : List BusAccess) (n : Nat) (p : Option CmdWord) (l : Source)
    (rp : Option RingSide) (rl : RingSide) : State :=
  { s with path := { s.path with waiting := none, line := rest, passedOver := n }
           cmd := { s.cmd with place := p, lastSource := l }
           ring := { s.ring with place := rp, lastSide := rl } }

/-- The next of the accesses that the controller makes is performed and handed over while the port is free for it. -/
theorem State.serve_next {acc : BusAccess} {rest : List BusAccess} {k : Nat} (hw : s.path.waiting = none)
    (hl : s.path.line = acc :: rest) (hh : s.path.holder = none) (hp : s.path.passedOver < 16)
    (hg : (s.classed acc).cls ≠ .guarded) :
    ∃ n p l rp rl, n ≤ s.path.passedOver + 1 ∧
      s.settle.serve (k + 1)
        = ((((s.arrived (s.classed acc)).granting rest n p l rp rl).perform acc).handOver (s.classed acc)).settle.serve k := by
  obtain ⟨m, hm⟩ := s.arrived_eq (s.classed acc)
  rw [hm]
  generalize hv :
    ({ s with path := { s.path with partialCount := m, waiting := some (s.classed acc), line := rest } } : State) = v
  have hq : s.bringAccess = v := by
    rw [State.bringAccess_next hw (State.ownHolds_none hh), hl, State.nextAccess_cons hg, hm, hv]
  obtain ⟨p1, l1, rp1, rl1, hf⟩ := State.fill_eq v
  obtain ⟨n, hn, hle⟩ := State.arbitrate_serves (s := v.fill) (c := s.classed acc)
    (by rw [State.fill_path, ← hv]) (by rw [State.fill_path, ← hv]; exact hh) (by rw [State.fill_path, ← hv]; exact hp)
  obtain ⟨p, l, rp, rl, hf2⟩ := State.fill_eq (v.fill.grantController (s.classed acc) n)
  refine ⟨n, p, l, rp, rl, by rw [State.fill_path, ← hv] at hle; exact hle, ?_⟩
  have hs : s.settle = (v.fill.grantController (s.classed acc) n).fill := by
    unfold State.settle
    rw [hq, hn]
  have hold : s.settle.path.holder = some (.controller (s.classed acc)) := by rw [hs, State.fill_path]; rfl
  rw [State.serve]
  simp only [hold]
  unfold State.portComplete State.complete
  simp only [hold, State.classed_acc]
  congr 4
  rw [hs, hf2, hf, ← hv]
  obtain ⟨pending, mem, path, cmd, lanes, sm, sw, ring, time, cyc, alarm, osc, draws⟩ := s
  obtain ⟨zones, holder, po, ls, gc, lg, pc, waiting, line, cdata⟩ := path
  simp only at hh
  subst hh
  rfl

/-- An access of the controller put on a quiet bus while the port is free for it is performed and handed over within the
step; whatever the arbiter grants afterwards is bookkeeping of the port (R1 to R3, R11, R12). -/
theorem State.busAccess_free {acc : BusAccess} (h : s.portFree) (hg : (s.classed acc).cls ≠ .guarded) :
    ∃ n p l rp rl, (s.busAccess acc).apart =
      ((((s.arrived (s.classed acc)).granting [] n p l rp rl).perform acc).handOver (s.classed acc)).apart := by
  obtain ⟨⟨hw, hl⟩, hh, hp⟩ := h
  obtain ⟨n, p, l, rp, rl, -, he⟩ := State.serve_next (k := 1)
    (s := { s with path := { s.path with line := s.path.line ++ [acc] } }) (acc := acc) (rest := []) hw
    (by simp only [hl, List.nil_append]) hh hp hg
  refine ⟨n, p, l, rp, rl, ?_⟩
  unfold State.busAccess State.busAccesses
  rw [hl] at he ⊢
  have hh' : ¬ s.path.holder.isSome := by rw [hh]; simp
  rw [if_neg hh']
  refine (congrArg State.apart he).trans ?_
  obtain ⟨m, hm⟩ := s.arrived_eq (s.classed acc)
  have hg' : (State.arrived { s with path := { s.path with line := [] ++ [acc] } } (s.classed acc)).granting [] n p l rp rl
      = (s.arrived (s.classed acc)).granting [] n p l rp rl := by rw [s.arrived_line]; rfl
  generalize hu : (((s.arrived (s.classed acc)).granting [] n p l rp rl).perform acc).handOver (s.classed acc) = u
  have hq : u.busQuiet := by
    subst hu
    refine outside_busQuiet (State.handOver_outside _ _) ?_
    cases acc <;> exact ⟨rfl, rfl⟩
  have hn : u.path.holder = none := by
    subst hu
    exact outside_none (State.handOver_outside _ _) (by rw [hm]; cases acc <;> exact hh)
  refine (congrArg (fun v => State.apart (State.serve 1 (State.settle (State.handOver (State.perform v acc) (s.classed acc))))) hg').trans ?_
  rw [hu]
  exact (congrArg State.apart (State.settle_serve hq hn)).trans (State.settle_apart hq)

/-! ## The port is never left free while something waits (R11) -/

theorem State.fillCommand_place (s : State) :
    (s.fillCommand.cmd.place = none → ∀ x, s.supply x = none) ∧
    (s.fillCommand.cmd.place = some .transfer → s.cmd.transfer.isSome) := by
  unfold State.fillCommand
  split
  · rename_i w hw
    obtain ⟨h1, h2⟩ := Option.filter_eq_some_iff.mp hw
    refine ⟨fun h => by simp [h1] at h, fun h => ?_⟩
    rw [h1] at h
    cases h
    exact h2
  · split
    · rename_i x hx
      have hs : (s.supply x).isSome := List.find?_some (p := fun x => (s.supply x).isSome) hx
      refine ⟨fun h => ?_, fun h => ?_⟩
      · have h' : s.supply x = none := h
        rw [h'] at hs
        cases hs
      have h : s.supply x = some .transfer := h
      cases x with
      | status => simp [State.supply] at h
      | image => simp [State.supply] at h
      | transfer =>
        by_contra hn
        simp [State.supply, hn] at h
    · rename_i hx
      refine ⟨fun _ x => ?_, fun h => by cases h⟩
      have := List.find?_eq_none.mp hx x (by cases s.cmd.lastSource <;> cases x <;> simp [Source.after])
      simpa using this

theorem State.fillRing_place (s : State) :
    (s.fillRing.ring.place = none → ∀ x, s.ringWord x = none) ∧
    (∀ x, s.fillRing.ring.place = some x → (s.ringWord x).isSome) := by
  unfold State.fillRing
  split
  · rename_i w hw
    obtain ⟨h1, h2⟩ := Option.filter_eq_some_iff.mp hw
    refine ⟨fun h => by simp [h1] at h, fun x h => ?_⟩
    rw [h1] at h
    cases h
    exact h2
  · split
    · rename_i x hx
      have hs : (s.ringWord x).isSome := List.find?_some (p := fun x => (s.ringWord x).isSome) hx
      refine ⟨fun h => (by cases h), fun y h => ?_⟩
      cases h
      exact hs
    · rename_i hx
      refine ⟨fun _ x => ?_, fun x h => by cases h⟩
      have := List.find?_eq_none.mp hx x (by cases s.ring.lastSide <;> cases x <;> simp [RingSide.other])
      simpa using this

theorem State.fillCommand_words (s : State) : s.fillCommand.ringWord = s.ringWord := by
  unfold State.fillCommand
  (repeat' split) <;> rfl

theorem State.fill_place (s : State) :
    (s.fill.cmd.place = none → ∀ x, s.fill.supply x = none) ∧
    (s.fill.cmd.place = some .transfer → s.fill.cmd.transfer.isSome) ∧
    (s.fill.ring.place = none → ∀ x, s.fill.ringWord x = none) ∧
    (∀ x, s.fill.ring.place = some x → (s.fill.ringWord x).isSome) := by
  have hc := s.fillCommand_place
  have hr := s.fillCommand.fillRing_place
  obtain ⟨p, l, rp, rl, he⟩ := s.fill_eq
  have hp : s.fillCommand.cmd.place = s.fill.cmd.place := by
    rw [State.fill]
    unfold State.fillRing
    (repeat' split) <;> rfl
  have hs : s.fill.supply = s.supply := by rw [he]; rfl
  have hw : s.fill.ringWord = s.fillCommand.ringWord := by rw [he, s.fillCommand_words]; rfl
  have ht : s.fill.cmd.transfer = s.cmd.transfer := by rw [he]
  rw [hs, hw, ht, ← hp]
  exact ⟨hc.1, hc.2, hr⟩

theorem State.waits_of_chosen_none (h : s.chosen = none) (r : Requester) : s.waits r = false := by
  have := List.find?_eq_none.mp h r (by cases s.path.lastServed <;> cases r <;> simp [Requester.after])
  simpa using this

theorem State.fill_done (hw : s.path.waiting = none) (hl : s.path.line = []) (h : s.fill.chosen = none) :
    s.fill.portWork = false := by
  obtain ⟨h1, -, h3, -⟩ := s.fill_place
  have w := State.waits_of_chosen_none h
  have wc := w .command
  have wr := w .ring
  have wy := w .cycle
  have wa := w .alarm
  simp only [State.waits, Option.isSome_eq_false_iff, Option.isNone_iff_eq_none] at wc wr wy wa
  simp [State.portWork, hw, hl, h1 wc, h3 wr, wy, wa]

theorem State.grant_holds {w : Requester} (h : s.fill.chosen = some w) : (s.fill.grant w).path.holder.isSome := by
  obtain ⟨-, h2, -, h4⟩ := s.fill_place
  have hw : s.fill.waits w = true := List.find?_some h
  generalize s.fill = u at *
  cases w with
  | command =>
    simp only [State.waits] at hw
    simp only [State.grant, State.grantCommand]
    split
    · rename_i he; simp [he] at hw
    · rfl
    · rfl
    · rename_i he
      split
      · rename_i ht; simp [ht] at h2; exact absurd he h2
      · rfl
  | ring =>
    simp only [State.waits] at hw
    simp only [State.grant, State.grantRing]
    split
    · rename_i he; simp [he] at hw
    · rename_i x he
      have := h4 x he
      split
      · rename_i hn; simp [hn] at this
      · rfl
  | cycle =>
    simp only [State.waits] at hw
    simp only [State.grant]
    split
    · rfl
    · rename_i hn; simp [hn] at hw
  | alarm =>
    simp only [State.waits] at hw
    simp only [State.grant]
    split
    · rfl
    · rename_i hn; simp [hn] at hw

theorem State.nextAccess_line (l : List BusAccess) (s : State) (hw : s.path.waiting = none) :
    (State.nextAccess l s).path.waiting = none → (State.nextAccess l s).path.line = [] := by
  induction l generalizing s with
  | nil => exact fun _ => rfl
  | cons acc rest ih =>
    by_cases hg : (s.classed acc).cls = .guarded
    · cases acc with
      | read a => cases hg
      | write a d be => rw [State.nextAccess_guarded hg]; exact ih (s.guardHit a) hw
    · rw [State.nextAccess_cons hg]; intro h; cases h

theorem State.nextAccess_holder (l : List BusAccess) (s : State) :
    (State.nextAccess l s).path.holder = s.path.holder := by
  induction l generalizing s with
  | nil => rfl
  | cons acc rest ih =>
    by_cases hg : (s.classed acc).cls = .guarded
    · cases acc with
      | read a => cases hg
      | write a d be => rw [State.nextAccess_guarded hg, ih]; rfl
    · obtain ⟨m, hm⟩ := s.arrived_eq (s.classed acc)
      rw [State.nextAccess_cons hg, hm]

/-- When no access of the controller waits and none holds the port, none is still to be made. -/
theorem State.bringAccess_line (s : State) (hh : s.bringAccess.path.holder = none) :
    s.bringAccess.path.waiting = none → s.bringAccess.path.line = [] := by
  revert hh
  unfold State.bringAccess
  split
  · rename_i hc
    intro hh hw
    rw [hw, State.ownHolds_none hh] at hc
    cases hc
  · rename_i hc
    intro _
    refine State.nextAccess_line _ _ ?_
    revert hc
    cases s.path.waiting with
    | none => intro; rfl
    | some c => intro hc; exact absurd rfl hc

theorem State.fill_portWork (s : State) : s.fill.portWork = s.portWork := by
  obtain ⟨p, l, rp, rl, he⟩ := s.fill_eq
  rw [he]
  rfl

/-- After the arbiter's decision the port is held, or there is no work for it. -/
theorem State.settle_done (s : State) : s.settle.path.holder = none → s.settle.portWork = false := by
  unfold State.settle
  rw [State.fill_path, State.fill_portWork]
  have hb := s.bringAccess_line
  generalize s.bringAccess = u at *
  unfold State.arbitrate
  split
  · rename_i h; intro hn; rw [hn] at h; cases h
  · rename_i hh
    rw [State.fill_path] at hh
    split
    · rename_i h1 h2
      rw [State.fill_path] at h1
      exact fun _ => State.fill_done h1 (hb (by simpa using hh) h1) h2
    · rename_i w h1 h2
      intro hn
      have := State.grant_holds h2
      rw [hn] at this
      cases this
    · intro hn; cases hn
    · rename_i h1 h2
      split
      · intro hn; cases hn
      · intro hn
        have := State.grant_holds h2
        rw [hn] at this
        cases this

/-! ## Memory stays in canonical form -/

theorem State.perform_wf {acc : BusAccess} (h : Memory.WF s.mem) : Memory.WF (s.perform acc).mem := by
  cases acc with
  | read a => exact h
  | write a d be => exact Memory.wf_writeWord h

theorem State.nextAccess_mem (l : List BusAccess) (s : State) : (State.nextAccess l s).mem = s.mem := by
  induction l generalizing s with
  | nil => rfl
  | cons acc rest ih =>
    by_cases hg : (s.classed acc).cls = .guarded
    · cases acc with
      | read a => cases hg
      | write a d be => rw [State.nextAccess_guarded hg, ih]; rfl
    · obtain ⟨m, hm⟩ := s.arrived_eq (s.classed acc)
      rw [State.nextAccess_cons hg, hm]

theorem State.bringAccess_mem (s : State) : s.bringAccess.mem = s.mem := by
  unfold State.bringAccess
  split
  · rfl
  · exact State.nextAccess_mem _ _

theorem State.fill_mem (s : State) : s.fill.mem = s.mem := State.mem_eq_of_apart s.fill_apart
theorem State.grant_mem (s : State) (w : Requester) : (s.grant w).mem = s.mem := State.mem_eq_of_apart (s.grant_apart w)

theorem State.arbitrate_mem (s : State) : s.arbitrate.mem = s.mem := by
  unfold State.arbitrate
  (repeat' split) <;> first | rfl | exact State.grant_mem ..

/-- The arbiter's decision leaves memory alone. -/
@[simp] theorem State.settle_mem (s : State) : s.settle.mem = s.mem := by
  unfold State.settle
  rw [State.fill_mem, State.arbitrate_mem, State.fill_mem, State.bringAccess_mem]

theorem State.settle_wf (h : Memory.WF s.mem) : Memory.WF s.settle.mem := by rw [State.settle_mem]; exact h

@[simp] theorem State.completed_outside (s : State) (h : Held) (v : Word) : (s.completed h v).outside = s.outside := by
  unfold State.completed
  (repeat' split) <;> simp

theorem State.complete_wf (h : Memory.WF s.mem) : Memory.WF s.complete.mem := by
  unfold State.complete
  split
  · exact h
  · rw [outside_mem (State.handOver_outside _ _)]
    exact State.perform_wf h
  · rename_i x _
    simp only
    rw [outside_mem (State.completed_outside _ _ _)]
    cases x.op with
    | read a => exact h
    | write a d => exact (Memory.wf_writeWord h : Memory.WF (Memory.writeWord s.mem a d allBytes))

theorem State.portComplete_wf (h : Memory.WF s.mem) : Memory.WF s.portComplete.mem := State.settle_wf (State.complete_wf h)

theorem State.serve_wf (k : Nat) (s : State) (h : Memory.WF s.mem) : Memory.WF (s.serve k).mem := by
  induction k generalizing s with
  | zero => exact h
  | succ k ih =>
    unfold State.serve
    split
    · exact ih _ (State.portComplete_wf h)
    · exact h

theorem State.busAccesses_wf {accs : List BusAccess} (h : Memory.WF s.mem) : Memory.WF (s.busAccesses accs).mem := by
  unfold State.busAccesses
  dsimp only
  split
  · exact State.settle_wf h
  · exact State.serve_wf _ _ (State.settle_wf h)

theorem State.busAccess_wf {acc : BusAccess} (h : Memory.WF s.mem) : Memory.WF (s.busAccess acc).mem :=
  State.busAccesses_wf h

theorem State.engaged_wf (h : Memory.WF s.mem) : Memory.WF s.engaged.mem := by
  unfold State.engaged
  split
  · exact h
  · exact State.settle_wf h

theorem State.runPort_wf {p : State → Held → Bool} (fuel : Nat) (s : State) (h : Memory.WF s.mem) :
    ∀ t ∈ State.runPort p fuel s, Memory.WF t.mem := by
  induction fuel generalizing s with
  | zero => intro t ht; cases ht
  | succ k ih =>
    unfold State.runPort
    split
    · intro t ht; cases ht
    · exact ih _ (State.portComplete_wf h)
    · split
      · intro t ht; cases ht; exact State.portComplete_wf h
      · exact ih _ (State.portComplete_wf h)

theorem State.awaitPort_wf {p : State → Held → Bool} (h : Memory.WF s.mem) : Memory.WF (s.awaitPort p).mem := by
  unfold State.awaitPort
  have hs := State.engaged_wf h
  split
  · rename_i t ht; exact State.runPort_wf _ _ hs t ht
  · exact hs

/-- With the port held, no decision is due. -/
theorem State.engaged_held (hh : s.path.holder.isSome) : s.engaged = s := by
  unfold State.engaged
  rw [if_pos hh]

/-- A row that waits for one access of the port, when that access holds the port: it completes. -/
theorem State.awaitPort_held {p : State → Held → Bool} {h : Held} (hh : s.path.holder = some (.word h))
    (hp : p s h = true) : s.awaitPort p = s.portComplete := by
  unfold State.awaitPort
  rw [State.engaged_held (by rw [hh]; rfl)]
  have : State.runPort p Config.portFuel s = some s.portComplete := by
    rw [show Config.portFuel = 4095 + 1 from rfl, State.runPort]
    simp only [hh, hp, if_true]
  rw [this]

end Sys2Proof.Machine
end

