-- ==== Sys2Proof/Laws/Classes.lean ====
section
/-! SUPPORT. The classes of controller accesses (R2), one lemma per row of its table. -/

namespace Sys2Proof.Machine

open Sys2Proof

variable {s : State} {a : Addr} {d : Word} {be : ByteEnables}

theorem State.classed_read : s.classed (.read a) = ⟨.read a, .read⟩ := rfl

theorem State.classed_write : s.classed (.write a d be) = ⟨.write a d be, s.classify a be⟩ := rfl

theorem pageOffset_of_le (h : Config.controlPage ≤ a.toNat) : pageOffset a = some (a.toNat - Config.controlPage) :=
  if_pos h

theorem pageOffset_of_lt (h : a.toNat < Config.controlPage) : pageOffset a = none := if_neg (Nat.not_le.mpr h)

theorem pageAddr_toNat {o : Nat} (h : o < 256) : (pageAddr o).toNat = Config.controlPage + o := by
  unfold pageAddr addrOf
  rw [BitVec.toNat_ofNat]
  exact Nat.mod_eq_of_lt (by have : Config.controlPage = 0xFFF00 := rfl; omega)

theorem pageOffset_pageAddr {o : Nat} (h : o < 256) : pageOffset (pageAddr o) = some o := by
  rw [pageOffset_of_le (by rw [pageAddr_toNat h]; omega), pageAddr_toNat h, Nat.add_sub_cancel_left]

/-- Offsets of the control words, as `State.classify` tests them. -/
def isControlOffset (o : Nat) : Bool := o ≤ 0x0E || (0x10 ≤ o && o ≤ 0x12)

theorem State.classify_page {o : Nat} (h : pageOffset a = some o) :
    s.classify a be =
      if isControlOffset o then
        if be = allBytes then (if o = 0x12 then .consumerIndex else .control o) else .partialControl
      else if 0x20 ≤ o && o ≤ 0x5B && s.guard then .guarded else .plain := by
  unfold State.classify
  rw [h]
  rfl

theorem State.classify_off (h : pageOffset a = none) (hg : s.guard = false ∨ s.path.zones = none) :
    s.classify a be = .plain := by
  unfold State.classify
  rw [h]
  rcases hg with hg | hg <;> simp [hg]

theorem State.classify_zones {z : ZoneSet} (h : pageOffset a = none) (hg : s.guard = true) (hz : s.path.zones = some z) :
    s.classify a be =
      if z.rx.has a.toNat then .snooped .rx (a.toNat - z.rx.base)
      else if z.tx.has a.toNat then .snooped .tx (a.toNat - z.tx.base)
      else if (z.toList.drop 2).any (·.has a.toNat) then .guarded
      else .plain := by
  unfold State.classify
  rw [h]
  simp only [hg, hz, if_true]

/-- A full write of a control word other than the consumer index is the command unit's. -/
theorem State.classed_control {o : Nat} (h : isControlOffset o = true) (ho : o ≠ 0x12) (ho2 : o < 256) :
    s.classed (pageWrite o d) = ⟨pageWrite o d, .control o⟩ := by
  unfold pageWrite
  rw [State.classed_write, State.classify_page (pageOffset_pageAddr ho2), h, if_pos rfl, if_pos rfl, if_neg ho]

theorem State.classed_consumer : s.classed (pageWrite 0x12 d) = ⟨pageWrite 0x12 d, .consumerIndex⟩ := by
  unfold pageWrite
  rw [State.classed_write, State.classify_page (pageOffset_pageAddr (by decide)), if_pos (by decide), if_pos rfl, if_pos rfl]

/-! ## Granting -/

variable {n : Nat} {p : Option CmdWord} {l : Source} {rp : Option RingSide} {rl : RingSide} {rest : List BusAccess}

/-- On a quiet bus, granting is bookkeeping. -/
theorem State.granting_apart (h : s.busQuiet) : (s.granting [] n p l rp rl).apart = s.apart := by
  obtain ⟨hw, hl⟩ := h
  obtain ⟨pending, mem, path, cmd, lanes, sm, sw, ring, time, cyc, alarm, osc, draws⟩ := s
  obtain ⟨zones, holder, po, ls, gc, lg, pc, waiting, line, cdata⟩ := path
  simp only at hw hl
  subst hw hl
  rfl

/-- A full write of a control word of the command unit, on a free port: it is performed and handed over. -/
theorem State.pageWrite_free {o : Nat} (h : s.portFree) (hc : isControlOffset o = true) (ho : o ≠ 0x12) (ho2 : o < 256) :
    ∃ n p l rp rl, (s.busAccess (pageWrite o d)).apart =
      (({ s.granting [] n p l rp rl with mem := Memory.writeWord s.mem (pageAddr o) d allBytes } : State).handControl o
        d).apart := by
  obtain ⟨n, p, l, rp, rl, he⟩ := State.busAccess_free (acc := pageWrite o d) h (by
    rw [State.classed_control hc ho ho2]; exact fun h => by cases h)
  rw [State.classed_control hc ho ho2] at he
  exact ⟨n, p, l, rp, rl, he⟩

end Sys2Proof.Machine
end

