-- ==== Sys2Proof/Laws/Commands.lean ====
section
/-! SUPPORT. A command word with all its parameters, written on a free port: what is left is the command run by its
owner (R17, R18, R21). -/

namespace Sys2Proof.Machine

open Sys2Proof

/-- Two states that differ in the bookkeeping of the arbiter, of the waiting places and of the rewrite set only. -/
def State.Shadows (g x : State) : Prop :=
  ∃ n p l rp rl rw, g = { x with path := { x.path with passedOver := n }
                                 cmd := { x.cmd with place := p, lastSource := l, rewrite := rw }
                                 ring := { x.ring with place := rp, lastSide := rl } }

/-- What is granted and performed of an access of the controller, with the accesses still to be made. -/
theorem State.pageWrite_serves {s : State} {o : Nat} {d : Word} {rest : List BusAccess} {k : Nat}
    (hw : s.path.waiting = none) (hl : s.path.line = pageWrite o d :: rest) (hh : s.path.holder = none)
    (hp : s.path.passedOver < 16) (hc : isControlOffset o = true) (ho : o ≠ 0x12) (ho2 : o < 256) :
    ∃ n p l rp rl, n ≤ s.path.passedOver + 1 ∧ s.settle.serve (k + 1) =
      (({ s.granting rest n p l rp rl with mem := Memory.writeWord s.mem (pageAddr o) d allBytes } : State).handControl o
        d).settle.serve k := by
  obtain ⟨n, p, l, rp, rl, hn, he⟩ := State.serve_next (k := k) hw hl hh hp (by
    rw [State.classed_control hc ho ho2]; exact fun h => by cases h)
  rw [State.classed_control hc ho ho2] at he
  exact ⟨n, p, l, rp, rl, hn, he⟩

theorem State.handControl_parameter {s : State} {k : Nat} {v : Word} (hk : k < 14) :
    s.handControl (k + 1) v = s.parameterWord (k + 1) v := by
  unfold State.handControl
  rw [if_neg (by omega), if_pos (by omega)]

theorem isControlOffset_parameter {k : Nat} (hk : k < 14) : isControlOffset (k + 1) = true := by
  simp only [isControlOffset, Bool.or_eq_true, decide_eq_true_eq]; omega

/-- A settled state whose bus is quiet is, apart from the port's bookkeeping, the state before; and execution does not
look at what has been collected. -/
theorem State.settle_executes {g : State} {o : OpenCmd} {k : Nat} (hw : g.path.waiting = none) (hl : g.path.line = [])
    (hh : g.path.holder = none) :
    ((g.execute o).settle.serve k).apart
      = (({ g with cmd := { g.cmd with collection := .executing o } } : State).execute o).apart := by
  have hq := outside_busQuiet (State.execute_outside g o) ⟨hw, hl⟩
  rw [State.settle_serve hq (outside_none (State.execute_outside g o) hh), State.settle_apart hq]
  unfold State.execute
  by_cases h : o.cmd.allowedIn g.cmd.hub = true
  · rw [if_pos h, if_pos (show o.cmd.allowedIn g.cmd.hub = true from h)]
  · rw [if_neg h, if_neg (show ¬ o.cmd.allowedIn g.cmd.hub = true from h)]; rfl

theorem State.collect_executes {c : Command} {cnt : Nat} (hcnt : cnt ≤ 14) (ps : List Word) :
    ∀ (dn : List Word) (u : State) (k : Nat), ps.length ≤ k → ps ≠ [] → u.path.waiting = none → u.path.holder = none → u.path.passedOver + ps.length ≤ 16 →
    u.path.line = (ps.zipIdx dn.length).map (fun x => pageWrite (x.2 + 1) x.1) →
    u.cmd.collection = .collecting ⟨c, cnt, dn⟩ → dn.length + ps.length = cnt →
    ∃ g : State, g.Shadows { u with
        path := { u.path with line := [] }
        mem := (ps.zipIdx dn.length).foldl (fun m x => Memory.writeWord m (pageAddr (x.2 + 1)) x.1 allBytes) u.mem
        cmd := { u.cmd with collection := .executing ⟨c, cnt, dn ++ ps⟩ } } ∧
      (u.settle.serve k).apart = (g.execute ⟨c, cnt, dn ++ ps⟩).apart := by
  induction ps with
  | nil => intro dn u k _ h; exact absurd rfl h
  | cons v rest ih =>
    intro dn u k hfuel _ hw hh hp hl hcol hlen
    simp only [List.length_cons] at hp hlen hfuel
    obtain ⟨k, rfl⟩ : ∃ j, k = j + 1 := ⟨k - 1, by omega⟩
    have hk : dn.length < 14 := by omega
    simp only [List.zipIdx_cons, List.map_cons] at hl
    obtain ⟨n, p, l, rp, rl, hn, he⟩ := State.pageWrite_serves (k := k) hw hl hh (by omega) (isControlOffset_parameter hk)
      (by omega) (by omega)
    rw [State.handControl_parameter hk] at he
    generalize hG : ({ u.granting ((rest.zipIdx (dn.length + 1)).map (fun x => pageWrite (x.2 + 1) x.1)) n p l rp rl with
      mem := Memory.writeWord u.mem (pageAddr (dn.length + 1)) v allBytes } : State) = G at he
    have hGc : G.cmd.collection = .collecting ⟨c, cnt, dn⟩ := by subst hG; exact hcol
    have hstep : G.parameterWord (dn.length + 1) v =
        if (dn ++ [v]).length = cnt then G.execute ⟨c, cnt, dn ++ [v]⟩
        else { G with cmd := { G.cmd with collection := .collecting ⟨c, cnt, dn ++ [v]⟩ } } := by
      unfold State.parameterWord
      rw [hGc]
      simp only [if_true]
    rw [hstep] at he
    cases rest with
    | nil =>
      rw [if_pos (by simp at hlen ⊢; omega)] at he
      refine ⟨{ G with cmd := { G.cmd with collection := .executing ⟨c, cnt, dn ++ [v]⟩ } }, ?_, ?_⟩
      rotate_left
      · rw [he]
        exact State.settle_executes (by subst hG; rfl) (by subst hG; rfl) (by subst hG; exact hh)
      · subst hG
        refine ⟨n, p, l, rp, rl, u.cmd.rewrite, ?_⟩
        simp only [State.granting, List.zipIdx_nil, List.map_nil, List.zipIdx_cons, List.foldl_cons, List.foldl_nil, hw]
    | cons v2 rest2 =>
      rw [if_neg (by simp at hlen ⊢; omega)] at he
      obtain ⟨g, ⟨n2, p2, l2, rp2, rl2, rw2, hg⟩, he2⟩ := ih (dn ++ [v])
        ({ G with cmd := { G.cmd with collection := .collecting ⟨c, cnt, dn ++ [v]⟩ } } : State)
        k (by simp at hfuel ⊢; omega) (by simp) (by subst hG; rfl) (by subst hG; exact hh) (by subst hG; simp [State.granting] at hp hn ⊢; omega)
        (by subst hG; simp [State.granting]) rfl (by simp at hlen ⊢; omega)
      refine ⟨g, ?_, ?_⟩
      · refine ⟨n2, p2, l2, rp2, rl2, rw2, ?_⟩
        rw [hg]
        subst hG
        simp [State.granting, hw]
      · rw [he, he2]
        simp

/-! ## The command word -/

theorem commandWordOf_code (code : BitVec 8) (count : BitVec 4) (unread : BitVec 20) :
    field (commandWordOf code count unread) 0 8 = code.toNat := by
  unfold field commandWordOf
  rw [BitVec.toNat_append, Nat.shiftLeft_eq]
  have := code.isLt
  simp only [Nat.pow_zero, Nat.div_one]
  rw [← Nat.shiftLeft_eq, ← Nat.shiftLeft_add_eq_or_of_lt this, Nat.shiftLeft_eq]
  omega

theorem commandWordOf_count (code : BitVec 8) (count : BitVec 4) (unread : BitVec 20) :
    field (commandWordOf code count unread) 8 4 = count.toNat := by
  unfold field commandWordOf
  rw [BitVec.toNat_append, BitVec.toNat_append]
  have h1 := code.isLt
  have h2 := count.isLt
  rw [← Nat.shiftLeft_add_eq_or_of_lt h1, ← Nat.shiftLeft_add_eq_or_of_lt h2, Nat.shiftLeft_eq, Nat.shiftLeft_eq]
  omega

variable {s : State} {code : BitVec 8} {count : BitVec 4} {unread : BitVec 20}

/-- The state as the command word is handed over, with the parameters still to be made. -/
theorem State.writeCommand_opens (params : List Word) (h : s.portFree) :
    ∃ n p l rp rl, n ≤ s.path.passedOver + 1 ∧ s.writeCommand code count unread params =
      (({ s.granting (parameterAccesses params) n p l rp rl with
          mem := Memory.writeWord s.mem (pageAddr 0) (commandWordOf code count unread) allBytes } : State).commandWord
        (commandWordOf code count unread)).settle.serve (params.length + 1) := by
  obtain ⟨⟨hw, hl⟩, hh, hp⟩ := h
  have hf : s.path.line.length + (pageWrite 0 (commandWordOf code count unread) :: parameterAccesses params).length + 1
      = params.length + 1 + 1 := by
    rw [hl]; simp [parameterAccesses]
  have hn : ¬ s.path.holder.isSome := by rw [hh]; simp
  unfold State.writeCommand State.busAccesses
  rw [if_neg hn, hf]
  obtain ⟨n, p, l, rp, rl, hn, he⟩ := State.pageWrite_serves (k := params.length + 1)
    (s := { s with path := { s.path with line := s.path.line ++ (pageWrite 0 (commandWordOf code count unread)
      :: parameterAccesses params) } }) (o := 0) (d := commandWordOf code count unread) (rest := parameterAccesses params)
    hw (by simp only [hl, List.nil_append]) hh hp rfl (by decide) (by decide)
  exact ⟨n, p, l, rp, rl, hn, he⟩

/-- The state when a command has been opened, its parameters have been latched and its execution begins. -/
def State.begun (s : State) (o : OpenCmd) (m : Memory) : State :=
  { s with mem := m, cmd := { s.cmd with record := s.cmd.record.opened, collection := .executing o } }

/-- Two states that differ in bookkeeping only are equal apart from it. -/
theorem State.Shadows.apart_eq {g x : State} (h : g.Shadows x) : g.apart = x.apart := by
  obtain ⟨n, p, l, rp, rl, rw, rfl⟩ := h
  rfl

/-- R17, R18, R21: a command with all its parameters is executed. -/
theorem State.writeCommand_executes {c : Command} {params : List Word} (h : s.takesCommand)
    (hc : Command.ofCode code.toNat = some c) (hn : c.allowsCount count.toNat = true)
    (hp : params.length = count.toNat) (hcnt : count.toNat ≤ 14) :
    ∃ g : State, g.Shadows (s.begun ⟨c, count.toNat, params⟩ (commandMem s.mem code count unread params)) ∧
      (s.writeCommand code count unread params).apart = (g.execute ⟨c, count.toNat, params⟩).apart := by
  obtain ⟨hpf, hpo, hcol, htr, hra⟩ := h
  obtain ⟨n, p, l, rp, rl, hle, he⟩ := State.writeCommand_opens (code := code) (count := count) (unread := unread) params hpf
  generalize hG : ({ s.granting (parameterAccesses params) n p l rp rl with
          mem := Memory.writeWord s.mem (pageAddr 0) (commandWordOf code count unread) allBytes } : State) = G at he
  have hopen : G.commandWord (commandWordOf code count unread) =
      (if count.toNat = 0 then (G.setRecord s.cmd.record.opened).execute ⟨c, count.toNat, []⟩
       else { G.setRecord s.cmd.record.opened with
                cmd := { (G.setRecord s.cmd.record.opened).cmd with collection := .collecting ⟨c, count.toNat, []⟩ } }) := by
    have h1 : G.cmd.hub.refusesAll = false := by subst hG; exact hra
    have h2 : G.cmd.collection = .idle := by subst hG; exact hcol
    have h3 : G.cmd.record = s.cmd.record := by subst hG; rfl
    unfold State.commandWord
    simp only [commandWordOf_code, commandWordOf_count, h1, h2]
    unfold State.openCommand
    simp only [hc, hn, h3]
    rfl
  rw [hopen] at he
  by_cases h0 : count.toNat = 0
  · have hnil : params = [] := List.length_eq_zero_iff.mp (by omega)
    subst hnil
    rw [if_pos h0] at he
    refine ⟨{ G.setRecord s.cmd.record.opened with
              cmd := { (G.setRecord s.cmd.record.opened).cmd with collection := .executing ⟨c, count.toNat, []⟩ } },
      ?_, ?_⟩
    rotate_left
    · rw [he]
      exact State.settle_executes (by subst hG; rfl) (by subst hG; rfl) (by subst hG; exact hpf.2.1)
    · refine ⟨n, p, l, rp, rl, (G.setRecord s.cmd.record.opened).cmd.rewrite, ?_⟩
      subst hG
      simp only [State.begun, State.granting, State.setRecord, retouch, commandMem, parameterAccesses, List.zipIdx_nil,
        List.map_nil, List.foldl_nil, hpf.1.1, hpf.1.2]
  · rw [if_neg h0] at he
    obtain ⟨g, ⟨n2, p2, l2, rp2, rl2, rw2, hg⟩, he2⟩ := State.collect_executes (c := c) hcnt params []
      ({ G.setRecord s.cmd.record.opened with
                cmd := { (G.setRecord s.cmd.record.opened).cmd with collection := .collecting ⟨c, count.toNat, []⟩ } })
      (params.length + 1) (by omega) (by intro hh; rw [hh] at hp; exact h0 hp.symm) (by subst hG; rfl) (by subst hG; exact hpf.2.1)
      (by subst hG; simp [State.granting, State.setRecord, retouch]; omega)
      (by subst hG; rfl) rfl (by simpa using hp)
    refine ⟨g, ?_, ?_⟩
    · refine ⟨n2, p2, l2, rp2, rl2, rw2, ?_⟩
      rw [hg]
      subst hG
      simp only [State.begun, State.granting, State.setRecord, retouch, commandMem, hpf.1.1, hpf.1.2]
      rfl
    · rw [he, he2]
      simp

/-- R21: a command with all its parameters that the hub state allows is run by its owner. -/
theorem State.writeCommand_runs {c : Command} {params : List Word} (h : s.takesCommand)
    (hc : Command.ofCode code.toNat = some c) (hn : c.allowsCount count.toNat = true)
    (hp : params.length = count.toNat) (hcnt : count.toNat ≤ 14) (hall : c.allowedIn s.cmd.hub = true) :
    ∃ g : State, g.Shadows (s.begun ⟨c, count.toNat, params⟩ (commandMem s.mem code count unread params)) ∧
      (s.writeCommand code count unread params).apart = (g.runCommand ⟨c, count.toNat, params⟩).apart := by
  obtain ⟨g, hg, he⟩ := State.writeCommand_executes (unread := unread) h hc hn hp hcnt
  refine ⟨g, hg, ?_⟩
  rw [he]
  obtain ⟨n, p, l, rp, rl, rw, rfl⟩ := hg
  exact congrArg State.apart (if_pos hall)

/-! ## What shadows keep -/

variable {g x : State}

theorem State.Shadows.mem (h : g.Shadows x) : g.mem = x.mem := by
  obtain ⟨n, p, l, rp, rl, rw, rfl⟩ := h; rfl
theorem State.Shadows.lanes (h : g.Shadows x) : g.lanes = x.lanes := by
  obtain ⟨n, p, l, rp, rl, rw, rfl⟩ := h; rfl
theorem State.Shadows.sm (h : g.Shadows x) : g.sm = x.sm := by
  obtain ⟨n, p, l, rp, rl, rw, rfl⟩ := h; rfl
theorem State.Shadows.sw (h : g.Shadows x) : g.sw = x.sw := by
  obtain ⟨n, p, l, rp, rl, rw, rfl⟩ := h; rfl
theorem State.Shadows.time (h : g.Shadows x) : g.time = x.time := by
  obtain ⟨n, p, l, rp, rl, rw, rfl⟩ := h; rfl
theorem State.Shadows.cyc (h : g.Shadows x) : g.cyc = x.cyc := by
  obtain ⟨n, p, l, rp, rl, rw, rfl⟩ := h; rfl
theorem State.Shadows.alarm (h : g.Shadows x) : g.alarm = x.alarm := by
  obtain ⟨n, p, l, rp, rl, rw, rfl⟩ := h; rfl
theorem State.Shadows.osc (h : g.Shadows x) : g.osc = x.osc := by
  obtain ⟨n, p, l, rp, rl, rw, rfl⟩ := h; rfl
theorem State.Shadows.draws (h : g.Shadows x) : g.draws = x.draws := by
  obtain ⟨n, p, l, rp, rl, rw, rfl⟩ := h; rfl
theorem State.Shadows.zones (h : g.Shadows x) : g.path.zones = x.path.zones := by
  obtain ⟨n, p, l, rp, rl, rw, rfl⟩ := h; rfl
theorem State.Shadows.holder (h : g.Shadows x) : g.path.holder = x.path.holder := by
  obtain ⟨n, p, l, rp, rl, rw, rfl⟩ := h; rfl
theorem State.Shadows.waiting (h : g.Shadows x) : g.path.waiting = x.path.waiting := by
  obtain ⟨n, p, l, rp, rl, rw, rfl⟩ := h; rfl
theorem State.Shadows.line (h : g.Shadows x) : g.path.line = x.path.line := by
  obtain ⟨n, p, l, rp, rl, rw, rfl⟩ := h; rfl
theorem State.Shadows.hub (h : g.Shadows x) : g.cmd.hub = x.cmd.hub := by
  obtain ⟨n, p, l, rp, rl, rw, rfl⟩ := h; rfl
theorem State.Shadows.record (h : g.Shadows x) : g.cmd.record = x.cmd.record := by
  obtain ⟨n, p, l, rp, rl, rw, rfl⟩ := h; rfl
theorem State.Shadows.collection (h : g.Shadows x) : g.cmd.collection = x.cmd.collection := by
  obtain ⟨n, p, l, rp, rl, rw, rfl⟩ := h; rfl
theorem State.Shadows.ringState (h : g.Shadows x) : g.ring.state = x.ring.state := by
  obtain ⟨n, p, l, rp, rl, rw, rfl⟩ := h; rfl
theorem State.Shadows.rx (h : g.Shadows x) : g.ring.rx = x.ring.rx := by
  obtain ⟨n, p, l, rp, rl, rw, rfl⟩ := h; rfl
theorem State.Shadows.tx (h : g.Shadows x) : g.ring.tx = x.ring.tx := by
  obtain ⟨n, p, l, rp, rl, rw, rfl⟩ := h; rfl
theorem State.Shadows.exam (h : g.Shadows x) : g.ring.exam = x.ring.exam := by
  obtain ⟨n, p, l, rp, rl, rw, rfl⟩ := h; rfl
theorem State.Shadows.params (h : g.Shadows x) : g.ring.params = x.ring.params := by
  obtain ⟨n, p, l, rp, rl, rw, rfl⟩ := h; rfl

end Sys2Proof.Machine
end

