-- ==== Sys2Proof/Laws/Rows.lean ====
section
/-! SUPPORT. What a row can do, once for all rows: an access of the controller, the port working up to one access, work of
the blocks with a decision of the arbiter after it, the completion of one access, or a reset. -/

namespace Sys2Proof.Machine

open Sys2Proof

/-- What the next state of a row is made of: accesses that the controller makes, the port working up to one access, work of
the blocks with the arbiter's decision after it, the completion of the access holding the port, or a reset. -/
def RowShape (c : Instr) (s t : State) : Prop :=
  (∃ accs, t = s.busAccesses accs) ∨ (∃ p, t = s.awaitPort p) ∨ (∃ u : State, u.outside = s.outside ∧ t = u.settle)
    ∨ t = s.engaged.portComplete ∨ t = s.controllerResets.settle ∨ (c = .coldReset ∧ t = s.coldResets)

theorem RowShape.bus {c : Instr} {s : State} (accs : List BusAccess) : RowShape c s (s.busAccesses accs) := Or.inl ⟨accs, rfl⟩
theorem RowShape.await {c : Instr} {s : State} (p : State → Held → Bool) : RowShape c s (s.awaitPort p) := .inr (.inl ⟨p, rfl⟩)
theorem RowShape.work {c : Instr} {s : State} (u : State) (h : u.outside = s.outside) : RowShape c s u.settle :=
  .inr (.inr (.inl ⟨u, h, rfl⟩))

/-- A row with a next state of one of these shapes. -/
theorem shaped {c : Instr} {s t : State} {o : Out} (h : o = .next t) (hs : RowShape c s t) :
    ∃ t, o = .next t ∧ RowShape c s t := ⟨t, h, hs⟩

theorem State.onSlotTimer_outside (s : State) (i : Slot) (st : SlotState) (f : State → State)
    (h : ∀ u, (f u).outside = u.outside) : (s.onSlotTimer i st f).outside = s.outside := by
  unfold State.onSlotTimer
  split
  · split
    · rw [h, State.advanceTo_outside]
    · rfl
  · rfl

theorem State.onHold_outside (s : State) : s.onHold.outside = s.outside := by
  unfold State.onHold
  (repeat' split) <;> simp

theorem State.ppsOutEnds_outside (s : State) : s.ppsOutEnds.outside = s.outside := by
  unfold State.ppsOutEnds
  (repeat' split) <;> rfl

theorem State.watchEnds_outside (s : State) (k : Fin 4) : (s.watchEnds k).outside = s.outside := by
  simp [State.watchEnds]

theorem State.scanNow_outside (s : State) : s.scanNow.outside = s.outside := by
  unfold State.scanNow
  rw [outside_with, State.scan_outside]

/-- Every row answers a next state, of one of the shapes of `RowShape`. -/
theorem exec_shape (c : Instr) (s : State) : ∃ t, exec c s = .next t ∧ RowShape c s t := by
  cases c with
  | controllerRead addr => exact shaped rfl (.bus [_])
  | plainWrite addr data be => exact shaped rfl (.bus [_])
  | partialControlWrite offset data be => exact shaped rfl (.bus [_])
  | guardedWrite addr data be => exact shaped rfl (.bus [_])
  | snoopedRingWrite addr data be => exact shaped rfl (.bus [_])
  | portAccessComplete => exact shaped rfl (.inr (.inr (.inr (.inl rfl))))
  | parameterWrite k data => exact shaped rfl (.bus [_])
  | attentionMaskWrite data => exact shaped rfl (.bus [_])
  | attentionAcknowledge data => exact shaped rfl (.bus [_])
  | consumerIndexWrite data => exact shaped rfl (.bus [_])
  | unknownCommand code count unread params => exact shaped rfl (.bus _)
  | loadSetup count unread params => exact shaped rfl (.bus _)
  | shutdown count unread params => exact shaped rfl (.bus _)
  | counterSnapshot count unread params => exact shaped rfl (.bus _)
  | setDiscipline count unread params => exact shaped rfl (.bus _)
  | setTime count unread params => exact shaped rfl (.bus _)
  | ringStart count unread params => exact shaped rfl (.bus _)
  | ringStop count unread params => exact shaped rfl (.bus _)
  | cycleStart count unread params => exact shaped rfl (.bus _)
  | cycleStop count unread params => exact shaped rfl (.bus _)
  | slotRelease count unread params => exact shaped rfl (.bus _)
  | slotRetry count unread params => exact shaped rfl (.bus _)
  | slotOverride count unread params => exact shaped rfl (.bus _)
  | tableUpdate count unread params => exact shaped rfl (.bus _)
  | alarmReset count unread params => exact shaped rfl (.bus _)
  | setupBlockReadDone => exact shaped rfl (.await _)
  | loadImagesReadDone => exact shaped rfl (.await _)
  | loadWritebackDone => exact shaped rfl (.await _)
  | adoptWriteoutDone => exact shaped rfl (.await _)
  | shutdownComplete => exact shaped rfl (.work _ (by split <;> simp))
  | statusRewriteDone => exact shaped rfl (.await _)
  | counterSnapshotDone => exact shaped rfl (.await _)
  | stagingRecordReadDone => exact shaped rfl (.await _)
  | imageEntryRewriteDone => exact shaped rfl (.await _)
  | imageWordRewriteDone => exact shaped rfl (.await _)
  | controllerReset => exact shaped rfl (.inr (.inr (.inr (.inr (.inl rfl)))))
  | coldReset => exact shaped rfl (.inr (.inr (.inr (.inr (.inr ⟨rfl, rfl⟩)))))
  | trainingComplete slot plane => exact shaped rfl (.work _ (by simp))
  | lossOfSignal slot plane => exact shaped rfl (.work _ (by simp))
  | frameStartReceived slot plane bytes => exact shaped rfl (.work _ (by simp))
  | frameEndReceived slot plane bytes => exact shaped rfl (.work _ (by simp))
  | frameTransmitEnd slot plane => exact shaped rfl (.work _ (by simp))
  | presenceArrival slot => exact shaped rfl (.work _ (by simp))
  | presenceLoss slot => exact shaped rfl (.work _ (by simp))
  | presenceDebounceExpiry slot => exact shaped rfl (.work _ (State.onSlotTimer_outside _ _ _ _ (by simp)))
  | latchClosed slot => exact shaped rfl (.work _ (by simp))
  | latchOpened slot => exact shaped rfl (.work _ (by simp))
  | powerGoodArrival slot => exact shaped rfl (.work _ (by simp))
  | powerGoodLoss slot => exact shaped rfl (.work _ (by simp))
  | powerGoodWaitExpiry slot => exact shaped rfl (.work _ (State.onSlotTimer_outside _ _ _ _ (by simp)))
  | trainingTimerExpiry slot => exact shaped rfl (.work _ (State.onSlotTimer_outside _ _ _ _ (by simp)))
  | identWaitExpiry slot => exact shaped rfl (.work _ (State.onSlotTimer_outside _ _ _ _ (by simp)))
  | drainTimerExpiry slot => exact shaped rfl (.work _ (State.onSlotTimer_outside _ _ _ _ (by simp)))
  | backoffExpiry slot => exact shaped rfl (.work _ (State.onSlotTimer_outside _ _ _ _ (by simp)))
  | drainEnd slot => exact shaped rfl (.work _ (by split <;> simp))
  | heldFrameReoffer => exact shaped rfl (.work _ (by simp))
  | rxMovementStart => exact shaped rfl (.work _ (by split <;> simp))
  | rxWalkEnd => exact shaped rfl (.await _)
  | rxHoldExpiry => exact shaped rfl (.work _ (State.onHold_outside s))
  | rxPlacementDone => exact shaped rfl (.await _)
  | rxFrameDelivered => exact shaped rfl (.await _)
  | rxMissMarkerDone => exact shaped rfl (.await _)
  | txExamineDone => exact shaped rfl (.await _)
  | txChainJudge => exact shaped rfl (.await _)
  | txLoadComplete => exact shaped rfl (.await _)
  | txReturnDone => exact shaped rfl (.await _)
  | ringHaltComplete => exact shaped rfl (.work _ (by split <;> simp))
  | rollover => exact shaped rfl (.work _ (by simp))
  | ppsOutPulseEnd => exact shaped rfl (.work _ (by split <;> simp [State.ppsOutEnds_outside]))
  | ppsInEdge => exact shaped rfl (.work _ (by simp))
  | referenceWatchExpiry entry => exact shaped rfl (.work _ (by split <;> simp [State.watchEnds_outside]))
  | cycleEntryFetchDone => exact shaped rfl (.await _)
  | waitGapExpiry => exact shaped rfl (.work _ (by split <;> simp))
  | waitBoundaryReached => exact shaped rfl (.work _ (by split <;> simp))
  | pollResponseTimeout => exact shaped rfl (.work _ (by split <;> simp))
  | cycleWriteBackDone => exact shaped rfl (.await _)
  | alarmScan => exact shaped rfl (.work _ ((State.scanNow_outside _).trans (State.advanceTo_outside _ _)))
  | logEntryWritten => exact shaped rfl (.await _)
  | oscillatorPeriod periods => exact shaped rfl (.work _ (by simp))
  | contactLevelChange input closed => exact shaped rfl (.work _ rfl)

/-! ## Resets -/

theorem State.resetPort_mem_wf {s : State} (h : Memory.WF s.mem) : Memory.WF s.resetPort.mem := by
  unfold State.resetPort
  refine State.complete_wf ?_
  rw [outside_mem (State.dropHeld_outside s _)]
  exact h

theorem State.controllerResets_wf {s : State} (h : Memory.WF s.mem) : Memory.WF s.controllerResets.mem := by
  have h1 := State.resetPort_mem_wf h
  unfold State.controllerResets
  generalize s.resetPort = u at h1
  have h2 : u.resetTables.resetLog.ringReset.mem = u.mem := by
    rw [outside_mem (State.ringReset_outside _)]
    unfold State.resetLog State.resetTables
    (repeat' split) <;> simp [outside_mem (State.alarmLeaves_outside _), outside_mem (State.emptyTables_outside _)]
  simp only
  rw [outside_mem (State.setHub_outside _ _), outside_mem (State.emptyZones_outside _),
    outside_mem (State.setCyc_outside _ _), h2]
  exact h1

theorem State.coldResets_wf {s : State} (h : Memory.WF s.mem) : Memory.WF s.coldResets.mem := by
  unfold State.coldResets
  dsimp only
  unfold State.tornMem
  split
  · exact Memory.wf_writeWord h
  · exact Memory.wf_writeWord h
  · exact h

end Sys2Proof.Machine
end

