-- ==== Sys2Proof/Laws/State.lean ====
section
/-! SUPPORT. One lemma for each field of the state and each update of Machine/Ops.lean and Machine/Flags.lean, so that
no later proof unfolds a record update. -/

namespace Sys2Proof.Machine

open Sys2Proof

variable (s t : State)

/-! ## Tables -/

@[simp] theorem vget_vset_self {α : Type} {n : Nat} (v : Vector α n) (i : Fin n) (x : α) : vget (vset v i x) i = x := by
  simp [vget, vset]

@[simp] theorem vget_vset_ne {α : Type} {n : Nat} (v : Vector α n) {i j : Fin n} (x : α) (h : i ≠ j) :
    vget (vset v i x) j = vget v j := by
  simp [vget, vset, Fin.val_inj, h]

@[simp] theorem vset_vget {α : Type} {n : Nat} (v : Vector α n) (i : Fin n) : vset v i (vget v i) = v := by
  simp [vget, vset]

@[simp] theorem vset_vset {α : Type} {n : Nat} (v : Vector α n) (i : Fin n) (x y : α) :
    vset (vset v i x) i y = vset v i y := by
  simp [vset]

@[simp] theorem Lanes.get_set_self (l : Lanes) (p : Plane) (x : LanePort) : (l.set p x).get p = x := by cases p <;> rfl

@[simp] theorem Lanes.get_set_other (l : Lanes) (p : Plane) (x : LanePort) : (l.set p x).get p.other = l.get p.other := by
  cases p <;> rfl

@[simp] theorem State.slot_setSlot_self (i : Slot) (e : SlotEntry) : (s.setSlot i e).slot i = e := by
  simp [State.slot, State.setSlot]

theorem State.slot_setSlot_ne {i j : Slot} (e : SlotEntry) (h : i ≠ j) : (s.setSlot i e).slot j = s.slot j := by
  simp [State.slot, State.setSlot, h]

@[simp] theorem State.lane_setLane_self (i : Slot) (p : Plane) (l : LanePort) : (s.setLane i p l).lane i p = l := by
  simp [State.lane, State.setLane]

@[simp] theorem State.lane_setLane_other (i : Slot) (p : Plane) (l : LanePort) :
    (s.setLane i p l).lane i p.other = s.lane i p.other := by
  simp [State.lane, State.setLane]

theorem State.lane_setLane_ne {i j : Slot} (p q : Plane) (l : LanePort) (h : i ≠ j) :
    (s.setLane i p l).lane j q = s.lane j q := by
  simp [State.lane, State.setLane, h]

/-! ## The rewrite sets -/

@[simp] theorem retouch_nil : retouch [] s t = t := rfl

@[simp] theorem reimage_nil : reimage [] s t = t := by
  unfold reimage; split <;> rfl

@[simp] theorem retouch_pending (o : List Nat) : (retouch o s t).pending = t.pending := rfl
@[simp] theorem retouch_mem (o : List Nat) : (retouch o s t).mem = t.mem := rfl
@[simp] theorem retouch_path (o : List Nat) : (retouch o s t).path = t.path := rfl
@[simp] theorem retouch_lanes (o : List Nat) : (retouch o s t).lanes = t.lanes := rfl
@[simp] theorem retouch_sm (o : List Nat) : (retouch o s t).sm = t.sm := rfl
@[simp] theorem retouch_sw (o : List Nat) : (retouch o s t).sw = t.sw := rfl
@[simp] theorem retouch_ring (o : List Nat) : (retouch o s t).ring = t.ring := rfl
@[simp] theorem retouch_time (o : List Nat) : (retouch o s t).time = t.time := rfl
@[simp] theorem retouch_cyc (o : List Nat) : (retouch o s t).cyc = t.cyc := rfl
@[simp] theorem retouch_alarm (o : List Nat) : (retouch o s t).alarm = t.alarm := rfl
@[simp] theorem retouch_osc (o : List Nat) : (retouch o s t).osc = t.osc := rfl
@[simp] theorem retouch_draws (o : List Nat) : (retouch o s t).draws = t.draws := rfl

@[simp] theorem reimage_pending (ws : List ImgWord) : (reimage ws s t).pending = t.pending := rfl
@[simp] theorem reimage_mem (ws : List ImgWord) : (reimage ws s t).mem = t.mem := rfl
@[simp] theorem reimage_path (ws : List ImgWord) : (reimage ws s t).path = t.path := rfl
@[simp] theorem reimage_lanes (ws : List ImgWord) : (reimage ws s t).lanes = t.lanes := rfl
@[simp] theorem reimage_sm (ws : List ImgWord) : (reimage ws s t).sm = t.sm := rfl
@[simp] theorem reimage_sw (ws : List ImgWord) : (reimage ws s t).sw = t.sw := rfl
@[simp] theorem reimage_ring (ws : List ImgWord) : (reimage ws s t).ring = t.ring := rfl
@[simp] theorem reimage_time (ws : List ImgWord) : (reimage ws s t).time = t.time := rfl
@[simp] theorem reimage_cyc (ws : List ImgWord) : (reimage ws s t).cyc = t.cyc := rfl
@[simp] theorem reimage_alarm (ws : List ImgWord) : (reimage ws s t).alarm = t.alarm := rfl
@[simp] theorem reimage_osc (ws : List ImgWord) : (reimage ws s t).osc = t.osc := rfl
@[simp] theorem reimage_draws (ws : List ImgWord) : (reimage ws s t).draws = t.draws := rfl

@[simp] theorem retouch_cmd_collection (o : List Nat) : (retouch o s t).cmd.collection = t.cmd.collection := rfl
@[simp] theorem retouch_cmd_hub (o : List Nat) : (retouch o s t).cmd.hub = t.cmd.hub := rfl
@[simp] theorem retouch_cmd_record (o : List Nat) : (retouch o s t).cmd.record = t.cmd.record := rfl
@[simp] theorem retouch_cmd_mask (o : List Nat) : (retouch o s t).cmd.mask = t.cmd.mask := rfl
@[simp] theorem retouch_cmd_pending (o : List Nat) : (retouch o s t).cmd.pending = t.cmd.pending := rfl
@[simp] theorem retouch_cmd_doneOwed (o : List Nat) : (retouch o s t).cmd.doneOwed = t.cmd.doneOwed := rfl
@[simp] theorem retouch_cmd_place (o : List Nat) : (retouch o s t).cmd.place = t.cmd.place := rfl
@[simp] theorem retouch_cmd_lastSource (o : List Nat) : (retouch o s t).cmd.lastSource = t.cmd.lastSource := rfl
@[simp] theorem retouch_cmd_transfer (o : List Nat) : (retouch o s t).cmd.transfer = t.cmd.transfer := rfl
@[simp] theorem retouch_cmd_setup (o : List Nat) : (retouch o s t).cmd.setup = t.cmd.setup := rfl
@[simp] theorem retouch_cmd_snapSec (o : List Nat) : (retouch o s t).cmd.snapSec = t.cmd.snapSec := rfl
@[simp] theorem retouch_cmd_snapNs (o : List Nat) : (retouch o s t).cmd.snapNs = t.cmd.snapNs := rfl
@[simp] theorem retouch_cmd_images (o : List Nat) : (retouch o s t).cmd.images = t.cmd.images := rfl

@[simp] theorem reimage_cmd_collection (ws : List ImgWord) : (reimage ws s t).cmd.collection = t.cmd.collection := rfl
@[simp] theorem reimage_cmd_hub (ws : List ImgWord) : (reimage ws s t).cmd.hub = t.cmd.hub := rfl
@[simp] theorem reimage_cmd_record (ws : List ImgWord) : (reimage ws s t).cmd.record = t.cmd.record := rfl
@[simp] theorem reimage_cmd_mask (ws : List ImgWord) : (reimage ws s t).cmd.mask = t.cmd.mask := rfl
@[simp] theorem reimage_cmd_pending (ws : List ImgWord) : (reimage ws s t).cmd.pending = t.cmd.pending := rfl
@[simp] theorem reimage_cmd_doneOwed (ws : List ImgWord) : (reimage ws s t).cmd.doneOwed = t.cmd.doneOwed := rfl
@[simp] theorem reimage_cmd_place (ws : List ImgWord) : (reimage ws s t).cmd.place = t.cmd.place := rfl
@[simp] theorem reimage_cmd_lastSource (ws : List ImgWord) : (reimage ws s t).cmd.lastSource = t.cmd.lastSource := rfl
@[simp] theorem reimage_cmd_transfer (ws : List ImgWord) : (reimage ws s t).cmd.transfer = t.cmd.transfer := rfl
@[simp] theorem reimage_cmd_setup (ws : List ImgWord) : (reimage ws s t).cmd.setup = t.cmd.setup := rfl
@[simp] theorem reimage_cmd_snapSec (ws : List ImgWord) : (reimage ws s t).cmd.snapSec = t.cmd.snapSec := rfl
@[simp] theorem reimage_cmd_snapNs (ws : List ImgWord) : (reimage ws s t).cmd.snapNs = t.cmd.snapNs := rfl
@[simp] theorem reimage_cmd_rewrite (ws : List ImgWord) : (reimage ws s t).cmd.rewrite = t.cmd.rewrite := rfl

/-! ## Updates -/

@[simp] theorem State.setSlot_pending (i : Slot) (e : SlotEntry) : (s.setSlot i e).pending = s.pending := rfl
@[simp] theorem State.setSlot_mem (i : Slot) (e : SlotEntry) : (s.setSlot i e).mem = s.mem := rfl
@[simp] theorem State.setSlot_path (i : Slot) (e : SlotEntry) : (s.setSlot i e).path = s.path := rfl
@[simp] theorem State.setSlot_cmd (i : Slot) (e : SlotEntry) : (s.setSlot i e).cmd = s.cmd := rfl
@[simp] theorem State.setSlot_lanes (i : Slot) (e : SlotEntry) : (s.setSlot i e).lanes = s.lanes := rfl
@[simp] theorem State.setSlot_sm (i : Slot) (e : SlotEntry) :
    (s.setSlot i e).sm = { s.sm with slots := vset s.sm.slots i e } := rfl
@[simp] theorem State.setSlot_sw (i : Slot) (e : SlotEntry) : (s.setSlot i e).sw = s.sw := rfl
@[simp] theorem State.setSlot_ring (i : Slot) (e : SlotEntry) : (s.setSlot i e).ring = s.ring := rfl
@[simp] theorem State.setSlot_time (i : Slot) (e : SlotEntry) : (s.setSlot i e).time = s.time := rfl
@[simp] theorem State.setSlot_cyc (i : Slot) (e : SlotEntry) : (s.setSlot i e).cyc = s.cyc := rfl
@[simp] theorem State.setSlot_alarm (i : Slot) (e : SlotEntry) : (s.setSlot i e).alarm = s.alarm := rfl
@[simp] theorem State.setSlot_osc (i : Slot) (e : SlotEntry) : (s.setSlot i e).osc = s.osc := rfl
@[simp] theorem State.setSlot_draws (i : Slot) (e : SlotEntry) : (s.setSlot i e).draws = s.draws := rfl

@[simp] theorem State.setLane_pending (i : Slot) (p : Plane) (l : LanePort) :
    (s.setLane i p l).pending = s.pending := rfl
@[simp] theorem State.setLane_mem (i : Slot) (p : Plane) (l : LanePort) : (s.setLane i p l).mem = s.mem := rfl
@[simp] theorem State.setLane_path (i : Slot) (p : Plane) (l : LanePort) : (s.setLane i p l).path = s.path := rfl
@[simp] theorem State.setLane_cmd (i : Slot) (p : Plane) (l : LanePort) : (s.setLane i p l).cmd = s.cmd := rfl
@[simp] theorem State.setLane_lanes (i : Slot) (p : Plane) (l : LanePort) :
    (s.setLane i p l).lanes = vset s.lanes i ((vget s.lanes i).set p l) := rfl
@[simp] theorem State.setLane_sm (i : Slot) (p : Plane) (l : LanePort) : (s.setLane i p l).sm = s.sm := rfl
@[simp] theorem State.setLane_sw (i : Slot) (p : Plane) (l : LanePort) : (s.setLane i p l).sw = s.sw := rfl
@[simp] theorem State.setLane_ring (i : Slot) (p : Plane) (l : LanePort) : (s.setLane i p l).ring = s.ring := rfl
@[simp] theorem State.setLane_time (i : Slot) (p : Plane) (l : LanePort) : (s.setLane i p l).time = s.time := rfl
@[simp] theorem State.setLane_cyc (i : Slot) (p : Plane) (l : LanePort) : (s.setLane i p l).cyc = s.cyc := rfl
@[simp] theorem State.setLane_alarm (i : Slot) (p : Plane) (l : LanePort) : (s.setLane i p l).alarm = s.alarm := rfl
@[simp] theorem State.setLane_osc (i : Slot) (p : Plane) (l : LanePort) : (s.setLane i p l).osc = s.osc := rfl
@[simp] theorem State.setLane_draws (i : Slot) (p : Plane) (l : LanePort) : (s.setLane i p l).draws = s.draws := rfl

@[simp] theorem State.setPending_pending (p : BitVec 12) : (s.setPending p).pending = s.pending := rfl
@[simp] theorem State.setPending_mem (p : BitVec 12) : (s.setPending p).mem = s.mem := rfl
@[simp] theorem State.setPending_path (p : BitVec 12) : (s.setPending p).path = s.path := rfl
@[simp] theorem State.setPending_lanes (p : BitVec 12) : (s.setPending p).lanes = s.lanes := rfl
@[simp] theorem State.setPending_sm (p : BitVec 12) : (s.setPending p).sm = s.sm := rfl
@[simp] theorem State.setPending_sw (p : BitVec 12) : (s.setPending p).sw = s.sw := rfl
@[simp] theorem State.setPending_ring (p : BitVec 12) : (s.setPending p).ring = s.ring := rfl
@[simp] theorem State.setPending_time (p : BitVec 12) : (s.setPending p).time = s.time := rfl
@[simp] theorem State.setPending_cyc (p : BitVec 12) : (s.setPending p).cyc = s.cyc := rfl
@[simp] theorem State.setPending_alarm (p : BitVec 12) : (s.setPending p).alarm = s.alarm := rfl
@[simp] theorem State.setPending_osc (p : BitVec 12) : (s.setPending p).osc = s.osc := rfl
@[simp] theorem State.setPending_draws (p : BitVec 12) : (s.setPending p).draws = s.draws := rfl

@[simp] theorem State.deliver_pending (c : Cause) : (s.deliver c).pending = s.pending := rfl
@[simp] theorem State.deliver_mem (c : Cause) : (s.deliver c).mem = s.mem := rfl
@[simp] theorem State.deliver_path (c : Cause) : (s.deliver c).path = s.path := rfl
@[simp] theorem State.deliver_lanes (c : Cause) : (s.deliver c).lanes = s.lanes := rfl
@[simp] theorem State.deliver_sm (c : Cause) : (s.deliver c).sm = s.sm := rfl
@[simp] theorem State.deliver_sw (c : Cause) : (s.deliver c).sw = s.sw := rfl
@[simp] theorem State.deliver_ring (c : Cause) : (s.deliver c).ring = s.ring := rfl
@[simp] theorem State.deliver_time (c : Cause) : (s.deliver c).time = s.time := rfl
@[simp] theorem State.deliver_cyc (c : Cause) : (s.deliver c).cyc = s.cyc := rfl
@[simp] theorem State.deliver_alarm (c : Cause) : (s.deliver c).alarm = s.alarm := rfl
@[simp] theorem State.deliver_osc (c : Cause) : (s.deliver c).osc = s.osc := rfl
@[simp] theorem State.deliver_draws (c : Cause) : (s.deliver c).draws = s.draws := rfl

@[simp] theorem State.setRecord_pending (r : CmdRecord) : (s.setRecord r).pending = s.pending := rfl
@[simp] theorem State.setRecord_mem (r : CmdRecord) : (s.setRecord r).mem = s.mem := rfl
@[simp] theorem State.setRecord_path (r : CmdRecord) : (s.setRecord r).path = s.path := rfl
@[simp] theorem State.setRecord_lanes (r : CmdRecord) : (s.setRecord r).lanes = s.lanes := rfl
@[simp] theorem State.setRecord_sm (r : CmdRecord) : (s.setRecord r).sm = s.sm := rfl
@[simp] theorem State.setRecord_sw (r : CmdRecord) : (s.setRecord r).sw = s.sw := rfl
@[simp] theorem State.setRecord_ring (r : CmdRecord) : (s.setRecord r).ring = s.ring := rfl
@[simp] theorem State.setRecord_time (r : CmdRecord) : (s.setRecord r).time = s.time := rfl
@[simp] theorem State.setRecord_cyc (r : CmdRecord) : (s.setRecord r).cyc = s.cyc := rfl
@[simp] theorem State.setRecord_alarm (r : CmdRecord) : (s.setRecord r).alarm = s.alarm := rfl
@[simp] theorem State.setRecord_osc (r : CmdRecord) : (s.setRecord r).osc = s.osc := rfl
@[simp] theorem State.setRecord_draws (r : CmdRecord) : (s.setRecord r).draws = s.draws := rfl

@[simp] theorem State.setRing_pending (r : RingEngine) : (s.setRing r).pending = s.pending := rfl
@[simp] theorem State.setRing_mem (r : RingEngine) : (s.setRing r).mem = s.mem := rfl
@[simp] theorem State.setRing_path (r : RingEngine) : (s.setRing r).path = s.path := rfl
@[simp] theorem State.setRing_lanes (r : RingEngine) : (s.setRing r).lanes = s.lanes := rfl
@[simp] theorem State.setRing_sm (r : RingEngine) : (s.setRing r).sm = s.sm := rfl
@[simp] theorem State.setRing_sw (r : RingEngine) : (s.setRing r).sw = s.sw := rfl
@[simp] theorem State.setRing_ring (r : RingEngine) : (s.setRing r).ring = r := rfl
@[simp] theorem State.setRing_time (r : RingEngine) : (s.setRing r).time = s.time := rfl
@[simp] theorem State.setRing_cyc (r : RingEngine) : (s.setRing r).cyc = s.cyc := rfl
@[simp] theorem State.setRing_alarm (r : RingEngine) : (s.setRing r).alarm = s.alarm := rfl
@[simp] theorem State.setRing_osc (r : RingEngine) : (s.setRing r).osc = s.osc := rfl
@[simp] theorem State.setRing_draws (r : RingEngine) : (s.setRing r).draws = s.draws := rfl

@[simp] theorem State.setCyc_pending (c : CycleEngine) : (s.setCyc c).pending = s.pending := rfl
@[simp] theorem State.setCyc_mem (c : CycleEngine) : (s.setCyc c).mem = s.mem := rfl
@[simp] theorem State.setCyc_path (c : CycleEngine) : (s.setCyc c).path = s.path := rfl
@[simp] theorem State.setCyc_lanes (c : CycleEngine) : (s.setCyc c).lanes = s.lanes := rfl
@[simp] theorem State.setCyc_sm (c : CycleEngine) : (s.setCyc c).sm = s.sm := rfl
@[simp] theorem State.setCyc_sw (c : CycleEngine) : (s.setCyc c).sw = s.sw := rfl
@[simp] theorem State.setCyc_ring (c : CycleEngine) : (s.setCyc c).ring = s.ring := rfl
@[simp] theorem State.setCyc_time (c : CycleEngine) : (s.setCyc c).time = s.time := rfl
@[simp] theorem State.setCyc_cyc (c : CycleEngine) : (s.setCyc c).cyc = c := rfl
@[simp] theorem State.setCyc_alarm (c : CycleEngine) : (s.setCyc c).alarm = s.alarm := rfl
@[simp] theorem State.setCyc_osc (c : CycleEngine) : (s.setCyc c).osc = s.osc := rfl
@[simp] theorem State.setCyc_draws (c : CycleEngine) : (s.setCyc c).draws = s.draws := rfl

@[simp] theorem State.setSw_pending (w : SwitchCore) : (s.setSw w).pending = s.pending := rfl
@[simp] theorem State.setSw_mem (w : SwitchCore) : (s.setSw w).mem = s.mem := rfl
@[simp] theorem State.setSw_path (w : SwitchCore) : (s.setSw w).path = s.path := rfl
@[simp] theorem State.setSw_lanes (w : SwitchCore) : (s.setSw w).lanes = s.lanes := rfl
@[simp] theorem State.setSw_sm (w : SwitchCore) : (s.setSw w).sm = s.sm := rfl
@[simp] theorem State.setSw_sw (w : SwitchCore) : (s.setSw w).sw = w := rfl
@[simp] theorem State.setSw_ring (w : SwitchCore) : (s.setSw w).ring = s.ring := rfl
@[simp] theorem State.setSw_time (w : SwitchCore) : (s.setSw w).time = s.time := rfl
@[simp] theorem State.setSw_cyc (w : SwitchCore) : (s.setSw w).cyc = s.cyc := rfl
@[simp] theorem State.setSw_alarm (w : SwitchCore) : (s.setSw w).alarm = s.alarm := rfl
@[simp] theorem State.setSw_osc (w : SwitchCore) : (s.setSw w).osc = s.osc := rfl
@[simp] theorem State.setSw_draws (w : SwitchCore) : (s.setSw w).draws = s.draws := rfl

@[simp] theorem State.setAlarm_pending (a : AlarmUnit) : (s.setAlarm a).pending = s.pending := rfl
@[simp] theorem State.setAlarm_mem (a : AlarmUnit) : (s.setAlarm a).mem = s.mem := rfl
@[simp] theorem State.setAlarm_path (a : AlarmUnit) : (s.setAlarm a).path = s.path := rfl
@[simp] theorem State.setAlarm_lanes (a : AlarmUnit) : (s.setAlarm a).lanes = s.lanes := rfl
@[simp] theorem State.setAlarm_sm (a : AlarmUnit) : (s.setAlarm a).sm = s.sm := rfl
@[simp] theorem State.setAlarm_sw (a : AlarmUnit) : (s.setAlarm a).sw = s.sw := rfl
@[simp] theorem State.setAlarm_ring (a : AlarmUnit) : (s.setAlarm a).ring = s.ring := rfl
@[simp] theorem State.setAlarm_time (a : AlarmUnit) : (s.setAlarm a).time = s.time := rfl
@[simp] theorem State.setAlarm_cyc (a : AlarmUnit) : (s.setAlarm a).cyc = s.cyc := rfl
@[simp] theorem State.setAlarm_alarm (a : AlarmUnit) : (s.setAlarm a).alarm = a := rfl
@[simp] theorem State.setAlarm_osc (a : AlarmUnit) : (s.setAlarm a).osc = s.osc := rfl
@[simp] theorem State.setAlarm_draws (a : AlarmUnit) : (s.setAlarm a).draws = s.draws := rfl

@[simp] theorem State.snapshot_pending (sec ns : Nat) : (s.snapshot sec ns).pending = s.pending := rfl
@[simp] theorem State.snapshot_mem (sec ns : Nat) : (s.snapshot sec ns).mem = s.mem := rfl
@[simp] theorem State.snapshot_path (sec ns : Nat) : (s.snapshot sec ns).path = s.path := rfl
@[simp] theorem State.snapshot_lanes (sec ns : Nat) : (s.snapshot sec ns).lanes = s.lanes := rfl
@[simp] theorem State.snapshot_sm (sec ns : Nat) : (s.snapshot sec ns).sm = s.sm := rfl
@[simp] theorem State.snapshot_sw (sec ns : Nat) : (s.snapshot sec ns).sw = s.sw := rfl
@[simp] theorem State.snapshot_ring (sec ns : Nat) : (s.snapshot sec ns).ring = s.ring := rfl
@[simp] theorem State.snapshot_time (sec ns : Nat) : (s.snapshot sec ns).time = s.time := rfl
@[simp] theorem State.snapshot_cyc (sec ns : Nat) : (s.snapshot sec ns).cyc = s.cyc := rfl
@[simp] theorem State.snapshot_alarm (sec ns : Nat) : (s.snapshot sec ns).alarm = s.alarm := rfl
@[simp] theorem State.snapshot_osc (sec ns : Nat) : (s.snapshot sec ns).osc = s.osc := rfl
@[simp] theorem State.snapshot_draws (sec ns : Nat) : (s.snapshot sec ns).draws = s.draws := rfl

@[simp] theorem State.bump_pending (p : Fin 13) (f : PortCounters → PortCounters) :
    (s.bump p f).pending = s.pending := rfl
@[simp] theorem State.bump_mem (p : Fin 13) (f : PortCounters → PortCounters) : (s.bump p f).mem = s.mem := rfl
@[simp] theorem State.bump_path (p : Fin 13) (f : PortCounters → PortCounters) : (s.bump p f).path = s.path := rfl
@[simp] theorem State.bump_cmd (p : Fin 13) (f : PortCounters → PortCounters) : (s.bump p f).cmd = s.cmd := rfl
@[simp] theorem State.bump_lanes (p : Fin 13) (f : PortCounters → PortCounters) : (s.bump p f).lanes = s.lanes := rfl
@[simp] theorem State.bump_sm (p : Fin 13) (f : PortCounters → PortCounters) : (s.bump p f).sm = s.sm := rfl
@[simp] theorem State.bump_sw (p : Fin 13) (f : PortCounters → PortCounters) : (s.bump p f).sw = s.sw.bump p f := rfl
@[simp] theorem State.bump_ring (p : Fin 13) (f : PortCounters → PortCounters) : (s.bump p f).ring = s.ring := rfl
@[simp] theorem State.bump_time (p : Fin 13) (f : PortCounters → PortCounters) : (s.bump p f).time = s.time := rfl
@[simp] theorem State.bump_cyc (p : Fin 13) (f : PortCounters → PortCounters) : (s.bump p f).cyc = s.cyc := rfl
@[simp] theorem State.bump_alarm (p : Fin 13) (f : PortCounters → PortCounters) : (s.bump p f).alarm = s.alarm := rfl
@[simp] theorem State.bump_osc (p : Fin 13) (f : PortCounters → PortCounters) : (s.bump p f).osc = s.osc := rfl
@[simp] theorem State.bump_draws (p : Fin 13) (f : PortCounters → PortCounters) : (s.bump p f).draws = s.draws := rfl

@[simp] theorem State.setRx_pending (m : Option RxMove) : (s.setRx m).pending = s.pending := rfl
@[simp] theorem State.setRx_mem (m : Option RxMove) : (s.setRx m).mem = s.mem := rfl
@[simp] theorem State.setRx_path (m : Option RxMove) : (s.setRx m).path = s.path := rfl
@[simp] theorem State.setRx_cmd (m : Option RxMove) : (s.setRx m).cmd = s.cmd := rfl
@[simp] theorem State.setRx_lanes (m : Option RxMove) : (s.setRx m).lanes = s.lanes := rfl
@[simp] theorem State.setRx_sm (m : Option RxMove) : (s.setRx m).sm = s.sm := rfl
@[simp] theorem State.setRx_sw (m : Option RxMove) : (s.setRx m).sw = s.sw := rfl
@[simp] theorem State.setRx_ring (m : Option RxMove) : (s.setRx m).ring = { s.ring with rx := m } := rfl
@[simp] theorem State.setRx_time (m : Option RxMove) : (s.setRx m).time = s.time := rfl
@[simp] theorem State.setRx_cyc (m : Option RxMove) : (s.setRx m).cyc = s.cyc := rfl
@[simp] theorem State.setRx_alarm (m : Option RxMove) : (s.setRx m).alarm = s.alarm := rfl
@[simp] theorem State.setRx_osc (m : Option RxMove) : (s.setRx m).osc = s.osc := rfl
@[simp] theorem State.setRx_draws (m : Option RxMove) : (s.setRx m).draws = s.draws := rfl

@[simp] theorem State.setTx_pending (m : Option TxMove) : (s.setTx m).pending = s.pending := rfl
@[simp] theorem State.setTx_mem (m : Option TxMove) : (s.setTx m).mem = s.mem := rfl
@[simp] theorem State.setTx_path (m : Option TxMove) : (s.setTx m).path = s.path := rfl
@[simp] theorem State.setTx_cmd (m : Option TxMove) : (s.setTx m).cmd = s.cmd := rfl
@[simp] theorem State.setTx_lanes (m : Option TxMove) : (s.setTx m).lanes = s.lanes := rfl
@[simp] theorem State.setTx_sm (m : Option TxMove) : (s.setTx m).sm = s.sm := rfl
@[simp] theorem State.setTx_sw (m : Option TxMove) : (s.setTx m).sw = s.sw := rfl
@[simp] theorem State.setTx_ring (m : Option TxMove) : (s.setTx m).ring = { s.ring with tx := m } := rfl
@[simp] theorem State.setTx_time (m : Option TxMove) : (s.setTx m).time = s.time := rfl
@[simp] theorem State.setTx_cyc (m : Option TxMove) : (s.setTx m).cyc = s.cyc := rfl
@[simp] theorem State.setTx_alarm (m : Option TxMove) : (s.setTx m).alarm = s.alarm := rfl
@[simp] theorem State.setTx_osc (m : Option TxMove) : (s.setTx m).osc = s.osc := rfl
@[simp] theorem State.setTx_draws (m : Option TxMove) : (s.setTx m).draws = s.draws := rfl

@[simp] theorem State.ringCount_pending (f : RingCounters → RingCounters) : (s.ringCount f).pending = s.pending := rfl
@[simp] theorem State.ringCount_mem (f : RingCounters → RingCounters) : (s.ringCount f).mem = s.mem := rfl
@[simp] theorem State.ringCount_path (f : RingCounters → RingCounters) : (s.ringCount f).path = s.path := rfl
@[simp] theorem State.ringCount_cmd (f : RingCounters → RingCounters) : (s.ringCount f).cmd = s.cmd := rfl
@[simp] theorem State.ringCount_lanes (f : RingCounters → RingCounters) : (s.ringCount f).lanes = s.lanes := rfl
@[simp] theorem State.ringCount_sm (f : RingCounters → RingCounters) : (s.ringCount f).sm = s.sm := rfl
@[simp] theorem State.ringCount_sw (f : RingCounters → RingCounters) : (s.ringCount f).sw = s.sw := rfl
@[simp] theorem State.ringCount_ring (f : RingCounters → RingCounters) :
    (s.ringCount f).ring = { s.ring with counters := f s.ring.counters } := rfl
@[simp] theorem State.ringCount_time (f : RingCounters → RingCounters) : (s.ringCount f).time = s.time := rfl
@[simp] theorem State.ringCount_cyc (f : RingCounters → RingCounters) : (s.ringCount f).cyc = s.cyc := rfl
@[simp] theorem State.ringCount_alarm (f : RingCounters → RingCounters) : (s.ringCount f).alarm = s.alarm := rfl
@[simp] theorem State.ringCount_osc (f : RingCounters → RingCounters) : (s.ringCount f).osc = s.osc := rfl
@[simp] theorem State.ringCount_draws (f : RingCounters → RingCounters) : (s.ringCount f).draws = s.draws := rfl

@[simp] theorem State.startTransfer_pending (x : Transfer) : (s.startTransfer x).pending = s.pending := rfl
@[simp] theorem State.startTransfer_mem (x : Transfer) : (s.startTransfer x).mem = s.mem := rfl
@[simp] theorem State.startTransfer_path (x : Transfer) : (s.startTransfer x).path = s.path := rfl
@[simp] theorem State.startTransfer_cmd (x : Transfer) :
    (s.startTransfer x).cmd = { s.cmd with transfer := some x } := rfl
@[simp] theorem State.startTransfer_lanes (x : Transfer) : (s.startTransfer x).lanes = s.lanes := rfl
@[simp] theorem State.startTransfer_sm (x : Transfer) : (s.startTransfer x).sm = s.sm := rfl
@[simp] theorem State.startTransfer_sw (x : Transfer) : (s.startTransfer x).sw = s.sw := rfl
@[simp] theorem State.startTransfer_ring (x : Transfer) : (s.startTransfer x).ring = s.ring := rfl
@[simp] theorem State.startTransfer_time (x : Transfer) : (s.startTransfer x).time = s.time := rfl
@[simp] theorem State.startTransfer_cyc (x : Transfer) : (s.startTransfer x).cyc = s.cyc := rfl
@[simp] theorem State.startTransfer_alarm (x : Transfer) : (s.startTransfer x).alarm = s.alarm := rfl
@[simp] theorem State.startTransfer_osc (x : Transfer) : (s.startTransfer x).osc = s.osc := rfl
@[simp] theorem State.startTransfer_draws (x : Transfer) : (s.startTransfer x).draws = s.draws := rfl

@[simp] theorem State.setPoll_pending (a : Addr) (ws : List Word) (w : PollWork) :
    (s.setPoll a ws w).pending = s.pending := rfl
@[simp] theorem State.setPoll_mem (a : Addr) (ws : List Word) (w : PollWork) : (s.setPoll a ws w).mem = s.mem := rfl
@[simp] theorem State.setPoll_path (a : Addr) (ws : List Word) (w : PollWork) :
    (s.setPoll a ws w).path = s.path := rfl
@[simp] theorem State.setPoll_cmd (a : Addr) (ws : List Word) (w : PollWork) : (s.setPoll a ws w).cmd = s.cmd := rfl
@[simp] theorem State.setPoll_lanes (a : Addr) (ws : List Word) (w : PollWork) :
    (s.setPoll a ws w).lanes = s.lanes := rfl
@[simp] theorem State.setPoll_sm (a : Addr) (ws : List Word) (w : PollWork) : (s.setPoll a ws w).sm = s.sm := rfl
@[simp] theorem State.setPoll_sw (a : Addr) (ws : List Word) (w : PollWork) : (s.setPoll a ws w).sw = s.sw := rfl
@[simp] theorem State.setPoll_ring (a : Addr) (ws : List Word) (w : PollWork) :
    (s.setPoll a ws w).ring = s.ring := rfl
@[simp] theorem State.setPoll_time (a : Addr) (ws : List Word) (w : PollWork) :
    (s.setPoll a ws w).time = s.time := rfl
@[simp] theorem State.setPoll_cyc (a : Addr) (ws : List Word) (w : PollWork) :
    (s.setPoll a ws w).cyc = { s.cyc with entry := some ⟨a, .run ws (.poll w)⟩ } := rfl
@[simp] theorem State.setPoll_alarm (a : Addr) (ws : List Word) (w : PollWork) :
    (s.setPoll a ws w).alarm = s.alarm := rfl
@[simp] theorem State.setPoll_osc (a : Addr) (ws : List Word) (w : PollWork) : (s.setPoll a ws w).osc = s.osc := rfl
@[simp] theorem State.setPoll_draws (a : Addr) (ws : List Word) (w : PollWork) :
    (s.setPoll a ws w).draws = s.draws := rfl

@[simp] theorem State.hold_pending (w : Requester) (p : Purpose) (op : DmaOp) :
    (s.hold w p op).pending = s.pending := rfl
@[simp] theorem State.hold_mem (w : Requester) (p : Purpose) (op : DmaOp) : (s.hold w p op).mem = s.mem := rfl
@[simp] theorem State.hold_path (w : Requester) (p : Purpose) (op : DmaOp) :
    (s.hold w p op).path = { s.path with holder := some (.word ⟨w, p, op⟩), passedOver := 0, lastServed := w } := rfl
@[simp] theorem State.hold_cmd (w : Requester) (p : Purpose) (op : DmaOp) : (s.hold w p op).cmd = s.cmd := rfl
@[simp] theorem State.hold_lanes (w : Requester) (p : Purpose) (op : DmaOp) : (s.hold w p op).lanes = s.lanes := rfl
@[simp] theorem State.hold_sm (w : Requester) (p : Purpose) (op : DmaOp) : (s.hold w p op).sm = s.sm := rfl
@[simp] theorem State.hold_sw (w : Requester) (p : Purpose) (op : DmaOp) : (s.hold w p op).sw = s.sw := rfl
@[simp] theorem State.hold_ring (w : Requester) (p : Purpose) (op : DmaOp) : (s.hold w p op).ring = s.ring := rfl
@[simp] theorem State.hold_time (w : Requester) (p : Purpose) (op : DmaOp) : (s.hold w p op).time = s.time := rfl
@[simp] theorem State.hold_cyc (w : Requester) (p : Purpose) (op : DmaOp) : (s.hold w p op).cyc = s.cyc := rfl
@[simp] theorem State.hold_alarm (w : Requester) (p : Purpose) (op : DmaOp) : (s.hold w p op).alarm = s.alarm := rfl
@[simp] theorem State.hold_osc (w : Requester) (p : Purpose) (op : DmaOp) : (s.hold w p op).osc = s.osc := rfl
@[simp] theorem State.hold_draws (w : Requester) (p : Purpose) (op : DmaOp) : (s.hold w p op).draws = s.draws := rfl

end Sys2Proof.Machine
end

