-- ==== Sys2Proof/Tests/Slice0.lean ====
section
/-! SUPPORT. Tests: ill-formed terms that WellFormed refuses, one-step tests with results taken from the manual's tables
and worked examples, and for every obligation with hypotheses a state and operands that meet them, clause by clause. -/

namespace Sys2Proof.Tests

open Sys2Proof Sys2Proof.Machine

/-! ## Well-formedness -/

/-- A full write of a control word is a row of its own. -/
theorem test_wf_plain_control : (Instr.plainWrite 0xFFF10 0 0xF).wellFormed = false := by decide
theorem test_wf_partial_full : (Instr.partialControlWrite 0x10 0 0xF).wellFormed = false := by decide
theorem test_wf_partial_offset : (Instr.partialControlWrite 0x0F 0 0x3).wellFormed = false := by decide
theorem test_wf_guarded_control : (Instr.guardedWrite 0xFFF12 0 0xF).wellFormed = false := by decide
theorem test_wf_snooped_page : (Instr.snoopedRingWrite 0xFFF00 0 0xF).wellFormed = false := by decide
theorem test_wf_unknown_known : (Instr.unknownCommand 0x0E 0 0 []).wellFormed = false := by decide
theorem test_wf_params : (Instr.setDiscipline 6 0 (List.replicate 15 0)).wellFormed = false := by decide
theorem test_wf_periods : (Instr.oscillatorPeriod 0).wellFormed = false := by decide
theorem test_wf_good : (Instr.loadSetup 2 0 [1, 0x100]).wellFormed = true := by decide

/-! ## Worked examples of the manual -/

/-- 2.7, worked example: the group image overlaps the port image, so the failing item is word 8. -/
theorem test_setup_overlap :
    (Setup.ofWords [0x800, 16, 0x840, 16, 2, 0x880, 32, 0x900, 0x960, 0xA00, 0xB00, 20, 0]).fail = some 8 := by decide

/-- 2.7, worked example: with 00968h none overlap. -/
theorem test_setup_passes :
    (Setup.ofWords [0x800, 16, 0x840, 16, 2, 0x880, 32, 0x900, 0x968, 0xA00, 0xB00, 20, 0]).fail = none := by decide

/-- 7.4, worked example: the loop arithmetic, three rows. -/
def loopAt (integral e : Int) : Int × Int :=
  let t := ({ TimeBase.cold with integral := integral, state := .acquiring } : TimeBase).correct e
  (t.integral, t.trim)
theorem test_loop_positive : loopAt 3000 1200 = (4200, -365) := by decide
theorem test_loop_negative : loopAt 4200 (-600) = (3600, 94) := by decide
theorem test_loop_clamps : loopAt 7990000 90000 = (8000000, -50000) := by decide

/-- 10.3, worked example: the latching door point, scan by scan. -/
def door : Point := { Point.cold with cfg := { PointCfg.cold with enabled := true, which := 3, severity := .minor
                                                                  raiseCount := 3, clearCount := 2, latching := true
                                                                  whenOpen := true } }
def doorAfter (seen : List Bool) : PointState × Nat × Bool :=
  let p := seen.foldl Point.observe door
  (p.state, p.count, p.sourceCleared)
theorem test_door_returns : doorAfter [true, true, false] = (.clear, 0, false) := by decide
theorem test_door_raised : doorAfter [true, true, false, true, true, true] = (.raised, 0, false) := by decide
theorem test_door_counts : doorAfter [true, true, true, false, true, false] = (.raised, 1, false) := by decide
theorem test_door_cleared : doorAfter [true, true, true, false, false] = (.raised, 0, true) := by decide

/-! ## States for the tests below -/

/-- The machine after reset with its hub in the given state. -/
def hub (h : HubState) : State := { State.reset with cmd := { State.reset.cmd with hub := h } }

/-- … and a GH412 word holding the port. -/
def holding (h : HubState) (w : Requester) (p : Purpose) (op : DmaOp) : State :=
  { hub h with path := { State.reset.path with holder := some (.word ⟨w, p, op⟩) } }

def zones : ZoneSet :=
  ⟨⟨0x1000, 16⟩, ⟨0x2000, 16⟩, ⟨0x3000, 64⟩, ⟨0x4000, 104⟩, ⟨0x5000, 128⟩, ⟨0x6000, 256⟩, ⟨0x7000, 8⟩⟩

/-- IN_SERVICE with the zone set above. -/
def serving : State := { hub .inService with path := { State.reset.path with zones := some zones } }

/-- A state with slot 1's entry replaced. -/
def slot0 (h : HubState) (e : SlotEntry) : State := (hub h).setSlot 0 e

def entry (st : SlotState) : SlotEntry := { SlotEntry.cold with state := st }
def provisioned (e : SlotEntry) : SlotEntry := { e with cfg := { e.cfg with provisioned := true }, latch := true }

/-- A state with slot 1's lane A replaced. -/
def lane0 (s : State) (l : LanePort) : State := s.setLane 0 .a l

/-- The next state of an event, or the state itself. -/
def after (s : State) (c : Instr) : State := match exec c s with | .next t => t | _ => s

theorem quiet_hub (h : HubState) : (hub h).busQuiet := ⟨rfl, rfl⟩
theorem free_hub (h : HubState) : (hub h).portFree := ⟨⟨rfl, rfl⟩, rfl, Nat.zero_lt_succ 15⟩
theorem takes_hub (h : HubState) (k : h.refusesAll = false) : (hub h).takesCommand := ⟨free_hub h, rfl, rfl, rfl, k⟩
theorem dark_slot0 (h : HubState) (e : SlotEntry) (k : e.delayA.valid = false) (l : e.delayB.valid = false) :
    (slot0 h e).slotDark 0 := ⟨fun p => by cases p <;> exact LaneState.noConfusion, k, l⟩

/-! ## One step each, from the manual's tables -/

/-- R14: with the controller's own access on the bus, its next one is not yet made and CWAIT stays low. -/
theorem test_next_access_later :
    (fun t : State => (t.cwait, t.path.line)) (after { serving with path := { serving.path with
      holder := some (.controller ⟨.read 5, .read⟩) } } (.controllerRead 6)) = (false, [.read 6]) := by decide
/-- 1.5, worked example in chapter 1, steps 1 and 3: a guarded write changes no word, a snooped one does. -/
theorem test_guarded : Memory.readWord (after serving (.guardedWrite 0x3010 5 0xF)).mem 0x3010 = 0 := by decide
theorem test_snooped : Memory.readWord (after serving (.snoopedRingWrite 0x100C 5 0xF)).mem 0x100C = 5 := by decide
/-- R1 after R2: two of four bytes written. -/
theorem test_partial : Memory.readWord (after serving (.partialControlWrite 0x11 0xAABBCCDD 0x3)).mem 0xFFF11 = 0xCCDD := by
  decide
/-- R9: a partial control write that has to wait is counted as it arrives. -/
theorem test_partial_arrival : (after (holding .inService .alarm .log (.write 0x3000 7))
    (.partialControlWrite 0x12 0 0)).path.partialCount = 1 := by decide
/-- 10.4, worked example, steps 5, 7 and 8. -/
def logFull (consumer producer : Nat) : State :=
  { serving with alarm := { serving.alarm with logSize := 16, consumer := consumer, producer := producer } }
theorem test_consumer_taken : (after (logFull 0 15) (.consumerIndexWrite 4)).alarm.consumer = 4 := by decide
theorem test_consumer_large : (after (logFull 4 1) (.consumerIndexWrite 20)).alarm.consumer = 4 := by decide
theorem test_consumer_outside : (after (logFull 4 1) (.consumerIndexWrite 3)).alarm.ignored = 1 := by decide
/-- R59: the debounce is 50 ms. -/
theorem test_presence : ((after (hub .inService) (.presenceArrival 11)).slot 11).timer = some 5000000 := by decide
/-- R114: ten nanoseconds a period. -/
theorem test_period : (after (hub .carrying) (.oscillatorPeriod 7)).time.ns = 70 := by decide
/-- R17, R21: an unknown command in UNCONFIGURED. -/
theorem test_unknown : (after State.reset (.unknownCommand 0x55 0 0 [])).cmd.record.result = .refusedUnknown := by decide
/-- R21, 2.3: RING_START is allowed in IN_SERVICE only. -/
theorem test_ringStart : (after (hub .carrying) (.ringStart 0 0 [])).cmd.record.result = .refusedState := by decide

/-! ## Witnesses: for each obligation with hypotheses, states and operands that meet them, clause by clause -/

theorem witness_StepTakesFront :
    (∃ s : State, s.pending = [.alarmScan, .ppsInEdge]) ∧ State.reset.pending = [] :=
  ⟨⟨{ State.reset with pending := [.alarmScan, .ppsInEdge] }, rfl⟩, rfl⟩

theorem inRange_reset : State.reset.time.inRange := ⟨by decide, by decide, by decide, by decide⟩

/-- The invariants' own premises hold at reset, and a step from there answers. -/
def opened : State := { hub .inService with pending := [.contactLevelChange 7 true] }
theorem witness_invariants :
    Memory.WF opened.mem ∧ opened.time.inRange ∧ opened.sw.poolKept ∧ opened.powerFollows ∧ opened.transferFits ∧
      opened.queuesFollow ∧ opened.pointsFollow ∧ opened.pollsFollow ∧ ∃ t, step opened = .next t := by
  refine ⟨(by decide : Memory.WF []), ⟨by decide, by decide, by decide, by decide⟩,
    ⟨by decide, by decide, (fun f h => nomatch h)⟩, ?_, ⟨(fun h => nomatch h), (fun _ _ h => nomatch h), (fun _ _ h => nomatch h)⟩,
    ⟨?_, by decide, (fun h => HubState.noConfusion (h.elim id (fun g => nomatch g)))⟩, ?_, (fun _ h => nomatch h), _, rfl⟩
  · exact fun i => ⟨by revert i; decide, fun p => by cases p <;> revert i <;> decide⟩
  · exact fun i => .inr (.inr fun c => by cases c <;> revert i <;> decide)
  · exact fun k => ⟨by revert k; decide, by revert k; decide⟩
theorem witness_RelaysFollowPoints :
    State.reset.transferFits ∧ State.reset.relaysFollow ∧ step State.reset = .next State.reset := by
  refine ⟨⟨(fun h => nomatch h), (fun _ _ h => nomatch h), (fun _ _ h => nomatch h)⟩, ⟨⟨fun h => Bool.noConfusion h, ?_⟩, ⟨fun h => Bool.noConfusion h, ?_⟩⟩, rfl⟩
  · exact fun h => by rcases h.1 with h | h | h <;> exact HubState.noConfusion h
  · exact fun h => by rcases h.1 with h | h | h <;> exact HubState.noConfusion h

/-- No word left to rewrite. -/
def still : State := { State.reset with cmd := { State.reset.cmd with rewrite := [] } }
theorem witness_PortNeverIdle :
    ∃ t, exec (.contactLevelChange 0 true) still = .next t ∧ t.path.holder = none := ⟨_, rfl, rfl⟩

/-- The port held by a controller access. -/
def holdingOwn (c : Classed) : State :=
  { State.reset with path := { State.reset.path with holder := some (.controller c) } }

theorem witness_AccessAnsweredOrWaits :
    State.reset.portFree ∧
    (let s := holding .inService .alarm .log (.write 0x3000 7)
     s.busQuiet ∧ s.path.holder = some (.word ⟨.alarm, .log, .write 0x3000 7⟩) ∧ s.classify 0xFFEFF 0xF ≠ .guarded) ∧
    ((holdingOwn ⟨.read 5, .read⟩).path.waiting = none ∧
      (holdingOwn ⟨.read 5, .read⟩).path.holder = some (.controller ⟨.read 5, .read⟩)) ∧
    (let s := holding .inService .command (.status 0x5B false) (.write 0xFFF5B 7)
     let u := { s with path := { s.path with waiting := some ⟨.read 0, .read⟩, passedOver := 15 } }
     u.path.waiting = some ⟨.read 0, .read⟩ ∧ u.path.passedOver < 16 ∧
      u.path.holder = some (.word ⟨.command, .status 0x5B false, .write 0xFFF5B 7⟩)) ∧
    ((holdingOwn ⟨.read 5, .read⟩).busQuiet ∧ (holdingOwn ⟨.write 5 7 0x3, .plain⟩).busQuiet) :=
  ⟨free_hub .unconfigured, ⟨⟨rfl, rfl⟩, rfl, by decide⟩, ⟨rfl, rfl⟩, ⟨rfl, by decide, rfl⟩, ⟨rfl, rfl⟩, rfl, rfl⟩

/-- The last word below the control page with the guard off and on, and control page offsets 0Fh, 1Fh, 5Ch and 5Bh. -/
theorem witness_PlainAndPartialWritesStore :
    (State.reset.portFree ∧ serving.portFree ∧ Memory.WF serving.mem ∧ (0xFFEFF : Addr).toNat < Config.controlPage ∧
      State.reset.guard = false ∧ serving.path.zones = some zones ∧ (∀ x ∈ zones.toList, x.has 0xFFEFF = false) ∧
      (∀ o ∈ [0x0F, 0x13, 0x1F, 0x5C], controlWordOffset o = false ∧ (o < 0x20 ∨ 0x5B < o)) ∧
      controlWordOffset 0x5B = false) ∧
    ∀ o ∈ [0x00, 0x0E, 0x10, 0x12], controlWordOffset o = true ∧ (0x7 : ByteEnables) ≠ 0xF :=
  ⟨⟨free_hub .unconfigured, free_hub .inService, (by decide : Memory.WF []), by decide, rfl, rfl, by decide, by decide, by decide⟩,
    by decide⟩

/-- RING_START refused changes words 20h and 22h; after a period the first word of the page stands at the port. -/
theorem witness_StatusWordsRewritten :
    (let s := hub .carrying
     let t := after s (.ringStart 0 0 [])
     rowAwaits (.ringStart 0 0 []) = false ∧ s.path.holder = none ∧ s.path.line = [] ∧
      exec (.ringStart 0 0 []) s = .next t ∧ ∀ o ∈ [0x20, 0x22], t.statusWord o ≠ s.statusWord o) ∧
    (∃ w fin op, (after State.reset (.oscillatorPeriod 1)).path.holder = some (.word ⟨w, .status 0x20 fin, op⟩)) ∧
    State.reset.time.inRange ∧
    (let s := after (hub .carrying) (.ringStart 0 0 [])
     s.cmd.record.lastCode < 256 ∧ s.cmd.record.fail.number < 256 ∧ s.cmd.record.fail.table < 8 ∧
      s.cmd.record.refusals < 65536 ∧ s.cmd.record.lastOffset < 16 ∧ s.alarm.producer < 256 ∧ s.alarm.overflow < 65536 ∧
      -500000000 ≤ s.time.lastError ∧ s.time.lastError < 500000000) :=
  ⟨⟨rfl, rfl, rfl, rfl, by decide⟩, ⟨_, _, _, rfl⟩, inRange_reset, by decide⟩

/-- The first and the last guarded word of the page, and the ends of the log zone. -/
theorem witness_GuardedWriteDiscarded :
    serving.busQuiet ∧ (∀ c, serving.path.holder ≠ some (.controller c)) ∧
      (∀ c, (holding .inService .alarm .log (.write 0x3000 7)).path.holder ≠ some (.controller c)) ∧
      serving.guard = true ∧ serving.path.zones = some zones ∧
      (Config.controlPage + 0x20 ≤ (0xFFF20 : Addr).toNat ∧ (0xFFF5B : Addr).toNat ≤ Config.controlPage + 0x5B) ∧
      ∀ a ∈ [0x3000, 0x303F], zones.rx.has a = false ∧ zones.tx.has a = false ∧ zones.log.has a = true :=
  ⟨⟨rfl, rfl⟩, (fun _ h => nomatch h), (fun _ h => nomatch h), rfl, rfl, by decide, by decide⟩

def someMove (phase : RxPhase) : RxMove :=
  { id := 0, len := 4, src := 1, cls := .bulk, phase := phase, hold := some 500, rewalk := false }
def running (s : State) : State := { s with ring := { s.ring with state := .running } }
def receiving (s : State) (m : RxMove) : State := { running s with ring := { (running s).ring with rx := some m } }
def sending (s : State) (m : TxMove) : State := { running s with ring := { (running s).ring with tx := some m } }

theorem witness_SnoopedWriteHandedOver :
    (∀ s ∈ [serving, running serving, receiving serving (someMove .held)], s.path.holder = none ∧ s.guard = true ∧
        s.path.passedOver = 0 ∧ s.path.waiting = none ∧ s.path.line = [] ∧ s.path.zones = some zones) ∧
      serving.ring.state = .stopped ∧
      (zones.rx.has 0x100F = true ∧ zones.tx.has 0x2000 = true ∧ zones.rx.has 0x2000 = false) ∧
      ((running serving).ring.state = .running ∧ (running serving).ring.tx = none ∧ (running serving).ring.exam = none) ∧
      (receiving serving (someMove .held)).ring.rx = some (someMove .held) ∧ (someMove .held).phase = .held :=
  ⟨by decide, rfl, by decide, ⟨rfl, rfl, rfl⟩, rfl, rfl⟩

theorem witness_PortWordPerformed :
    (let s := holding .inService .command (.status 0x22 true) (.write 0xFFF22 1)
     s.busQuiet ∧ s.path.holder = some (.word ⟨.command, .status 0x22 true, .write 0xFFF22 1⟩)) ∧
    (let s := holding .inService .command .image (.write 0x4008 1)
     s.busQuiet ∧ s.path.holder = some (.word ⟨.command, .image, .write 0x4008 1⟩)) := ⟨⟨⟨rfl, rfl⟩, rfl⟩, ⟨rfl, rfl⟩, rfl⟩

theorem witness_ArbiterPassesOverAtMostSixteen :
    (State.reset.portFree ∧ State.reset.fill.cmd.place.isSome = true) ∧
    (let s := { State.reset with path := { State.reset.path with passedOver := 16 } }
     s.busQuiet ∧ s.path.holder = none ∧ s.path.passedOver = 16 ∧ s.fill.cmd.place.isSome = true) ∧
    (let s := holdingOwn ⟨.read 5, .read⟩
     let u := { s with path := { s.path with line := [.read 0xFFEFF], passedOver := 15 } }
     u.path.holder = some (.controller ⟨.read 5, .read⟩) ∧ u.path.waiting = none ∧ u.path.line = [.read 0xFFEFF] ∧
      (u.classed (.read 0xFFEFF)).cls ≠ .guarded ∧ u.path.passedOver < 16 ∧ u.release.fill.cmd.place.isSome = true) ∧
    (still.fill.cmd.place = none ∧ still.fill.ring.place = none ∧ still.fill.cycleWord = none ∧ still.fill.alarm.queue = []) ∧
    (opened.path.passedOver ≤ 16 ∧ ∃ t, step opened = .next t) :=
  ⟨⟨free_hub .unconfigured, by decide⟩, ⟨⟨rfl, rfl⟩, rfl, rfl, by decide⟩, ⟨rfl, rfl, rfl, by decide, by decide, by decide⟩, by decide, by decide, _, rfl⟩

theorem witness_ControlWordsTaken : (hub .inService).portFree ∧ State.reset.portFree :=
  ⟨free_hub .inService, free_hub .unconfigured⟩

def collecting (o : OpenCmd) (s : State) : State := { s with cmd := { s.cmd with collection := .collecting o } }
def executing (o : OpenCmd) (s : State) : State := { s with cmd := { s.cmd with collection := .executing o } }

/-- The first parameter of two, the thirteenth of fourteen, and offset 0Eh with no command collecting. -/
theorem witness_ParameterLatchedOrIgnored :
    (let o : OpenCmd := ⟨.loadSetup, 2, []⟩
     let s := collecting o (hub .unconfigured)
     s.portFree ∧ s.cmd.collection = .collecting o ∧ (0 : Fin 14).val = o.params.length ∧ o.params.length + 1 ≠ o.count) ∧
    (∀ o : OpenCmd, (hub .inService).cmd.collection = .collecting o → (13 : Fin 14).val ≠ o.params.length) :=
  ⟨⟨⟨⟨rfl, rfl⟩, rfl, Nat.zero_lt_succ 15⟩, rfl, rfl, by decide⟩, fun _ h => nomatch h⟩

theorem witness_CommandWordsRefused :
    (commandOf (.ringStart 0 0 []) = some (0x06, 0, 0, []) ∧
      commandOf (.unknownCommand 0x0F 0 0 []) = some (0x0F, 0, 0, [])) ∧
    ((executing ⟨.shutdown, 0, []⟩ (hub .inService)).portFree ∧ HubState.shuttingDown.refusesAll = true ∧
      (HubState.loading .load).refusesAll = true) ∧
    ((hub .inService).takesCommand ∧ catalogued 0x00 = false ∧ catalogued 0x0F = false) ∧
    (Command.code .ringStart = (0x06 : BitVec 8).toNat ∧ Command.allowsCount .ringStart 1 = false ∧
      Command.allowsCount .setDiscipline 7 = false) :=
  ⟨⟨rfl, rfl⟩, ⟨⟨⟨rfl, rfl⟩, rfl, Nat.zero_lt_succ 15⟩, rfl, rfl⟩, ⟨takes_hub _ rfl, by decide, by decide⟩, by decide⟩

theorem witness_CommandOpeningRules :
    (commandOf (.cycleStart 1 0 [0x9000]) = some (0x08, 1, 0, [0x9000]) ∧ (hub .carrying).takesCommand ∧
      Command.code .cycleStart = (0x08 : BitVec 8).toNat ∧ Command.allowsCount .cycleStart 1 = true ∧
      Command.allowedIn .cycleStart .carrying = false) ∧
    (let o : OpenCmd := ⟨.loadSetup, 2, [1]⟩
     let s := collecting o (hub .inService)
     commandOf (.setTime 1 0 []) = some (0x05, 1, 0, []) ∧ s.portFree ∧ s.cmd.hub.refusesAll = false ∧
      s.cmd.transfer = none ∧ s.cmd.collection = .collecting o ∧ o.cmd ≠ .setDiscipline ∧
      Command.code .setTime = (0x05 : BitVec 8).toNat ∧ Command.allowsCount .setTime 1 = true) ∧
    (let o : OpenCmd := ⟨.setDiscipline, 6, [16]⟩
     let s := collecting o (hub .inService)
     s.portFree ∧ s.cmd.hub.refusesAll = false ∧ s.cmd.transfer = none ∧ s.cmd.collection = .collecting o ∧
      o.cmd = .setDiscipline ∧ s.time.state ≠ .holdover) :=
  ⟨⟨rfl, takes_hub _ rfl, rfl, rfl, rfl⟩, ⟨rfl, ⟨⟨rfl, rfl⟩, rfl, Nat.zero_lt_succ 15⟩, rfl, rfl, rfl, by decide, rfl, rfl⟩,
    ⟨⟨rfl, rfl⟩, rfl, Nat.zero_lt_succ 15⟩, rfl, rfl, rfl, rfl, by decide⟩

/-- The highest address of a setup block, and the one after it. -/
theorem witness_LoadSetupTaken :
    (hub .unconfigured).takesCommand ∧ (0xFFEE0 : Word).toNat ≤ 0xFFEE0 ∧ 0xFFEE0 < (0xFFEE1 : Word).toNat ∧
      (hub .carrying).takesCommand ∧ (∀ i, ((hub .carrying).slot i).state ≠ .seated) ∧
      (3 : Word) ≠ 1 ∧ (3 : Word) ≠ 2 ∧ (hub .inService).takesCommand :=
  ⟨takes_hub _ rfl, by decide, by decide, takes_hub _ rfl, by decide, by decide, by decide, takes_hub _ rfl⟩

theorem witness_ShutdownTaken :
    ((hub .inService).takesCommand ∧ (∀ i, ((hub .inService).slot i).state = .empty) ∧
      (hub .inService).ring.state = .stopped ∧ (hub .inService).alarm.queue = [] ∧ (hub .inService).alarm.headDone = 0) ∧
    (let o : OpenCmd := ⟨.shutdown, 0, []⟩
     let s := executing o (hub .shuttingDown)
     s.busQuiet ∧ (∀ i, (s.slot i).state = .empty) ∧ s.ring.state = .stopped ∧ s.cyc.state = .idle ∧
      s.cmd.collection = .executing o ∧ (∀ k, (s.point k).state = .clear) ∧ ∀ k, (s.ref k).qualified = false) :=
  ⟨⟨takes_hub _ rfl, by decide, rfl, rfl, rfl⟩, ⟨rfl, rfl⟩, by decide, rfl, rfl, rfl, by decide, by decide⟩

/-- The highest address for 192 words, the next one, one in the log zone; entry 12 of table PORT, and entry 13. -/
theorem witness_SnapshotAndUpdateBegin :
    serving.takesCommand ∧ 0xFFE40 + 192 ≤ 0x100000 ∧ 0x100000 < 0xFFF41 + 192 ∧
      serving.path.touchesKept 0x8000 192 = false ∧ serving.path.touchesKept 0x2F41 192 = true ∧
      Table.code .port = (1 : Word).toNat ∧ (12 : Word).toNat < Table.entries .port ∧ Table.entries .port ≤ (13 : Word).toNat ∧
      serving.path.touchesKept 0x8000 (Table.words .port) = false ∧ (∀ k : Table, k.code ≠ (5 : Word).toNat) :=
  ⟨⟨free_hub .inService, rfl, rfl, rfl, rfl⟩, by decide, by decide, by decide, by decide, by decide, by decide, by decide, by decide,
    fun k => by cases k <;> decide⟩

theorem witness_TimeCommandsTaken :
    (hub .inService).takesCommand ∧ ([16, 15] : List Word).length = (2 : BitVec 4).toNat ∧ (6 : BitVec 4).toNat ≤ 6 ∧
      (hub .inService).time.state ≠ .holdover ∧
      (let s := { hub .inService with time := { State.reset.time with state := .holdover, holdover := 61 } }
       s.takesCommand ∧ s.time.state = .holdover ∧ (∀ i, 3 ≤ (s.slot i).cfg.gate) ∧ s.time.beyond = false ∧
        (s.time.disc.replaced [0, 0, 0, 0, 0, 60]).holdoverLimit < s.time.holdover ∧
        s.time.holdover ≤ (s.time.disc.replaced []).holdoverLimit) :=
  ⟨takes_hub _ rfl, rfl, by decide, by decide, ⟨⟨⟨rfl, rfl⟩, rfl, Nat.zero_lt_succ 15⟩, rfl, rfl, rfl, rfl⟩, by decide⟩

def walking (e : EntryPhase) (s : State) : State :=
  { s with cyc := { s.cyc with state := .running, entry := some ⟨0x9000, e⟩ } }

/-- The last word address an entry may stand at, the next multiple of 8, an odd one, and one inside the log zone. -/
theorem witness_CycleCommandsTaken :
    (serving.takesCommand ∧ serving.cyc.state = .idle ∧ (0xFFEF8 : Word).toNat % 8 = 0 ∧
      serving.path.touchesKept 0xFFEF8 8 = false) ∧
    (0x100000 ≤ (0x100000 : Word).toNat ∧ (0x9004 : Word).toNat % 8 ≠ 0 ∧ serving.path.touchesKept 0x3038 8 = true) ∧
    (∀ e : EntryPhase, let s := walking e serving
      s.takesCommand ∧ s.cyc.state = .running ∧ s.cyc.entry = some ⟨0x9000, e⟩) :=
  ⟨⟨⟨free_hub .inService, rfl, rfl, rfl, rfl⟩, rfl, by decide, by decide⟩, by decide,
    fun _ => ⟨⟨⟨⟨rfl, rfl⟩, rfl, Nat.zero_lt_succ 15⟩, rfl, rfl, rfl, rfl⟩, rfl, rfl⟩⟩

/-- A still slot: nothing queued, no work, nothing that names it. -/
theorem still_slot0 (h : HubState) (e : SlotEntry) : (slot0 h e).slotStill 0 :=
  ⟨fun p => by cases p <;> rfl, fun c => by cases c <;> rfl, rfl, rfl,
    fun k => by show ((Vector.replicate 4 RefEntry.cold)[k.val]).names 0 = false; rw [Vector.getElem_replicate]; rfl,
    fun k => by
      show (((Vector.replicate 64 Point.cold)[k.val]).cfg.kind.isCard && _) = false
      rw [Vector.getElem_replicate]; rfl⟩

theorem takes_slot0 (e : SlotEntry) : (slot0 .inService e).takesCommand :=
  ⟨⟨⟨rfl, rfl⟩, rfl, Nat.zero_lt_succ 15⟩, rfl, rfl, rfl, rfl⟩

theorem witness_SlotCommandsTaken :
    ((0 : Word).toNat = 0 ∧ 12 < (13 : Word).toNat) ∧
    (let s := slot0 .inService (entry .admitted)
     s.takesCommand ∧ s.cmd.hub = .inService ∧ s.slotStill 0 ∧ (s.slot 0).state = .admitted) ∧
    (let s := slot0 .inService (entry .lockedOut)
     s.takesCommand ∧ s.slotDark 0 ∧ (s.slot 0).state = .lockedOut ∧ (s.slot 0).cfg.provisioned = false) ∧
    (let s := slot0 .inService (provisioned (entry .lockedOut))
     s.takesCommand ∧ s.slotDark 0 ∧ (s.slot 0).state = .lockedOut ∧ (s.slot 0).cfg.provisioned = true ∧
      (s.slot 0).latch = true ∧ (s.slot 0).pgood = false) ∧
    (let s := slot0 .inService (provisioned (entry .rejected))
     s.takesCommand ∧ s.slotDark 0 ∧ (s.slot 0).state = .rejected ∧ (s.slot 0).cfg.provisioned = true ∧
      (s.slot 0).latch = true ∧ (s.slot 0).pgood = false) :=
  ⟨by decide, ⟨takes_slot0 _, rfl, still_slot0 _ _, rfl⟩, ⟨takes_slot0 _, dark_slot0 _ _ rfl rfl, rfl, rfl⟩,
    ⟨takes_slot0 _, dark_slot0 _ _ rfl rfl, rfl, rfl, rfl, rfl⟩, takes_slot0 _, dark_slot0 _ _ rfl rfl, rfl, rfl, rfl, rfl⟩

def latched (masked : Bool) : State :=
  { hub .inService with alarm := { State.reset.alarm with
      logSize := 16
      points := vset State.reset.alarm.points 63 { Point.cold with
        state := .raised, sourceCleared := true, cfg := { PointCfg.cold with latching := true, masked := masked } } } }
theorem takes_latched (m : Bool) : (latched m).takesCommand := ⟨⟨⟨rfl, rfl⟩, rfl, Nat.zero_lt_succ 15⟩, rfl, rfl, rfl, rfl⟩

theorem witness_AlarmResetTaken :
    (64 ≤ (64 : Word).toNat ∧ (254 : Word).toNat ≠ 255) ∧
    ((latched true).takesCommand ∧ ((latched true).point 63).cfg.latching = true ∧ ((latched true).point 63).state = .raised ∧
      ((latched true).point 63).sourceCleared = true ∧ ((latched true).point 63).cfg.masked = true ∧
      ((latched true).point 0).cfg.latching = false) ∧
    ((latched false).takesCommand ∧ ((latched false).point 63).cfg.masked = false ∧ (latched false).alarm.overflow = 0 ∧
      1 ≤ (latched false).alarm.freePositions) :=
  ⟨by decide, ⟨takes_latched _, by decide⟩, takes_latched _, by decide⟩

def stored (refs : Nat) (loading : Bool) : Stored :=
  { id := 0, header := headerBytes .data 1 0 .bulk 1, payload := [0x5A], blocks := 1, refs := refs, loading := loading }

/-! ### Transfers -/

def block (group : Word) : List Word := [0x800, 16, 0x840, 16, 2, 0x880, 32, 0x900, group, 0xA00, 0xB00, 20]

def transferring (h : HubState) (t : Transfer) (op : DmaOp) : State :=
  let s := holding h .command .transfer op
  { s with cmd := { s.cmd with transfer := some t, setup := some (Setup.ofWords (block 0x968)) } }
theorem quiet_transferring (h : HubState) (t : Transfer) (op : DmaOp) : (transferring h t op).busQuiet := ⟨rfl, rfl⟩

theorem witness_SetupBlockRead :
    (∃ b : Setup, b.fail = none) ∧
    (let s := transferring (.loading .load) (.setup 0x100 (block 0x968)) (.read 0x10C)
     s.busQuiet ∧ s.path.holder = some (.word ⟨.command, .transfer, .read 0x10C⟩) ∧
      s.cmd.transfer = some (.setup 0x100 (block 0x968)) ∧ (block 0x968).length = 12 ∧ s.cmd.hub = .loading .load ∧
      (Setup.ofWords (block 0x968 ++ [Memory.readWord s.mem 0x10C])).fail = none) ∧
    (let s := transferring (.loading .adopt) (.setup 0x100 (block 0x960)) (.read 0x10C)
     s.busQuiet ∧ s.cmd.hub = .loading .adopt ∧ (block 0x960).length = 12 ∧ (∀ i, (s.slot i).state ≠ .seated) ∧
      (Setup.ofWords (block 0x960 ++ [Memory.readWord s.mem 0x10C])).fail = some 8) :=
  ⟨⟨_, test_setup_passes⟩, ⟨⟨rfl, rfl⟩, rfl, rfl, rfl, rfl, by decide⟩, ⟨rfl, rfl⟩, rfl, rfl, by decide, by decide⟩

/-- A transfer with nothing else to do for the port. -/
def alone (t : Transfer) (op : DmaOp) : State :=
  let s := transferring .inService t op
  { s with path := { s.path with zones := some zones }, cmd := { s.cmd with rewrite := [] } }

theorem alone_onlyTransfers (t : Transfer) (op : DmaOp) : (alone t op).onlyTransfers :=
  ⟨⟨rfl, rfl⟩, rfl, rfl, rfl, rfl, fun x => by cases x <;> rfl, rfl, rfl⟩

/-- The word before the last of each kind of transfer. -/
theorem witness_TransferWordsInOrder :
    (∃ w op, (after (alone (.snapshot 0x8000 true 0) (.write 0x8000 1)) .portAccessComplete).path.holder
      = some (.word ⟨w, .transfer, op⟩)) ∧
    (∀ t op, (alone t op).onlyTransfers ∧ (alone t op).path.holder = some (.word ⟨.command, .transfer, op⟩) ∧
      (alone t op).cmd.transfer = some t ∧ (alone t op).path.zones = some zones) ∧
    ((block 0x968).dropLast.length < 12 ∧ ([1] : List Word).length + 1 < Table.cfgWords .port 12 ∧
      loadEntries[([] : List (List Word)).length + 12]? = some (.port, 12)) ∧
    (190 < 191 ∧ 126 < 127 ∧ 494 < 495 ∧ 6 + 1 < Table.words .port) :=
  ⟨⟨_, _, rfl⟩, fun _ _ => ⟨alone_onlyTransfers _ _, rfl, rfl, rfl⟩, ⟨by decide, by decide, rfl⟩, by decide⟩

theorem witness_ImageAndSnapshotWords :
    (let s := hub .inService
     let ws : List ImgWord := [⟨.reference, 3, 1⟩, ⟨.port, 1, 3⟩, ⟨.port, 12, 7⟩, ⟨.alarmPoint, 63, 3⟩]
     let t := after { s with cmd := { s.cmd with rewrite := [], images := ws } } (.oscillatorPeriod 1)
     (∀ w ∈ ws, w.table = .port ∧ 1 ≤ w.index ∧ w.index ≤ 12 ∧ 3 ≤ w.word ∧ w.word ≤ 7 ∨
       w.table = .alarmPoint ∧ w.index < 64 ∧ w.word = 3 ∨ w.table = .reference ∧ w.index < 4 ∧ w.word = 1) ∧
     ∃ r op, t.path.holder = some (.word ⟨r, .image, op⟩)) ∧
    (let e := SlotEntry.cold
     e.missed < 16 ∧ e.alt < 4 ∧ e.attempts < 4 ∧ e.delayA.value < 8192 ∧ e.delayB.value < 8192 ∧ e.card = none) ∧
    (∃ d : Card, d.maxPayload < 2048) ∧ Point.cold.count < 256 ∧ RefEntry.cold.good < 4 :=
  ⟨⟨by decide, _, _, rfl⟩, by decide, ⟨⟨0, 0, 0, 2040, 0⟩, by decide⟩, by decide, by decide⟩

theorem witness_LoadImagesRead :
    (let s := transferring (.loading .load) (.images (List.replicate 144 []) []) (.read 0xB06)
     s.busQuiet ∧ s.path.holder = some (.word ⟨.command, .transfer, .read 0xB06⟩) ∧ s.cmd.hub = .loading .load ∧
      (List.replicate 144 ([] : List Word)).length = 144 ∧ recordFail .reference 3 [Memory.readWord s.mem 0xB06] = none ∧
      ∀ k, (s.ref k).qualified = false) ∧
    (loadEntries[0]? = some (.port, 0) ∧ ([] : List Word).length + 1 = Table.cfgWords .port 0 ∧ recordFail .port 0 [0] = some 1) :=
  ⟨⟨⟨rfl, rfl⟩, rfl, rfl, List.length_replicate, by decide, by decide⟩, rfl, rfl, by decide⟩

theorem witness_ServiceEntered :
    (let s := transferring (.loading .load) (.writeback 127) (.write 0xB07 0)
     s.busQuiet ∧ s.path.holder = some (.word ⟨.command, .transfer, .write 0xB07 0⟩) ∧
      s.cmd.setup = some (Setup.ofWords (block 0x968)) ∧ (∀ i, (s.slot i).state ≠ .seated) ∧ s.alarm.overflow = 0 ∧
      s.cmd.hub = .loading .load ∧ s.cmd.transfer = some (.writeback 127)) ∧
    (let s := transferring (.loading .adopt) (.writeout 495) (.write 0xB07 0)
     s.busQuiet ∧ s.cmd.hub = .loading .adopt ∧ s.cmd.transfer = some (.writeout 495)) ∧
    (let s := (transferring (.loading .load) (.writeback 127) (.write 0xB07 0)).setSlot 0 (provisioned (entry .seated))
     let u := { s with alarm := { s.alarm with overflow := 65535 } }
     u.busQuiet ∧ u.alarm.overflow ≠ 0 ∧ u.slotDark 0 ∧ (u.slot 0).pgood = false ∧ (u.slot 0).state = .seated ∧
      (u.slot 0).cfg.provisioned = true ∧ (u.slot 0).latch = true ∧ ∀ i, i ≠ 0 → (u.slot i).state ≠ .seated) :=
  ⟨⟨⟨rfl, rfl⟩, rfl, rfl, by decide, rfl, rfl, rfl⟩, ⟨⟨rfl, rfl⟩, rfl, rfl⟩, ⟨rfl, rfl⟩, by decide,
    ⟨fun p => by cases p <;> exact LaneState.noConfusion, rfl, rfl⟩, rfl, rfl, rfl, rfl, by decide⟩

theorem witness_TransfersFinish :
    (∀ clear, (transferring .inService (.snapshot 0x8000 clear 191) (.write 0x80BF 0)).cmd.transfer
      = some (.snapshot 0x8000 clear 191)) ∧
    (transferring .inService (.entryRewrite .group 63 1) (.write 0x507F 0)).busQuiet ∧ 1 + 1 = Table.words .group ∧
    (let s := transferring .inService (.snapshot 0x8000 true 191) (.write 0x80BF 0)
     s.busQuiet ∧ s.path.passedOver < 16 ∧ s.path.holder = some (.word ⟨.command, .transfer, .write 0x80BF 0⟩) ∧
      s.classify 0xFFF5B 0 = .guarded ∧ controlWordOffset 0x12 = true ∧ (0 : ByteEnables) ≠ 0xF) :=
  ⟨fun _ => rfl, ⟨rfl, rfl⟩, rfl, ⟨rfl, rfl⟩, by decide⟩

/-- The record that gives a slot the fields given, and the one that gives a point the fields of another. -/
def portWords (c : PortCfg) : List Word := [({ SlotEntry.cold with cfg := c } : SlotEntry).imageWord 0, 0, 0]
def pointWords (p : Point) : List Word := [p.imageWord 0, p.imageWord 1, p.imageWord 2]
def contactPoint : Point :=
  { Point.cold with cfg := { PointCfg.cold with enabled := true, which := 7, raiseCount := 1, clearCount := 1 } }
def otherPoint : Point := { contactPoint with cfg := { contactPoint.cfg with which := 6 } }

theorem witness_StagingRecordRead :
    (let s := transferring .inService (.staging .group 63 0x8000 [1]) (.read 0x8001)
     s.busQuiet ∧ s.path.holder = some (.word ⟨.command, .transfer, .read 0x8001⟩) ∧
      s.cmd.transfer = some (.staging .group 63 0x8000 [1]) ∧ ([1] : List Word).length + 1 = Table.cfgWords .group 63 ∧
      recordFail .group 63 ([1] ++ [Memory.readWord s.mem 0x8001]) = none) ∧
    (([] : List Word).length + 1 = Table.cfgWords .reference 3 ∧ recordFail .reference 3 [0] = none ∧
      ((hub .inService).ref 3).qualified = false) ∧
    (([] : List Word).length + 1 = Table.cfgWords .port 0 ∧ recordFail .port 0 [0] = some 1 ∧
      recordFail .port 0 [512] = none ∧ (hub .inService).sm.q0Limit < field (512 : Word) 0 10) ∧
    ((pointWords contactPoint).length = Table.cfgWords .alarmPoint 63 ∧
      recordFail .alarmPoint 63 (pointWords contactPoint) = none ∧ contactPoint.cfg.enabled = true ∧
      PointCfg.ofWords (pointWords contactPoint) = contactPoint.cfg) :=
  ⟨⟨⟨rfl, rfl⟩, rfl, rfl, rfl, by decide⟩, by decide, by decide, by decide⟩

/-- Records of slot 1 that change one field, and what the slot is when each takes effect; a record of a point that changes its
source, by the way the point stands. -/
theorem witness_StagingRecordRead_changes :
    (∀ c ∈ [PortCfg.cold, { PortCfg.cold with provisioned := true }, { PortCfg.cold with policy := .pinB },
        { PortCfg.cold with gate := 0 }, { PortCfg.cold with bulkLimit := 65 }],
      (portWords c).length = Table.cfgWords .port 1 ∧ recordFail .port 1 (portWords c) = none ∧
        PortCfg.ofWords (portWords c) = c) ∧
    (∀ st : SlotState, let s := slot0 .inService (provisioned (entry st))
      s.slotDark 0 ∧ s.slotStill 0 ∧ (s.slot 0).state = st ∧ (s.slot 0).cfg.provisioned = true ∧
        (s.slot 0).cfg.policy = PortCfg.cold.policy ∧ (s.slot 0).cfg.gate = PortCfg.cold.gate) ∧
    (let s := slot0 .inService { entry .seated with latch := true }
     s.slotDark 0 ∧ s.cmd.hub.allowsPowering = true ∧ (s.slot 0).latch = true ∧ (s.slot 0).pgood = false) ∧
    (let e := { entry .admitted with laneA := .up, laneB := .up }
     e.cfg.policy ≠ .pinB ∧ Plane.b ≠ e.active ∧ e.laneState .b = .up) ∧
    (let e := { entry .draining with laneB := .up, cfg := { PortCfg.cold with policy := .pinA } }
     e.cfg.policy ≠ .auto ∧ Plane.b ≠ e.active ∧ e.laneState .b = .up ∧ e.laneState e.active ≠ .up) ∧
    (∀ q, (entry .admitted).laneState q ≠ .up) ∧
    (let s := (slot0 .inService (entry .admitted))
     let u := { s with sw := { s.sw.setQueue 0 .timed ⟨[0], []⟩ with stored := [stored 1 false] } }
     0 < u.sw.quality ∧ (0 : Nat) ≠ (u.slot 0).cfg.gate ∧ u.sw.queue 0 .timed = ⟨[(stored 1 false).id], []⟩ ∧
      u.sw.find 0 = some (stored 1 false) ∧ u.sw.queue 0 .bulk = EgressQueue.nil ∧
      ∀ q, (u.lane 0 q).tx = .none ∧ (u.lane 0 q).queue = []) ∧
    (recordFail .alarmPoint 63 (pointWords otherPoint) = none ∧ PointCfg.ofWords (pointWords otherPoint) = otherPoint.cfg ∧
      otherPoint.cfg.selector ≠ contactPoint.cfg.selector ∧
      contactPoint.state ≠ .raised ∧ contactPoint.state ≠ .pendingClear) ∧
    (((latched true).point 63).state = .raised ∧ ((latched true).point 63).cfg.masked = true ∧
      ((latched false).point 63).cfg.masked = false ∧ (latched false).cmd.hub = .inService ∧
      (latched false).alarm.overflow = 0 ∧ 1 ≤ (latched false).alarm.freePositions) :=
  ⟨by decide, fun _ => ⟨dark_slot0 _ _ rfl rfl, still_slot0 _ _, rfl, rfl, rfl, rfl⟩, ⟨dark_slot0 _ _ rfl rfl, by decide⟩,
    by decide, by decide, fun q => by cases q <;> decide,
    ⟨by decide, by decide, rfl, rfl, rfl, fun q => by cases q <;> exact ⟨rfl, rfl⟩⟩, by decide, by decide⟩

/-! ### Resets -/

/-- The resets have no hypothesis; a controller access and a GH412 word that are torn, or performed, are these. -/
theorem witness_ColdResetTaken :
    Memory.WF (holding .inService .alarm .log (.write 0x3000 7)).mem ∧
      (holdingOwn ⟨.write 5 7 0x3, .plain⟩).path.holder = some (.controller ⟨.write 5 7 0x3, .plain⟩) :=
  ⟨(by decide : Memory.WF []), rfl⟩

/-! ### Lanes and slots -/

def up (tx : Tx) : LanePort := { LanePort.cold with enable := true, state := .up, tx := tx }
def training : LanePort := { LanePort.cold with enable := true, state := .training }

def keeping (f : Stored) (q : EgressQueue) (s : State) : State :=
  { s with sw := { (s.sw.setQueue 0 .bulk q) with free := 511, stored := [f], nextId := 1 } }

theorem witness_LaneTrains :
    (let s := lane0 (slot0 .inService (entry .training)) training
     s.busQuiet ∧ (s.lane 0 .a).state = .training ∧ (s.lane 0 .a).queue = [] ∧ (s.lane 0 .a).tx = .none ∧
      (s.slot 0).state = .training ∧ (s.lane 0 .b).state ≠ .up) ∧
    ((lane0 (slot0 .inService (entry .identifying)) training).slot 0).state = .identifying ∧
    (State.reset.lane 11 .b).state ≠ .training :=
  ⟨⟨⟨rfl, rfl⟩, rfl, rfl, rfl, rfl, by decide⟩, rfl, by decide⟩

theorem witness_SignalLossTaken :
    (State.reset.busQuiet ∧ (State.reset.lane 11 .b).state ≠ .up) ∧
    (let s := lane0 (slot0 .inService { entry .identifying with laneA := .up }) (up .none)
     s.busQuiet ∧ (s.lane 0 .a).state = .up ∧ (s.slot 0).laneState .a = .up ∧ s.cyc.entry = none ∧
      (∀ k, (s.ref k).names 0 = false) ∧ (s.slot 0).state = .identifying ∧ (s.lane 0 .a).tx = .none) ∧
    (let f : CtlFrame := ⟨.identRequest, .slotManager⟩
     let s := lane0 (slot0 .inService { entry .identifying with laneA := .up }) (up (.control f [1]))
     (s.slot 0).state = .identifying ∧ (s.lane 0 .a).tx = .control f [1]) ∧
    (let e := { entry .admitted with laneA := .up, laneB := .up, active := .b }
     let s := keeping (stored 2 false) ⟨[0], []⟩ (lane0 (slot0 .inService e) (up (.data .bulk 0)))
     let s := s.setLane 0 .b (up (.control ⟨.identRequest, .slotManager⟩ [1]))
     let lost := ((s.slot 0).setLaneState .a .training).setDelay .a { (s.slot 0).delayA with valid := false }
     (s.lane 0 .a).state = .up ∧ (s.slot 0).laneState .a = .up ∧ s.cyc.entry = none ∧ (∀ k, (s.ref k).names 0 = false) ∧
      (s.slot 0).state = .admitted ∧ lost.wantsPlane = none ∧
      (s.slot 0).laneState (Plane.other .a) = .up ∧ (s.lane 0 .a).queue = [] ∧ (s.lane 0 .a).notSent ≤ 4294967295 ∧
      (s.lane 0 .a).tx = .data .bulk 0 ∧ (s.lane 0 (Plane.other .a)).tx ≠ .none ∧ s.sw.find 0 = some (stored 2 false) ∧
      2 ≤ (stored 2 false).refs) ∧
    (let s := lane0 (slot0 .inService { entry .admitted with laneA := .up, laneB := .up }) (up .none)
     s.slotStill 0 ∧ (s.slot 0).state = .admitted ∧ (s.slot 0).cfg.policy = .auto ∧ (s.slot 0).active = .a ∧
      (s.lane 0 .a).state = .up ∧ (s.lane 0 .a).notSent ≤ 4294967295 ∧ (s.slot 0).laneState (Plane.other .a) = .up) := by
  refine ⟨⟨⟨rfl, rfl⟩, by decide⟩, ⟨⟨rfl, rfl⟩, rfl, rfl, rfl, ?_, rfl, rfl⟩, ⟨rfl, rfl⟩,
    ⟨rfl, rfl, rfl, ?_, rfl, rfl, rfl, rfl, by decide, rfl, by decide, rfl, by decide⟩,
    ⟨fun p => by cases p <;> rfl, (still_slot0 .inService (entry .admitted)).2⟩, rfl, rfl, rfl, rfl, by decide, rfl⟩
  · exact (still_slot0 .inService (entry .admitted)).2.2.2.2.1
  · exact (still_slot0 .inService (entry .admitted)).2.2.2.2.1

/-- A received frame, whole: header, payload and check word. -/
def received (bs : List Byte) : Staging :=
  { stamp := ⟨0, 0, 0, 0⟩, kept := bs ++ checkBytes (checkWord bs), count := bs.length + 4, check := checkRun bs
    tail := checkBytes (checkWord bs) }
/-- A DATA frame of slot 1 with one payload byte. -/
def dataTo (dst : Nat) : Staging := received (headerBytes .data dst 1 .bulk 1 ++ [0x5A])

/-- A frame that has been received whole, of a length and a source that fit, passes the first three checks. -/
theorem received_fits (s : State) (bs : List Byte) (h8 : 8 ≤ bs.length) (hl : bs.length = 8 + hdrLength bs)
    (hm : hdrLength bs ≤ 2040) (hs : hdrSource bs = 1) (hc : (s.slot 0).card = none)
    (hk : hdrLength (received bs).kept = hdrLength bs) (hr : hdrSource (received bs).kept = hdrSource bs) :
    s.frameFits 0 ((received bs).feed []) := by
  refine ⟨show 12 ≤ bs.length + 4 by omega, ?_, rfl, ?_, (fun d hd => ?_), ?_⟩
  · show bs.length + 4 = 12 + hdrLength (received bs).kept
    omega
  · show hdrLength (received bs).kept ≤ 2040
    omega
  · rw [hc] at hd; exact nomatch hd
  · show hdrSource (received bs).kept = 0 + 1
    omega

def card0 (st : SlotState) (g : Staging) (s : State) : State :=
  running (lane0 (s.setSlot 0 { entry st with cfg := { PortCfg.cold with bulkLimit := 1 } })
    { up .none with staging := some g })

/-- A frame that does not pass: one more byte, 2,041 bytes of payload, another source, and a REF frame in IDENTIFYING. -/
theorem witness_FramesReceived :
    ((State.reset.lane 11 .b).state ≠ .up ∧ (State.reset.lane 11 .b).staging = none) ∧
    (let s := card0 .admitted (dataTo 0) serving
     s.busQuiet ∧ (s.lane 0 .a).state = .up ∧ (s.lane 0 .a).staging = some (dataTo 0) ∧ s.cyc.entry = none) ∧
    ((dataTo 0).feed [1]).count ≠ 12 + hdrLength ((dataTo 0).feed [1]).kept ∧
    2040 < hdrLength (received (headerBytes .data 0 1 .bulk 2041)).kept ∧
    hdrSource (received (headerBytes .data 0 2 .bulk 0)).kept ≠ (0 : Slot).val + 1 ∧
    (hdrKind (received (headerBytes .ref 0 1 .bulk 0)).kept = some .ref ∧ payloadOk .ref [] = false) ∧
    (∀ s : State, (s.slot 0).card = none → ∀ d ∈ [0, 1, 2, 12, 13, 15, 16, 79, 80, 126, 127],
      s.frameFits 0 ((dataTo d).feed []) ∧ hdrKind ((dataTo d).feed []).kept = some .data ∧
        hdrDestination (((dataTo d).feed []).kept.take 8) = d ∧ hdrClass (((dataTo d).feed []).kept.take 8) = .bulk ∧
        blocksFor ((dataTo d).feed []).payload.length = 1) ∧
    ((card0 .admitted (dataTo 0) serving).ring.state = .running ∧ 1 ≤ serving.sw.free ∧
      serving.sw.occupancy serving.sw.queue0 + 1 ≤ serving.sm.q0Limit) ∧
    (vget serving.sw.groups 63).enabled = false ∧
    (let s := card0 .admitted (dataTo 127) serving
     (∀ j, j ≠ 0 → (s.slot j).serving = false)) ∧
    (hdrClass (headerBytes .data 12 1 .timed 1) = .timed ∧
      (let s := serving.setSlot 11 { entry .admitted with cfg := { PortCfg.cold with gate := 3, bulkLimit := 0 } }
       (s.slot 11).cfg.gate < s.sw.quality ∧ (s.slot 11).serving = true ∧
        (s.slot 11).cfg.bulkLimit < s.sw.occupancy (s.sw.queue 11 .bulk) + 1 ∧ ({ s.sw with free := 0 } : SwitchCore).free < 1)) ∧
    (let s := (card0 .admitted (dataTo 12) serving).setSlot 11 (entry .admitted)
     let ps := allPorts.filter (fun x => s.servingPort x && x != portOf 0)
     ps = [portOf 11] ∧ (s.slot 11).serving = true ∧ (∀ x, (s.lane 11 x).state ≠ .up) ∧
      s.sw.occupancy (s.sw.queue 11 .bulk) + 1 ≤ (s.slot 11).cfg.bulkLimit) := by
  refine ⟨⟨by decide, rfl⟩, ⟨⟨rfl, rfl⟩, rfl, rfl, rfl⟩, by decide, by decide, by decide, by decide, fun s hc d hd => ?_,
    by decide, by decide, by decide, ⟨by decide, by decide⟩, ⟨by decide, by decide, fun x => by cases x <;> decide, by decide⟩⟩
  have h : ∀ d ∈ [0, 1, 2, 12, 13, 15, 16, 79, 80, 126, 127],
      hdrLength (headerBytes .data d 1 .bulk 1 ++ [0x5A]) = 1 ∧ hdrSource (headerBytes .data d 1 .bulk 1 ++ [0x5A]) = 1 ∧
      hdrKind ((dataTo d).feed []).kept = some .data ∧ hdrDestination (((dataTo d).feed []).kept.take 8) = d ∧
      hdrClass (((dataTo d).feed []).kept.take 8) = .bulk ∧ blocksFor ((dataTo d).feed []).payload.length = 1 := by decide
  exact ⟨received_fits s _ (show 8 ≤ 9 by decide) (by rw [(h d hd).1]; rfl) (by rw [(h d hd).1]; decide) (h d hd).2.1 hc rfl rfl, (h d hd).2.2⟩

/-- A group of ports 0, 2 and 12, with slots 2 and 12 as given, queue 0 of the limit given and `free` free blocks. -/
def grouped (free limit : Nat) (st : SlotState) : State :=
  let s := ((card0 .admitted (dataTo 16) serving).setSlot 1 (entry st)).setSlot 11 (entry .admitted)
  { s with sm := { s.sm with q0Limit := limit }
           sw := { s.sw with free := free, groups := vset s.sw.groups 0 { enabled := true, members := 0x1005 } } }
theorem witness_FramesReceived_losses :
    (let s := grouped 512 1 .empty
     allPorts.filter (fun x => (vget s.sw.groups 0).members.getLsbD x.val && x != portOf 0) = [0, 2, 12] ∧
      (vget s.sw.groups 0).enabled = true ∧ s.ring.state = .running ∧ s.servingPort 2 = false ∧ s.servingPort 12 = true ∧
      s.sw.occupancy s.sw.queue0 + 1 ≤ s.sm.q0Limit ∧ 1 ≤ s.sw.free ∧
      (s.lane 11 .a).state ≠ .up ∧ (s.lane 11 .b).state ≠ .up) ∧
    ((grouped 512 0 .empty).sm.q0Limit < (grouped 512 0 .empty).sw.occupancy (grouped 512 0 .empty).sw.queue0 + 1 ∧
      (grouped 0 1 .empty).sw.free < 1) ∧
    (serving.ring.state ≠ .running ∧ (card0 .admitted (dataTo 0) serving).ring.state = .running) :=
  ⟨by decide, by decide, by decide⟩

def identOf (cardType payload : Nat) : List Byte := beBytes 2 cardType ++ beBytes 2 payload ++ List.replicate 12 0
def ctlFrame (k : FrameKind) (bs : List Byte) : List Byte := headerBytes k 0 1 .bulk bs.length ++ bs
def statusOf (n : Nat) : List Byte := beBytes 2 n ++ List.replicate 6 0

/-- The payload and the kind of the frames below, and their passing of the first three checks. -/
theorem ctlFrame_read (s : State) (hc : (s.slot 0).card = none) :
    ∀ x ∈ [(FrameKind.status, statusOf 7), (.ident, identOf 5 2040), (.ident, identOf 0 2040), (.ident, identOf 5 255),
        (.ref, List.replicate 4 0)],
      s.frameFits 0 ((received (ctlFrame x.1 x.2)).feed []) ∧
        hdrKind ((received (ctlFrame x.1 x.2)).feed []).kept = some x.1 ∧
        ((received (ctlFrame x.1 x.2)).feed []).payload = x.2 ∧ payloadOk x.1 x.2 = true := by
  intro x hx
  have h : ∀ x ∈ [(FrameKind.status, statusOf 7), (.ident, identOf 5 2040), (.ident, identOf 0 2040), (.ident, identOf 5 255),
        (.ref, List.replicate 4 0)],
      (8 ≤ (ctlFrame x.1 x.2).length ∧ (ctlFrame x.1 x.2).length = 8 + hdrLength (ctlFrame x.1 x.2) ∧
        hdrLength (ctlFrame x.1 x.2) ≤ 2040 ∧ hdrSource (ctlFrame x.1 x.2) = 1) ∧
        hdrKind ((received (ctlFrame x.1 x.2)).feed []).kept = some x.1 ∧
        ((received (ctlFrame x.1 x.2)).feed []).payload = x.2 ∧ payloadOk x.1 x.2 = true := by decide
  exact ⟨received_fits s _ (h x hx).1.1 (h x hx).1.2.1 (h x hx).1.2.2.1 (h x hx).1.2.2.2 hc rfl rfl, (h x hx).2⟩

/-- An IDENT received while the ident wait expired at moment 0, its end coming at that moment or after it. -/
def overtakenIdent (osc : Nat) : State :=
  { lane0 (slot0 .inService (entry .faulted)) { LanePort.cold with
      overtaken := some { buffer := received (ctlFrame .ident (identOf 5 2040)), osc := 0 } } with osc := osc }
theorem witness_FramesReceived_overtaken :
    (∀ m, ((overtakenIdent m).lane 0 .a).staging = none ∧ ((overtakenIdent m).lane 0 .a).state ≠ .up ∧
      ((overtakenIdent m).lane 0 .a).overtaken = some ⟨received (ctlFrame .ident (identOf 5 2040)), 0⟩ ∧
      ((overtakenIdent m).slot 0).state = .faulted ∧ (overtakenIdent m).cyc.entry = none ∧ (overtakenIdent m).osc = m ∧
      hdrKind ((received (ctlFrame .ident (identOf 5 2040))).feed []).kept = some .ident ∧
      (overtakenIdent m).frameFits 0 ((received (ctlFrame .ident (identOf 5 2040))).feed [])) ∧
    (State.reset.lane 0 .a).overtaken = none :=
  ⟨fun m => ⟨rfl, LaneState.noConfusion, rfl, rfl, rfl, rfl,
    ((ctlFrame_read (overtakenIdent m) rfl (.ident, identOf 5 2040) (by decide)).2).1,
    (ctlFrame_read (overtakenIdent m) rfl (.ident, identOf 5 2040) (by decide)).1⟩, rfl⟩
/-- R59: taken at the moment of the expiry the IDENT is counted as not admitted; an end that comes later has no frame. -/
def notAdmitted (s : State) : Nat := (vget s.sw.counters (portOf 0)).notAdmitted
theorem test_ident_overtaken : notAdmitted (after (overtakenIdent 0) (.frameEndReceived 0 .a [])) = 1 := by decide +kernel
theorem test_ident_late : notAdmitted (after (overtakenIdent 1) (.frameEndReceived 0 .a [])) = 0 := by decide

def polling (c : Attempt) : PollWork :=
  { slot := 0, retries := 0, choice := .active, alternate := false, conditions := 0, branch := false, first := some .a
    made := 1, log := [], cur := some c }
def attempt (n : Nat) : Attempt := { plane := .a, number := n, tag := 0, t1 := none, sent := true, timeout := some 9 }
def refOf (last : Option Nat) (q : Bool) : RefEntry :=
  { cfg := { kind := .slot, slot := 1, enabled := true }, qualified := q, good := 3, last := last, watch := none }

theorem witness_ControlFramesReceived :
    (let s := card0 .admitted (received (ctlFrame .status (statusOf 7))) serving
     s.busQuiet ∧ (s.lane 0 .a).staging = some (received (ctlFrame .status (statusOf 7))) ∧ (s.slot 0).card = none ∧
      s.attemptOf 0 = none ∧ statusNumber (statusOf 7) = 7) ∧
    (let s := (walking (.run [6, 0, 0, 0] (.poll (polling (attempt 7)))) serving).setSlot 0
        { entry .admitted with cfg := { PortCfg.cold with policy := .pinA } }
     s.cyc.entry = some ⟨0x9000, .run [6, 0, 0, 0] (.poll (polling (attempt 7)))⟩ ∧ (s.slot 0).state = .admitted ∧
      (attempt 7).number = statusNumber (statusOf 7) ∧ (s.slot 0).cfg.policy ≠ .auto ∧ (s.slot 0).fenced = false ∧
      ∀ k, ((s.point k).cfg.kind.isCard && (s.point k).cfg.which == 1) = false) ∧
    (let sent : Stamp := ⟨4294967295, 999999000, 0, 0⟩
     let y := fun (ns : Nat) => (((0 : Int) - sent.sec) % 4294967296) * 1000000000 + ((ns : Int) - sent.ns)
       - statusTurnaround (statusOf 7)
     ({ attempt 7 with t1 := some sent } : Attempt).t1 = some sent ∧ y 9000 = 10000 ∧ y 9001 = 10001) ∧
    ((identOf 5 2040).length = 16 ∧ identType (identOf 5 2040) ≠ 0 ∧ identPayload (identOf 5 2040) = 2040 ∧
      identType (identOf 0 2040) = 0 ∧ identPayload (identOf 5 255) < 256) ∧
    (let s := card0 .identifying (received (ctlFrame .ident (identOf 5 2040))) serving
     (s.slot 0).state = .identifying ∧ (s.slot 0).cfg.allowed = [] ∧ (s.lane 0 .a).state = .up ∧ (s.lane 0 .a).tx = .none ∧
      (∀ y, (s.lane 0 y).queue = []) ∧ (∀ c, s.sw.queue 0 c = EgressQueue.nil) ∧ (∀ k, (s.ref k).names 0 = false) ∧
      (s.lane 0 .a).notSent ≤ 4294967295 ∧ (s.lane 0 (Plane.other .a)).state ≠ .up ∧
      (s.slot 0).delayA.valid = false ∧ (s.slot 0).delayB.valid = false) ∧
    (let r := refOf none false
     let s := { card0 .admitted (received (ctlFrame .ref (List.replicate 4 0))) serving with
       time := { State.reset.time with refs := vset State.reset.time.refs 3 r } }
     (s.slot 0).active ≠ .b ∧ (s.slot 0).active = .a ∧ (s.ref 3).cfg.enabled = true ∧ (s.ref 3).names 0 = true ∧
      (∀ k, k ≠ 3 → (s.ref k).cfg.enabled = false) ∧ (s.slot 0).delayA.valid = false ∧ (s.slot 0).serving = true ∧
      (s.ref 3).last = none ∧ s.time.selected ≠ some 3) ∧
    (let r := refOf (some 0) true
     let s := { card0 .admitted { received (ctlFrame .ref (List.replicate 4 0)) with stamp := ⟨0, 400, 0, 99900000⟩ } serving with
       time := { State.reset.time with refs := vset State.reset.time.refs 3 r, selected := some 3, state := .locked } }
     let s := s.setSlot 0 { s.slot 0 with delayA := { value := 300, valid := true } }
     (s.slot 0).serving = true ∧ ((s.slot 0).delay .a).valid = true ∧ (s.ref 3).last = some 0 ∧ 99900000 ≤ 99900000 - 0 ∧
      (s.ref 3).qualified = true ∧ s.time.selected = some 3 ∧ s.time.mark = 0 ∧ s.time.mark ≠ 1 ∧ s.time.state = .locked ∧
      ((400 : Int) - 300).natAbs < s.time.disc.stepLimit ∧ ((400 : Int) - 300).natAbs ≤ s.time.disc.lockWindow) := by
  refine ⟨⟨⟨rfl, rfl⟩, rfl, rfl, rfl, by decide⟩, ⟨rfl, rfl, by decide, by decide, rfl, by decide⟩, by decide, by decide,
    ⟨rfl, rfl, rfl, rfl, fun y => by cases y <;> rfl, fun c => by cases c <;> rfl, by decide, by decide, by decide, rfl, rfl⟩,
    by decide, by decide⟩

theorem witness_TransmissionEnds :
    (let s := lane0 (slot0 .inService (entry .admitted)) (up (.control ⟨.identRequest, .slotManager⟩ [1]))
     s.busQuiet ∧ (s.lane 0 .a).tx = .control ⟨.identRequest, .slotManager⟩ [1] ∧ (∀ q, (s.lane 0 q).queue = []) ∧
      ∀ c, s.sw.queue 0 c = EgressQueue.nil) ∧
    (let s := keeping (stored 2 false) ⟨[0], []⟩ (lane0 (slot0 .inService (entry .admitted)) (up (.data .bulk 0)))
     s.busQuiet ∧ (s.lane 0 .a).tx = .data .bulk 0 ∧ s.sw.find 0 = some (stored 2 false) ∧
      (∀ q, (s.lane 0 q).queue = []) ∧ s.sw.queue 0 .bulk = ⟨[0], []⟩ ∧
      ∀ d, d ≠ Cls.bulk → s.sw.queue 0 d = EgressQueue.nil) ∧
    (State.reset.lane 11 .b).tx = .none ∧
    (let s := lane0 (slot0 .inService (entry .admitted)) (up (.control ⟨.time, .cycle 0⟩ [1]))
     s.busQuiet ∧ (s.lane 0 .a).tx = .control ⟨.time, .cycle 0⟩ [1] ∧ s.cyc.entry = none) ∧
    (∃ c : Attempt, ∃ w : PollWork, w.cur = some c ∧ c.tag = 0) ∧
    (∃ w : TimeWork, w.tag = 0 ∧ w.awaited = 1 ∧ w.notSent = 0 ∧ w.plane = some .b) :=
  ⟨⟨⟨rfl, rfl⟩, rfl, fun q => by cases q <;> rfl, fun c => by cases c <;> rfl⟩,
    ⟨⟨rfl, rfl⟩, rfl, rfl, fun q => by cases q <;> rfl, rfl, fun d h => by cases d <;> first | rfl | exact absurd rfl h⟩, rfl, ⟨⟨rfl, rfl⟩, rfl, rfl⟩,
    ⟨⟨.a, 0, 0, none, false, none⟩, ⟨0, 0, .active, false, 0, false, none, 1, [], some ⟨.a, 0, 0, none, false, none⟩⟩, rfl, rfl⟩,
    ⟨⟨0, 1, 11, 0, some .b⟩, rfl, rfl, rfl, rfl⟩⟩

theorem quiet_slot0 (h : HubState) (e : SlotEntry) : (slot0 h e).busQuiet := ⟨rfl, rfl⟩

theorem witness_PresenceTaken :
    (State.reset.busQuiet ∧ (State.reset.slot 11).state = .empty) ∧
    (let s := slot0 .inService (entry .powering)
     s.busQuiet ∧ (s.slot 0).state = .powering ∧ s.slotDark 0 ∧
      (s.slot 0).state ∈ [SlotState.seated, .powering, .released, .faulted, .lockedOut, .rejected]) :=
  ⟨⟨⟨rfl, rfl⟩, by decide⟩, quiet_slot0 _ _, rfl, dark_slot0 _ _ rfl rfl, by decide⟩

theorem witness_LatchAndPowerGoodTaken :
    (∀ st : SlotState, (slot0 .inService (entry st)).busQuiet ∧ (slot0 .inService (entry st)).slotDark 0 ∧
      (slot0 .inService (entry st)).slotStill 0 ∧ ((slot0 .inService (entry st)).slot 0).state = st) ∧
    (let s := slot0 .inService (provisioned (entry .seated))
     s.cmd.hub.allowsPowering = true ∧ (s.slot 0).cfg.provisioned = true ∧ (s.slot 0).pgood = false) ∧
    (HubState.unconfigured.allowsPowering = false) ∧
    (∀ p, ((slot0 .inService (entry .powering)).lane 0 p).state = .off) ∧
    (SlotState.powered .rejected = false) :=
  ⟨fun st => ⟨quiet_slot0 _ _, dark_slot0 _ _ rfl rfl, still_slot0 _ _, rfl⟩, by decide, rfl,
    fun p => by cases p <;> rfl, rfl⟩

/-- A slot timer that has run out by now, and one that runs out now. -/
def expiring (e : SlotEntry) : State := slot0 .inService { e with timer := some 0 }
theorem witness_SlotTimersExpire :
    (∀ st ∈ [SlotState.empty, .powering, .training, .identifying, .faulted], (expiring (entry st)).busQuiet ∧
      ((expiring (entry st)).slot 0).timer = some 0 ∧ ((expiring (entry st)).advanceTo 0).slotDark 0 ∧
      ((expiring (entry st)).slot 0).state = st ∧ ((expiring (entry st)).advanceTo 0).mayPower 0 = false) ∧
    (let s := expiring (provisioned (entry .empty))
     (s.advanceTo 0).mayPower 0 = true ∧ (s.slot 0).pgood = false) ∧
    (3 ≤ ({ entry .faulted with attempts := 3 } : SlotEntry).attempts ∧
      ({ entry .faulted with attempts := 2 } : SlotEntry).attempts < 3) ∧
    (State.reset.busQuiet ∧ (State.reset.slot 11).timer = none ∧ (State.reset.slot 11).state ≠ .draining) ∧
    (let s := lane0 (expiring (entry .identifying)) { up .none with staging := some (dataTo 0) }
     let u := s.advanceTo 0
     s.busQuiet ∧ (u.slot 0).state = .identifying ∧ (u.slot 0).timer = some 0 ∧ (u.lane 0 .a).state = .up ∧
      (u.lane 0 .a).staging = some (dataTo 0) ∧ (u.lane 0 .a).tx = .none ∧ (u.lane 0 .a).queue = [] ∧
      (u.lane 0 .a).notSent ≤ 4294967295 ∧ (u.lane 0 .b).state ≠ .up ∧ (u.slot 0).delayA.valid = false) ∧
    (((lane0 (expiring (entry .identifying)) (up .none)).advanceTo 0).lane 0 .a).staging = none := by
  refine ⟨fun st h => ⟨⟨rfl, rfl⟩, rfl, ⟨fun p => ?_, rfl, rfl⟩, rfl, ?_⟩, ?_, by decide, ⟨⟨rfl, rfl⟩, by decide⟩,
    ⟨⟨rfl, rfl⟩, rfl, rfl, rfl, rfl, rfl, rfl, by decide, by decide, rfl⟩, rfl⟩
  · cases p <;> exact LaneState.noConfusion
  · revert st; decide
  · decide

theorem witness_DrainEnds :
    (let s := slot0 .inService (entry .draining)
     s.busQuiet ∧ (s.slot 0).state = .draining ∧ s.slotDark 0 ∧ (∀ c, s.sw.queue 0 c = EgressQueue.nil) ∧
      s.mayPower 0 = false) ∧
    (let s := expiring (entry .draining)
     (s.slot 0).timer = some 0 ∧ (s.advanceTo 0).slotDark 0 ∧ (∀ c, (s.advanceTo 0).sw.queue 0 c = EgressQueue.nil) ∧
      (s.advanceTo 0).mayPower 0 = false) ∧
    (expiring { entry .draining with drainCause := .release }).busQuiet ∧
    ((keeping (stored 1 false) ⟨[0], []⟩ (slot0 .inService (entry .draining))).sw.queue 0 .bulk).frames ≠ [] ∧
    (let s := lane0 (slot0 .inService { entry .draining with laneA := .up, delayA := ⟨300, true⟩ }) (up .none)
     s.busQuiet ∧ (s.slot 0).state = .draining ∧ (s.lane 0 .a).state = .up ∧ (s.slot 0).delayA.valid = true ∧
      s.mayPower 0 = false ∧ (∀ c, s.sw.queue 0 c = EgressQueue.nil) ∧
      (∀ p, (s.lane 0 p).tx = .none ∧ (s.lane 0 p).queue = [] ∧ (s.lane 0 p).staging = none ∧
        (s.lane 0 p).notSent ≤ 4294967295) ∧ ∀ k, (s.ref k).names 0 = false) :=
  ⟨⟨⟨rfl, rfl⟩, rfl, dark_slot0 _ _ rfl rfl, fun c => by cases c <;> rfl, by decide⟩,
    ⟨rfl, ⟨fun p => by cases p <;> exact LaneState.noConfusion, rfl, rfl⟩, fun c => by cases c <;> rfl, by decide⟩,
    ⟨rfl, rfl⟩, by decide, ⟨rfl, rfl⟩, rfl, rfl, rfl, by decide, fun c => by cases c <;> rfl,
    fun p => by cases p <;> decide, (still_slot0 .inService (entry .admitted)).2.2.2.2.1⟩

/-! ### Rings -/

def ringHolding (op : DmaOp) (s : State) : State :=
  { s with path := { s.path with holder := some (.word ⟨.ring, (match op with | .read _ => .rx | .write _ _ => .rx), op⟩) } }
def txHolding (op : DmaOp) (s : State) : State := { s with path := { s.path with holder := some (.word ⟨.ring, .tx, op⟩) } }
def par : RingParams := ⟨0x1000, 4, 0x2000, 4, 2⟩
def withPar (s : State) : State := { s with ring := { s.ring with params := some par } }
/-- Word 0x8800 holds the value. -/
def word (v : Word) (s : State) : State := { s with mem := Memory.writeWord s.mem 0x8800 v 0xF }
/-- Frame 0 at the head of queue 0. -/
def atPort0 (refs : Nat) (s : State) : State :=
  { s with sw := { s.sw with free := 511, stored := [stored refs false], nextId := 1, queue0 := ⟨[0], []⟩ } }

theorem witness_ReceiveWalks :
    (let s := atPort0 1 (running serving)
     s.busQuiet ∧ s.ring.state = .running ∧ s.ring.rx = none ∧ s.sw.queue0.frames = [0] ∧
      s.sw.find 0 = some (stored 1 false)) ∧
    (State.reset.busQuiet ∧ State.reset.ring.state ≠ .running) ∧
    (let s := ringHolding (.read 0x8800) (withPar (receiving serving (someMove (.looking [] false))))
     s.busQuiet ∧ s.path.holder = some (.word ⟨.ring, .rx, .read 0x8800⟩) ∧ s.ring.rx = some (someMove (.looking [] false)) ∧
      (Memory.readWord s.mem 0x8800).getLsbD 31 = false ∧ s.ring.par.holdMs ≠ 0) ∧
    (let s := word 64 (ringHolding (.read 0x8800) (withPar (receiving serving (someMove (.looking [] true)))))
     bufferSizeOk (descSize (Memory.readWord s.mem 0x8800)) = true ∧
      (someMove (.looking [] true)).len ≤ 0 + descSize (Memory.readWord s.mem 0x8800)) ∧
    bufferSizeOk (descSize 66) = false ∧
    (let s := atPort0 2 (ringHolding (.read 0x8800) (receiving serving (someMove (.looking [] false))))
     let s := { s with ring := { s.ring with params := some { par with holdMs := 0 } } }
     (Memory.readWord s.mem 0x8800).getLsbD 31 = false ∧ s.ring.par.holdMs = 0 ∧ s.sw.find 0 = some (stored 2 false) ∧
      s.sw.queue0.frames.contains 0 = true) ∧
    (let m := { someMove (.looking [⟨0, 64⟩, ⟨0, 64⟩, ⟨0, 64⟩] true) with len := 257 }
     let s := word 64 (ringHolding (.read 0x8800) (withPar (receiving serving m)))
     s.ring.rx = some m ∧ ([64, 64, 64] : List Nat).sum + descSize (Memory.readWord s.mem 0x8800) < m.len ∧
      s.ring.par.rxSize ≤ 3 + 1 ∧ s.ring.par.holdMs ≠ 0) :=
  ⟨⟨⟨rfl, rfl⟩, rfl, rfl, rfl, by decide⟩, ⟨⟨rfl, rfl⟩, by decide⟩, ⟨⟨rfl, rfl⟩, rfl, rfl, by decide, by decide⟩, by decide,
    by decide, by decide, rfl, by decide⟩

theorem witness_ReceiveEnds :
    (let s := ringHolding (.write 0xD000 0x5A) (withPar (receiving serving (someMove (.placing [⟨0, 64⟩] 0 (some 0xD000) 0))))
     s.busQuiet ∧ s.path.holder = some (.word ⟨.ring, .rx, .write 0xD000 0x5A⟩) ∧
      wordsFor (storedIn [⟨0, 64⟩] (someMove .held).len 0) ≤ 0 + 1 ∧ [(⟨0, 64⟩ : RxDesc)].length ≤ 0 + 1) ∧
    (let s := atPort0 2 (ringHolding (.write 0x1000 0) (withPar (receiving serving (someMove (.returning [⟨0, 64⟩] 1)))))
     s.busQuiet ∧ 2 * [(⟨0, 64⟩ : RxDesc)].length ≤ 1 + 1 ∧ s.sw.find 0 = some (stored 2 false) ∧ (stored 2 false).refs = 2 ∧
      s.sw.queue0.frames.contains 0 = true) ∧
    (ringHolding (.write 0x1000 0) (receiving serving (someMove (.marking 2)))).ring.rx = some (someMove (.marking 2)) ∧
    (let s := ringHolding (.read 0x1000) (receiving serving (someMove (.marking 0)))
     s.busQuiet ∧ s.path.holder = some (.word ⟨.ring, .rx, .read 0x1000⟩) ∧ (Memory.readWord s.mem 0x1000).getLsbD 31 = false) ∧
    (∀ phase ∈ [RxPhase.held, .looking [⟨0, 64⟩] true],
     let s := atPort0 2 (withPar (receiving serving { someMove phase with hold := some 0 }))
     s.busQuiet ∧ (s.advanceTo 0).sw.find 0 = some (stored 2 false) ∧
      (s.advanceTo 0).sw.queue0.frames.contains 0 = true) :=
  ⟨⟨⟨rfl, rfl⟩, rfl, by decide, by decide⟩, ⟨⟨rfl, rfl⟩, by decide, by decide, rfl, by decide⟩, rfl,
    ⟨⟨rfl, rfl⟩, rfl, by decide⟩, fun phase h => ⟨⟨rfl, rfl⟩, by revert phase; decide, by revert phase; decide⟩⟩

/-- A chain of one descriptor with the given owner word and size. -/
def chain (owner : Word) (size : Nat) (phase : TxPhase) : TxMove := { descs := [⟨owner, 0xC000, size⟩], phase := phase }
/-- GH412, start, end, and the destination. -/
def owner (dst : Nat) : Word := wordOf (2 ^ 31 + 2 ^ 30 + 2 ^ 29 + 2 ^ 16 * dst)
def fetching (o : Word) : TxMove := { descs := [], phase := .fetching (.size o 0xC000) }

/-- The third word of the descriptor read as `v`, on slot 1 as given. -/
def judging (o v : Word) (e : SlotEntry) : State :=
  word v (txHolding (.read 0x8800) (withPar (sending (serving.setSlot 0 e) (fetching o))))

theorem witness_TransmitChainJudged :
    (let s := txHolding (.read 0x8800) (running serving)
     s.busQuiet ∧ s.path.holder = some (.word ⟨.ring, .tx, .read 0x8800⟩) ∧ s.ring.tx = none ∧
      ({ s with ring := { s.ring with exam := some true } } : State).ring.exam = some true) ∧
    (let s := judging (owner 0) 60 SlotEntry.cold
     s.busQuiet ∧ s.path.holder = some (.word ⟨.ring, .tx, .read 0x8800⟩) ∧ s.ring.tx = some (fetching (owner 0)) ∧
      descSize (Memory.readWord s.mem 0x8800) = 60) ∧
    (descEnd 0xA0010000 = true ∧ (chain 0xA0010000 4 (.held false)).wellFormed = false) ∧
    (descEnd (owner 0) = true ∧ (chain (owner 0) 2041 (.held false)).wellFormed = true ∧
      2040 < (chain (owner 0) 2041 (.held false)).length ∧ (chain (owner 0) 2040 (.held false)).length ≤ 2040 ∧
      descDestination (owner 0) = 0) ∧
    (descEnd 0xC0010000 = false ∧ par.txSize ≤ [1, 2, 3, 4].length) :=
  ⟨⟨⟨rfl, rfl⟩, rfl, rfl, rfl⟩, ⟨⟨rfl, rfl⟩, rfl, rfl, by decide⟩, by decide, by decide, by decide⟩

theorem witness_TransmitFrameOffered :
    descDestination (owner 1) = (0 : Slot).val + 1 ∧
    (let s := judging (owner 1) 60 (entry .admitted)
     let m := chain (owner 1) 60 (.fetching (.size (owner 1) 0xC000))
     s.busQuiet ∧ s.ring.tx = some (fetching (owner 1)) ∧ descEnd (owner 1) = true ∧ m.wellFormed = true ∧ m.length ≤ 2040 ∧
      (s.slot 0).serving = true ∧ descClass (owner 1) = .bulk ∧ blocksFor m.length ≤ s.sw.free ∧
      s.sw.occupancy (s.sw.queue 0 .bulk) + blocksFor m.length ≤ (s.slot 0).cfg.bulkLimit ∧
      (loadPoint m.descs 0 0).1 < m.descs.length) ∧
    (let s := sending serving (chain (owner 1) 60 (.held true))
     s.busQuiet ∧ s.ring.tx = some (chain (owner 1) 60 (.held true)) ∧ (s.slot 0).serving = false) ∧
    (let s := sending (serving.setSlot 0 { entry .admitted with cfg := { PortCfg.cold with bulkLimit := 0 } })
        (chain (owner 1) 60 (.held true))
     (s.slot 0).serving = true ∧
      (s.slot 0).cfg.bulkLimit < s.sw.occupancy (s.sw.queue 0 .bulk) + blocksFor (chain (owner 1) 60 (.held true)).length) :=
  ⟨by decide, ⟨⟨rfl, rfl⟩, rfl, by decide, by decide, by decide, by decide, by decide, by decide, by decide, by decide⟩,
    ⟨⟨rfl, rfl⟩, rfl, by decide⟩, by decide⟩

/-- RING_STOP with a frame being placed and a chain being fetched, held or loaded, and with a frame held or looked for. -/
theorem witness_RingCommandsTaken :
    ((hub .inService).takesCommand ∧ (hub .inService).ring.state = .stopped) ∧
    ((running (hub .inService)).takesCommand ∧ (running (hub .inService)).ring.state = .running ∧
      (running (hub .inService)).ring.rx = none ∧ (running (hub .inService)).ring.tx = none) ∧
    (∀ phase ∈ [TxPhase.fetching (.size (owner 1) 0xC000), .held true, .loading 0 .accepted 0 0 []],
      let s := sending (receiving serving (someMove (.marking 0))) (chain (owner 1) 60 phase)
      s.takesCommand ∧ s.ring.state = .running ∧ s.ring.tx = some (chain (owner 1) 60 phase) ∧
        ∀ m, s.ring.rx = some m → m.phase ≠ .held ∧ ∀ ds b, m.phase ≠ .looking ds b) ∧
    (∀ phase ∈ [RxPhase.held, .looking [⟨0, 64⟩] true],
      let s := atPort0 2 (receiving serving (someMove phase))
      s.takesCommand ∧ s.ring.state = .running ∧ s.ring.tx = none ∧ s.ring.rx = some (someMove phase) ∧
        s.sw.find 0 = some (stored 2 false) ∧ s.sw.queue0.frames.contains 0 = true) :=
  ⟨⟨takes_hub _ rfl, rfl⟩, ⟨⟨⟨⟨rfl, rfl⟩, rfl, Nat.zero_lt_succ 15⟩, rfl, rfl, rfl, rfl⟩, rfl, rfl, rfl⟩,
    fun _ _ => ⟨⟨⟨⟨rfl, rfl⟩, rfl, Nat.zero_lt_succ 15⟩, rfl, rfl, rfl, rfl⟩, rfl, rfl,
      fun m h => by cases h; exact ⟨RxPhase.noConfusion, fun _ _ => RxPhase.noConfusion⟩⟩,
    fun p h => ⟨⟨⟨⟨rfl, rfl⟩, rfl, Nat.zero_lt_succ 15⟩, rfl, rfl, rfl, rfl⟩, rfl, rfl, rfl, by revert p; decide, by revert p; decide⟩⟩

theorem witness_TransmitEnds :
    (let m := chain (owner 1) 1 (.loading 0 .accepted 0 0 [])
     let s := keeping (stored 2 true) ⟨[], [0]⟩ (txHolding (.read 0xC000) (sending serving m))
     s.busQuiet ∧ s.path.holder = some (.word ⟨.ring, .tx, .read 0xC000⟩) ∧ s.ring.tx = some m ∧
      m.descs.length ≤ (loadPoint m.descs 0 (0 + 1)).1 ∧ s.reservedAt 0 = [(portOf 0, .bulk)] ∧
      s.sw.find 0 = some (stored 2 true) ∧ ∀ p, (s.lane 0 p).state ≠ .up) ∧
    (let m := chain (owner 1) 1 (.returning .accepted 0)
     let s := txHolding (.write 0x2000 0) (sending serving m)
     s.busQuiet ∧ s.path.holder = some (.word ⟨.ring, .tx, .write 0x2000 0⟩) ∧ s.ring.tx = some m ∧ m.descs.length ≤ 0 + 1) ∧
    (let o : OpenCmd := ⟨.ringStop, 0, []⟩
     let s := executing o { serving with ring := { serving.ring with state := .halting } }
     s.busQuiet ∧ s.ring.rx = none ∧ s.ring.tx = none ∧ s.sw.queue0 = EgressQueue.nil ∧ s.cmd.collection = .executing o ∧
      s.ring.state = .halting) ∧
    (let s := atPort0 1 { serving with ring := { serving.ring with state := .halting } }
     s.busQuiet ∧ s.ring.state = .halting ∧ s.ring.rx = none ∧ s.ring.tx = none ∧
      (∀ o : OpenCmd, s.cmd.collection = .executing o → o.cmd ≠ .ringStop) ∧
      s.sw.queue0.frames ++ s.sw.queue0.reserved = [(stored 1 false).id] ∧ s.sw.find 0 = some (stored 1 false) ∧
      s.sw.queue0.reserved = []) :=
  ⟨⟨⟨rfl, rfl⟩, rfl, rfl, by decide, by decide, by decide, fun p => by cases p <;> exact LaneState.noConfusion⟩,
    ⟨⟨rfl, rfl⟩, rfl, rfl, by decide⟩, ⟨⟨rfl, rfl⟩, rfl, rfl, rfl, rfl, rfl⟩,
    ⟨rfl, rfl⟩, rfl, rfl, rfl, (fun _ h => nomatch h), rfl, by decide, rfl⟩

/-! ### Cabinet time -/

theorem witness_PeriodAndRollover :
    (State.reset.busQuiet ∧ State.reset.boundaryLeft = none ∧ (State.reset.time.ns : Int) + 10 + 0 < 1000000000) ∧
    (State.reset.time.state ≠ .holdover) ∧
    (∀ h : Nat,
      let s := { State.reset with time := { State.reset.time with state := .holdover, holdover := h } }
      s.busQuiet ∧ s.time.inRange ∧ s.boundaryLeft = none ∧ s.time.state = .holdover ∧ (∀ i, 3 ≤ (s.slot i).cfg.gate) ∧
        s.time.beyond = false ∧ s.time.disc.holdoverLimit = 14400) ∧
    (min (14399 + 1) 4294967295 ≤ 14400 ∧ 14400 < min (14400 + 1) 4294967295 ∧ 14400 < min (4294967295 + 1) 4294967295) ∧
    (let s := { State.reset with time := { State.reset.time with ppsOut := some 0 } }
     s.busQuiet ∧ s.time.ppsOut = some 0 ∧ (s.advanceTo 0).time.ppsOut = some 0) :=
  ⟨⟨⟨rfl, rfl⟩, rfl, by decide⟩, by decide,
    fun _ => ⟨⟨rfl, rfl⟩, inRange_reset, rfl, rfl,
      (by decide : ∀ i, 3 ≤ (State.reset.slot i).cfg.gate), rfl, rfl⟩, by decide, ⟨rfl, rfl⟩, rfl, rfl⟩

theorem witness_PeriodsOneByOne : State.reset.time.inRange := inRange_reset

def withRef (k : Fin 4) (r : RefEntry) (f : TimeBase → TimeBase) : State :=
  { State.reset with osc := 100000000, time := f (State.reset.time.setRef k r) }
def pps (last watch : Option Nat) (q : Bool) : RefEntry :=
  { RefEntry.cold with cfg := { RefCfg.cold with enabled := true }, last := last, watch := watch, qualified := q }

/-- The base judged by entry 0, whose last arrival was one second ago and whose edge comes `ns` into the second. -/
def judgedBy (st : TimeState) (ns : Nat) (r : RefEntry) (f : TimeBase → TimeBase) : State :=
  withRef 0 r (fun t => f { t with state := st, selected := some 0, ns := ns })

/-- Phase errors of 100, -100, 1,001 and half a second in LOCKED and ACQUIRING, with the runs one short of their ends. -/
theorem witness_ReferencesJudged :
    (State.reset.busQuiet ∧ ∀ k, (State.reset.ref k).cfg.enabled = false) ∧
    (let s := withRef 0 (pps none none false) id
     (s.ref 0).cfg.enabled = true ∧ (s.ref 0).cfg.kind = .ppsInput ∧ (∀ k, k ≠ 0 → (s.ref k).cfg.enabled = false) ∧
      (s.ref 0).last = none ∧ s.time.selected = none) ∧
    (let s := withRef 0 (pps (some 99) none false) id
     (s.ref 0).last = some 99 ∧ 99900000 ≤ s.osc - 99 ∧ s.osc - 99 ≤ 100100000 ∧ s.osc - 100001 < 99900000 ∧
      (s.ref 0).qualified = false ∧ (s.ref 0).good < 2 ∧ (∀ k, k ≠ 0 → (s.ref k).qualified = false) ∧
      s.time.state = .free ∧ ∀ i, 2 ≤ (s.slot i).cfg.gate) ∧
    (let s := judgedBy .locked 999999900 (pps (some 0) none true) id
     (s.ref 0).last = some 0 ∧ 99900000 ≤ s.osc - 0 ∧ s.osc - 0 ≤ 100100000 ∧ (s.ref 0).qualified = true ∧
      s.time.selected = some 0 ∧ s.time.ns < 1000000000 ∧ s.time.state = .locked ∧
      ((s.time.ns : Int) - 1000000000).natAbs < s.time.disc.stepLimit ∧
      ((s.time.ns : Int) - 1000000000).natAbs ≤ s.time.disc.lockWindow) ∧
    (let s := judgedBy .acquiring 100 (pps (some 0) none true) (fun t => { t with lockRun := 1 })
     s.time.state = .acquiring ∧ (s.time.ns : Int).natAbs ≤ s.time.disc.lockWindow ∧
      min (s.time.lockRun + 1) 255 < s.time.disc.lockCount ∧ s.time.disc.lockCount ≤ min (254 + 1) 255 ∧
      s.time.disc.lockWindow < (1001 : Int).natAbs ∧ (1001 : Int).natAbs < s.time.disc.stepLimit) ∧
    (min (3 + 1) 4 = 4 ∧ min (2 + 1) 4 < 4) ∧
    (let s := judgedBy .locked 500000000 (pps (some 0) none true) id
     s.boundaryLeft = none ∧ s.time.disc.stepLimit ≤ ((s.time.ns : Int) - 1000000000).natAbs ∧
      ((s.time.ns : Int) - 1000000000) < 0 ∧ s.time.disc.stepLimit ≤ (499999999 : Int).natAbs) ∧
    (let s := withRef 3 (pps (some 0) (some 0) true) (fun t => { t with state := .locked, selected := some 3 })
     s.busQuiet ∧ (s.ref 3).watch = some 0 ∧ ((s.advanceTo 0).ref 3).qualified = true ∧
      (∀ j, j ≠ 3 → ((s.advanceTo 0).ref j).qualified = false) ∧ (s.advanceTo 0).time.selected = some 3 ∧
      (s.advanceTo 0).time.state = .locked ∧ ∀ i, 1 ≤ ((s.advanceTo 0).slot i).cfg.gate) ∧
    (((withRef 3 (pps (some 0) (some 0) false) id).advanceTo 0).ref 3).qualified = false :=
  ⟨⟨⟨rfl, rfl⟩, by decide⟩, by decide, by decide, by decide, by decide, by decide, by decide, ⟨⟨rfl, rfl⟩, by decide⟩, by decide⟩

/-! ### The cycle list -/

def cycleHolding (op : DmaOp) (e : EntryPhase) : State :=
  { walking e serving with path := { serving.path with holder := some (.word ⟨.cycle, .cycle, op⟩) } }

/-- Kinds at both ends of each range, values and slot numbers at their bounds, and a return stack that is full. -/
theorem witness_EntryJudgedAndWrittenBack :
    (let s := cycleHolding (.read 0x9003) (.fetch [0, 0, 0])
     s.busQuiet ∧ s.path.holder = some (.word ⟨.cycle, .cycle, .read 0x9003⟩) ∧ s.cyc.entry = some ⟨0x9000, .fetch [0, 0, 0]⟩) ∧
    (field (0 : Word) 0 4 = 0 ∧ 8 < field (9 : Word) 0 4 ∧ field (1 : Word) 0 4 = 1 ∧ (1000000 : Word).toNat ≤ 1000000 ∧
      1000000 < (1000001 : Word).toNat) ∧
    (field (2 : Word) 0 4 = 2 ∧ (1000 : Word).toNat ∈ [1, 2, 4, 5, 8, 10, 20, 25, 40, 50, 100, 125, 200, 250, 500, 1000] ∧
      (0 : Word).toNat ∉ [1, 2, 4, 5, 8, 10, 20, 25, 40, 50, 100, 125, 200, 250, 500, 1000]) ∧
    (field (0x006 : Word) 8 4 = 0 ∧ 12 < field (0xD06 : Word) 8 4 ∧ field (0x30C06 : Word) 16 2 = 3 ∧
      12 < field (0xE07 : Word) 8 4 ∧ field (0xE07 : Word) 8 4 ≠ 15) ∧
    (field (3 : Word) 0 4 = 3 ∧ field (4 : Word) 0 4 = 4 ∧ field (5 : Word) 0 4 = 5 ∧ field (8 : Word) 0 4 = 8 ∧
      serving.cyc.zeroRun < 63 ∧ 63 ≤ ({ serving.cyc with zeroRun := 63 } : CycleEngine).zeroRun ∧
      serving.cyc.stack = [] ∧ serving.cyc.stack.length < 4 ∧ 4 ≤ ([1, 2, 3, 4] : List Addr).length) ∧
    ((0xFFEF8 : Addr).toNat % 8 = 0 ∧ serving.path.touchesKept 0xFFEF8 8 = false ∧ (0x9004 : Addr).toNat % 8 ≠ 0 ∧
      serving.path.touchesKept 0x3000 8 = true) ∧
    (let s := (cycleHolding (.read 0x9003) (.fetch [0x20C07, 0, 0])).setSlot 11 (entry .admitted)
     let s := s.setLane 11 .b (up .none)
     field (0x20C07 : Word) 0 4 = 7 ∧ field (0x20C06 : Word) 0 4 = 6 ∧ field (0x20C07 : Word) 8 4 = (11 : Slot).val + 1 ∧
      field (0x20C07 : Word) 16 2 = 2 ∧ (s.slot 11).state = .admitted ∧ (s.lane 11 .b).state = .up ∧
      (s.lane 11 .b).queue = [] ∧ (s.lane 11 .b).tx = .none ∧ (s.slot 0).state ≠ .admitted) ∧
    (let b : WriteBack := { w4 := 0, w5 := 0, w6 := 0, w7 := 0, n := 3, next := 0x9008 }
     let s := cycleHolding (.write 0x9007 0) (.writeBack [0, 0, 0, 0] b)
     s.busQuiet ∧ s.cyc.entry = some ⟨0x9000, .writeBack [0, 0, 0, 0] b⟩ ∧ b.n = 3 ∧ s.cyc.state ≠ .halting ∧
      b.next.toNat % 8 = 0 ∧ s.path.touchesKept b.next.toNat 8 = false) ∧
    (let o : OpenCmd := ⟨.cycleStop, 0, []⟩
     let s := executing o { serving with cyc := { serving.cyc with state := .halting } }
     s.cyc.state = .halting ∧ s.cmd.collection = .executing o ∧ o.cmd = .cycleStop) :=
  ⟨⟨⟨rfl, rfl⟩, rfl, rfl⟩, by decide, by decide, by decide, by decide, by decide, by decide,
    ⟨⟨rfl, rfl⟩, rfl, rfl, by decide⟩, rfl, rfl, rfl⟩

def poll : PollWork :=
  { slot := 11, retries := 3, choice := .active, alternate := true, conditions := 2, branch := false, first := some .a
    made := 1, log := []
    cur := some { plane := .a, number := 1, tag := 0, t1 := none, sent := true, timeout := some 0 } }

theorem witness_WorkEnds :
    (let s := walking (.run [6, 0, 0, 0] (.gap 0)) serving
     s.busQuiet ∧ s.cyc.entry = some ⟨0x9000, .run [6, 0, 0, 0] (.gap 0)⟩) ∧
    (let s := walking (.run [2, 0, 1, 0] (.boundary 1)) serving
     s.busQuiet ∧ s.cyc.entry = some ⟨0x9000, .run [2, 0, 1, 0] (.boundary 1)⟩ ∧ (0 : Int) < 1 ∧ s.time.inRange) ∧
    (let e := { SlotEntry.cold with cfg := { PortCfg.cold with policy := .pinA } }
     let s := (walking (.run [6, 0, 0, 0] (.poll poll)) serving).setSlot 11 e
     s.busQuiet ∧ s.cyc.entry = some ⟨0x9000, .run [6, 0, 0, 0] (.poll poll)⟩ ∧ poll.conditions.getLsbD 0 = false ∧
      ((s.advanceTo 0).slot 11).cfg.policy ≠ .auto ∧
      min (((s.advanceTo 0).slot 11).missed + 1) 15 < ((s.advanceTo 0).slot 11).cfg.missLimit) ∧
    (let e := { entry .admitted with missed := 14, cfg := { PortCfg.cold with policy := .pinA } }
     let s := (walking (.run [6, 0, 0, 0] (.poll poll)) serving).setSlot 11 e
     let u := s.advanceTo 0
     (u.slot 11).cfg.missLimit ≤ min ((u.slot 11).missed + 1) 15 ∧ (u.slot 11).state = .admitted ∧
      (u.slot 11).fenced = false ∧ (∀ q, (u.lane 11 q).queue = []) ∧ (∀ k, u.sw.queue 11 k = EgressQueue.nil) ∧
      ∀ k, (u.ref k).names 11 = false) ∧
    (∀ x ∈ [((1 : Int), 400000000, (400000000 : Int)), (400000000, 600000000, -400000000)],
      let s := walking (.run [2, 0, 1, 0] (.boundary x.1)) (judgedBy .acquiring x.2.1 (pps (some 0) none true) id)
      (s.ref 0).cfg.enabled = true ∧ (s.ref 0).cfg.kind = .ppsInput ∧
        (∀ k, k ≠ 0 → (s.ref k).cfg.enabled = false ∨ (s.ref k).cfg.kind = .slot) ∧ (s.ref 0).last = some 0 ∧
        99900000 ≤ s.osc - 0 ∧ s.osc - 0 ≤ 100100000 ∧ (s.ref 0).qualified = true ∧ s.time.selected = some 0 ∧
        s.time.state = .acquiring ∧ s.time.ns < 1000000000 ∧ s.time.disc.stepLimit ≤ x.2.2.natAbs ∧
        (if s.time.ns < 500000000 then (s.time.ns : Int) else (s.time.ns : Int) - 1000000000) = x.2.2) ∧
    ((0 : Int) < 1 + 400000000 ∧ (400000000 : Int) + -400000000 ≤ 0) :=
  ⟨⟨⟨rfl, rfl⟩, rfl⟩, ⟨⟨rfl, rfl⟩, rfl, by decide, inRange_reset⟩, ⟨⟨rfl, rfl⟩, rfl, by decide, by decide, by decide⟩,
    ⟨by decide, rfl, rfl, fun q => by cases q <;> rfl, fun k => by cases k <;> rfl, by decide⟩, by decide, by decide⟩

/-! ### Alarm points -/

/-- Contact 8 is open, which this masked point takes for an alarm. -/
def scanned (c : PointCfg) : State :=
  { serving with osc := 10000000, alarm := { serving.alarm with
      points := vset serving.alarm.points 63 { Point.cold with cfg := c } } }
def openPoint : PointCfg := { contactPoint.cfg with masked := true, whenOpen := true }

theorem witness_ScanTaken :
    (contactPoint.cfg.latching = false ∧ contactPoint.state = .clear ∧ 1 ≤ contactPoint.cfg.raiseCount) ∧
    (let u := (scanned PointCfg.cold).advanceTo (scanned PointCfg.cold).alarm.scanAt
     (scanned PointCfg.cold).busQuiet ∧ ∀ k, (u.point k).cfg.enabled = false) ∧
    (let u := (scanned openPoint).advanceTo (scanned openPoint).alarm.scanAt
     (scanned openPoint).busQuiet ∧ (∀ j, j ≠ 63 → (u.point j).cfg.enabled = false) ∧ (u.point 63).cfg.enabled = true ∧
      (u.point 63).cfg.masked = true ∧ (u.point 63).cfg.kind = .contact ∧ (u.point 63).cfg.which = (7 : Fin 8).val ∧
      (vget u.alarm.contacts 7 != (u.point 63).cfg.whenOpen) = true ∧ (u.point 63).state = .clear ∧
      (u.point 63).cfg.raiseCount = 1 ∧ u.cmd.hub ≠ .loading .load) :=
  ⟨by decide, ⟨⟨rfl, rfl⟩, by decide⟩, ⟨rfl, rfl⟩, by decide⟩

theorem witness_LogEntryWritten :
    let e : LogEntry := { addr := 0x303C, pos := 15, seq := 65535, body := .overflow 1, sec := 0, ns := 0, stale := false }
    let s := { holding .inService .alarm .log (.write 0x303F 0) with
      alarm := { serving.alarm with queue := [e], headDone := 3, logSize := 16, producer := 15 } }
    s.busQuiet ∧ s.path.holder = some (.word ⟨.alarm, .log, .write 0x303F 0⟩) ∧ s.alarm.queue = [e] ∧ s.alarm.headDone = 3 ∧
      e.stale = false := ⟨⟨rfl, rfl⟩, rfl, rfl, rfl, rfl⟩

end Sys2Proof.Tests
end

section
/-! SUPPORT. The power view of the state: of each slot what R60 and R39 speak of, and every operation of a block that moves no
slot leaves it alone. -/

namespace Sys2Proof.Machine

open Sys2Proof

/-- Of a lane port: its enable, and whether the lane is OFF (R39). -/
structure LanePower where
  enable : Bool
  off : Bool

/-- Of a slot and its two lane ports: the slot state, PWREN and the power view of the lanes (R39, R60). -/
structure SlotPower where
  state : SlotState
  pwren : Bool
  a : LanePower
  b : LanePower

def LanePort.power (l : LanePort) : LanePower := { enable := l.enable, off := l.state == .off }

/-- The power view of a slot. -/
def State.power (s : State) (i : Slot) : SlotPower :=
  { state := (s.slot i).state, pwren := (s.slot i).pwren, a := (s.lane i .a).power, b := (s.lane i .b).power }

def SlotPower.lane (x : SlotPower) : Plane → LanePower
  | .a => x.a
  | .b => x.b

/-- The view after a change of the slot's entry. -/
def SlotPower.withEntry (x : SlotPower) (st : SlotState) (on : Bool) : SlotPower := { x with state := st, pwren := on }

/-- The view after a change of one lane port. -/
def SlotPower.withLane (x : SlotPower) (p : Plane) (l : LanePower) : SlotPower :=
  match p with
  | .a => { x with a := l }
  | .b => { x with b := l }

/-- R39: a lane port with its enable on is not OFF, and one with its enable off is. -/
def LanePower.follow (on : Bool) : LanePower := { enable := on, off := !on }

/-- R60, R39 for one slot. -/
def SlotPower.follows (x : SlotPower) : Prop :=
  x.pwren = x.state.powered ∧ ∀ p, x.lane p = .follow x.state.laneOn

@[simp] theorem State.power_lane (s : State) (i : Slot) (p : Plane) : (s.power i).lane p = (s.lane i p).power := by
  cases p <;> rfl

theorem SlotState.laneOn_eq (st : SlotState) : st.laneOn = (st.powered && st != .powering) := by cases st <;> rfl

/-- The invariant, read off the power view. -/
theorem State.powerFollows_iff (s : State) : s.powerFollows ↔ ∀ i, (s.power i).follows := by
  refine forall_congr' fun i => and_congr_right fun _ => forall_congr' fun p => ?_
  rw [State.power_lane, show (s.power i).state = (s.slot i).state from rfl, SlotState.laneOn_eq]
  simp only [LanePort.power, LanePower.follow, LanePower.mk.injEq, beq_eq_decide]
  refine and_congr_right fun he => ?_
  rw [he]
  cases (s.slot i).state.powered && (s.slot i).state != .powering <;> simp

variable {s t : State}

/-- States with the same power view. -/
theorem State.powerFollows.of_power (h : s.powerFollows) (e : t.power = s.power) : t.powerFollows := by
  rw [State.powerFollows_iff] at h ⊢
  rwa [e]

theorem State.power_congr (hs : s.sm.slots = t.sm.slots) (hl : s.lanes = t.lanes) : s.power = t.power := by
  funext i
  simp only [State.power, State.slot, State.lane, hs, hl]

theorem State.power_of_apart (h : s.apart = t.apart) : s.power = t.power :=
  State.power_congr (congrArg (·.slots) (State.sm_eq_of_apart h)) (State.lanes_eq_of_apart h)

/-- An update of fields other than the slots and the lanes. -/
@[simp] theorem power_with (s : State) (pe : List Instr) (m : Memory) (pa : MemoryPath) (c : CommandUnit) (q d : Nat)
    (sw : SwitchCore) (r : RingEngine) (t : TimeBase) (cy : CycleEngine) (a : AlarmUnit) (o dr : Nat) :
    (State.mk pe m pa c s.lanes ⟨s.sm.slots, q, d⟩ sw r t cy a o dr).power = s.power := State.power_congr rfl rfl

@[simp] theorem power_with_sm (s : State) (pe : List Instr) (m : Memory) (pa : MemoryPath) (c : CommandUnit)
    (sw : SwitchCore) (r : RingEngine) (t : TimeBase) (cy : CycleEngine) (a : AlarmUnit) (o dr : Nat) :
    (State.mk pe m pa c s.lanes s.sm sw r t cy a o dr).power = s.power := State.power_congr rfl rfl

/-- A fold of operations none of which changes the power view. -/
theorem foldl_power {α : Type} (f : State → α → State) (h : ∀ s x, (f s x).power = s.power) (l : List α) (s : State) :
    (l.foldl f s).power = s.power := by
  induction l generalizing s with
  | nil => rfl
  | cons x l ih => rw [List.foldl_cons, ih, h]

/-! ## Slots and lanes -/

theorem State.setSlot_power (s : State) (i : Slot) (e : SlotEntry) :
    (s.setSlot i e).power = Function.update s.power i ((s.power i).withEntry e.state e.pwren) := by
  funext j
  by_cases h : j = i
  · subst h
    simp only [Function.update_self, State.power, SlotPower.withEntry, State.slot_setSlot_self]
    rfl
  · simp only [Function.update_of_ne h, State.power, State.slot_setSlot_ne s e (Ne.symm h)]
    rfl

theorem Plane.eq_other_of_ne {p q : Plane} (h : q ≠ p) : q = p.other := by
  cases p <;> cases q <;> simp_all [Plane.other]

theorem State.lane_setLane_same_slot (s : State) (i : Slot) (p q : Plane) (l : LanePort) :
    (s.setLane i p l).lane i q = if q = p then l else s.lane i q := by
  by_cases h : q = p
  · rw [if_pos h, h, State.lane_setLane_self]
  · rw [if_neg h, Plane.eq_other_of_ne h, State.lane_setLane_other]

theorem State.setLane_power (s : State) (i : Slot) (p : Plane) (l : LanePort) :
    (s.setLane i p l).power = Function.update s.power i ((s.power i).withLane p l.power) := by
  have hslot (j : Slot) : (s.setLane i p l).slot j = s.slot j := rfl
  funext j
  by_cases h : j = i
  · subst h
    cases p <;> simp [State.power, SlotPower.withLane, hslot, State.lane_setLane_same_slot]
  · simp only [Function.update_of_ne h, State.power, State.lane_setLane_ne s p _ l (Ne.symm h), hslot]

/-- A change of a slot's entry that keeps the slot state and PWREN. -/
@[simp] theorem State.setSlot_power_same {i : Slot} {e : SlotEntry} (hst : e.state = (s.slot i).state)
    (hpw : e.pwren = (s.slot i).pwren) : (s.setSlot i e).power = s.power := by
  rw [State.setSlot_power, hst, hpw]
  exact Function.update_eq_self i s.power

/-- A change of a lane port that keeps its enable and its lane state. -/
@[simp] theorem State.setLane_power_same {i : Slot} {p : Plane} {l : LanePort} (he : l.enable = (s.lane i p).enable)
    (hst : l.state = (s.lane i p).state) : (s.setLane i p l).power = s.power := by
  have hx : (s.power i).withLane p l.power = s.power i := by
    rw [LanePort.power, he, hst]
    cases p <;> rfl
  rw [State.setLane_power, hx, Function.update_eq_self]

/-! ## Reports to the command unit -/

@[simp] theorem retouch_power (offs : List Nat) (s t : State) : (retouch offs s t).power = t.power := rfl
@[simp] theorem reimage_power (ws : List ImgWord) (s t : State) : (reimage ws s t).power = t.power := rfl
@[simp] theorem State.deliver_power (s : State) (c : Cause) : (s.deliver c).power = s.power := rfl
@[simp] theorem State.setRecord_power (s : State) (r : CmdRecord) : (s.setRecord r).power = s.power := rfl
@[simp] theorem State.setRing_power (s : State) (r : RingEngine) : (s.setRing r).power = s.power := rfl
@[simp] theorem State.setCyc_power (s : State) (c : CycleEngine) : (s.setCyc c).power = s.power := rfl
@[simp] theorem State.setSw_power (s : State) (w : SwitchCore) : (s.setSw w).power = s.power := rfl
@[simp] theorem State.setAlarm_power (s : State) (a : AlarmUnit) : (s.setAlarm a).power = s.power := rfl
@[simp] theorem State.snapshot_power (s : State) (sec ns : Nat) : (s.snapshot sec ns).power = s.power := rfl
@[simp] theorem State.guardHit_power (s : State) (a : Addr) : (s.guardHit a).power = s.power := rfl
@[simp] theorem State.putPoint_power (s : State) (k : Fin 64) (p : Point) : (s.putPoint k p).power = s.power := rfl
@[simp] theorem State.finish_power (s : State) (code : Nat) (r : CmdResult) (item : FailItem) (clamped : Bool) :
    (s.finish code r item clamped).power = s.power := rfl
@[simp] theorem State.finishWith_power (s : State) (c : Command) (r : CmdResult) : (s.finishWith c r).power = s.power := rfl
@[simp] theorem State.finishAnswer_power (s : State) (c : Command) (a : Answer) : (s.finishAnswer c a).power = s.power := rfl
@[simp] theorem State.refuse_power (s : State) (why : RefusalReason) (offset code : Nat) :
    (s.refuse why offset code).power = s.power := rfl
@[simp] theorem State.startTransfer_power (s : State) (t : Transfer) : (s.startTransfer t).power = s.power := rfl

@[simp] theorem State.finishIf_power (s : State) (c : Command) : (s.finishIf c).power = s.power := by
  unfold State.finishIf
  (repeat' split) <;> simp

/-- R77: only the entry itself counts for the power view. -/
theorem State.putSlot_power (s : State) (i : Slot) (e : SlotEntry) : (s.putSlot i e).power = (s.setSlot i e).power := by
  unfold State.putSlot
  dsimp only
  split <;> simp

@[simp] theorem State.fillCommand_power (s : State) : s.fillCommand.power = s.power :=
  State.power_of_apart s.fillCommand_apart

/-! ## Alarm unit -/

@[simp] theorem State.judgeRelays_power (s : State) : s.judgeRelays.power = s.power := rfl
@[simp] theorem State.assignEntry_power (s : State) (b : LogBody) : (s.assignEntry b).power = s.power := rfl
@[simp] theorem State.addOverflow_power (s : State) (n : Nat) : (s.addOverflow n).power = s.power := rfl
@[simp] theorem State.assignOverflow_power (s : State) : s.assignOverflow.power = s.power := rfl
@[simp] theorem State.markLinkError_power (s : State) (i : Slot) : (s.markLinkError i).power = s.power := rfl
@[simp] theorem State.markSurprise_power (s : State) (i : Slot) : (s.markSurprise i).power = s.power := rfl
@[simp] theorem State.markDrop_power (s : State) (p : Fin 13) : (s.markDrop p).power = s.power := rfl
@[simp] theorem State.markMissed_power (s : State) : s.markMissed.power = s.power := rfl
@[simp] theorem State.alarmLeaves_power (s : State) : s.alarmLeaves.power = s.power := rfl

@[simp] theorem State.placeChange_power (s : State) (b : LogBody) : (s.placeChange b).power = s.power := by
  unfold State.placeChange
  (repeat' split) <;> simp

@[simp] theorem State.movePoint_power (s : State) (k : Fin 64) (p : Point) : (s.movePoint k p).power = s.power := by
  unfold State.movePoint
  dsimp only
  (repeat' split) <;> simp

@[simp] theorem State.scanPoint_power (at0 s : State) (k : Fin 64) : (State.scanPoint at0 s k).power = s.power := by
  unfold State.scanPoint
  dsimp only
  split <;> simp

@[simp] theorem State.scan_power (s : State) : s.scan.power = s.power := by
  unfold State.scan
  dsimp only
  split
  · rfl
  · rw [power_with_sm, foldl_power _ (by simp)]

@[simp] theorem State.observeCard_power (s : State) (i : Slot) (flags : BitVec 4) (codes : List Byte) :
    (s.observeCard i flags codes).power = s.power :=
  foldl_power _ (fun s k => by dsimp only; split <;> simp) _ _

@[simp] theorem State.clearCardPoints_power (s : State) (i : Slot) : (s.clearCardPoints i).power = s.power :=
  foldl_power _ (fun s k => by dsimp only; split <;> simp) _ _

@[simp] theorem State.resetPoint_power (s : State) (k : Fin 64) : (s.resetPoint k).power = s.power := by
  unfold State.resetPoint
  dsimp only
  split <;> simp

theorem State.alarmResetOp_power {v : Nat} (h : s.alarmResetOp v = some t) : t.power = s.power := by
  unfold State.alarmResetOp at h
  split at h
  · obtain rfl := Option.some.inj h
    exact s.resetPoint_power _
  · split at h
    · obtain rfl := Option.some.inj h
      exact foldl_power _ State.resetPoint_power _ _
    · exact nomatch h

@[simp] theorem State.emptyPoints_power (s : State) : s.emptyPoints.power = s.power :=
  foldl_power _ (by simp) _ _

@[simp] theorem State.consumerWrite_power (s : State) (v : Word) : (s.consumerWrite v).power = s.power := by
  unfold State.consumerWrite
  dsimp only
  (repeat' split) <;> rfl

@[simp] theorem State.alarmEnters_power (s : State) (base size : Nat) : (s.alarmEnters base size).power = s.power := by
  unfold State.alarmEnters
  dsimp only
  split <;> simp

@[simp] theorem State.logWordDone_power (s : State) : s.logWordDone.power = s.power := by
  unfold State.logWordDone
  dsimp only
  (repeat' split) <;> simp

/-! ## Pool and lanes -/

@[simp] theorem State.bump_power (s : State) (p : Fin 13) (f : PortCounters → PortCounters) : (s.bump p f).power = s.power :=
  rfl
@[simp] theorem State.roomReport_power (s : State) : s.roomReport.power = s.power := rfl

@[simp] theorem State.dropClaim_power (s : State) (id : Nat) : (s.dropClaim id).power = s.power := by
  unfold State.dropClaim
  dsimp only
  split <;> simp

@[simp] theorem State.reportStart_power (s : State) (f : CtlFrame) : (s.reportStart f).power = s.power := by
  unfold State.reportStart
  split <;> simp

@[simp] theorem State.startData_power (s : State) (i : Slot) (p : Plane) (c : Cls) (id : Nat) :
    (s.startData i p c id).power = s.power := by
  unfold State.startData
  rw [power_with_sm]
  exact State.setLane_power_same rfl rfl

@[simp] theorem State.kickLane_power (s : State) (i : Slot) (p : Plane) : (s.kickLane i p).power = s.power := by
  unfold State.kickLane
  dsimp only
  (repeat' split) <;> simp

@[simp] theorem State.kickSlot_power (s : State) (i : Slot) : (s.kickSlot i).power = s.power := by
  simp [State.kickSlot]

@[simp] theorem State.submit_power (s : State) (i : Slot) (p : Plane) (f : CtlFrame) : (s.submit i p f).1.power = s.power := by
  unfold State.submit
  dsimp only
  split <;> simp [LanePort.countNotSent]

theorem LanePort.settled_enable (l : LanePort) (st : LaneState) (sent : List Byte) : (l.settled st sent).enable = l.enable := by
  unfold LanePort.settled LanePort.countPartial LanePort.countResend LanePort.countNotSent
  dsimp only
  (repeat' split) <;> rfl

theorem LanePort.settled_state (l : LanePort) (st : LaneState) (sent : List Byte) : (l.settled st sent).state = st := rfl

/-- R41: a lane that leaves UP takes its new lane state and keeps its enable. -/
theorem State.leaveUp_power (s : State) (i : Slot) (p : Plane) (st : LaneState) :
    (s.leaveUp i p st).power =
      Function.update s.power i ((s.power i).withLane p ⟨(s.lane i p).enable, st == .off⟩) := by
  have key (sent : List Byte) : (s.setLane i p ((s.lane i p).settled st sent)).power =
      Function.update s.power i ((s.power i).withLane p ⟨(s.lane i p).enable, st == .off⟩) := by
    rw [State.setLane_power, LanePort.power, LanePort.settled_enable, LanePort.settled_state]
  unfold State.leaveUp
  dsimp only
  split
  · exact key _
  · rw [power_with_sm, key]
  · rw [State.kickLane_power, State.dropClaim_power, power_with_sm, key]

@[simp] theorem State.frameStart_power (s : State) (i : Slot) (p : Plane) (bs : List Byte) :
    (s.frameStart i p bs).power = s.power := by
  unfold State.frameStart
  dsimp only
  (repeat' split) <;> simp [LanePort.countPartial]

/-! ## Switch core -/

@[simp] theorem State.countLoss_power (s : State) (x : Fin 13 × Loss) : (s.countLoss x).power = s.power := by
  unfold State.countLoss
  dsimp only
  split <;> simp

@[simp] theorem State.countLosses_power (s : State) (xs : List (Fin 13 × Loss)) : (s.countLosses xs).power = s.power :=
  foldl_power _ State.countLoss_power _ _

@[simp] theorem State.kickPorts_power (s : State) (ps : List (Fin 13)) : (s.kickPorts ps).power = s.power :=
  foldl_power _ (fun s p => by split <;> simp) _ _

@[simp] theorem State.place_power (s : State) (c : Cls) (header payload : List Byte) (b : Nat) (ps : List (Fin 13)) :
    (s.place c header payload b ps).power = s.power := by
  simp [State.place]

@[simp] theorem State.placeLoading_power (s : State) (c : Cls) (header : List Byte) (b : Nat) (ps : List (Fin 13)) :
    (s.placeLoading c header b ps).power = s.power := rfl

@[simp] theorem State.takeCardFrame_power (s : State) (i : Slot) (header payload : List Byte) :
    (s.takeCardFrame i header payload).power = s.power := by
  unfold State.takeCardFrame
  dsimp only
  (repeat' split) <;> simp

@[simp] theorem State.offer_power (s : State) (d : Nat) (c : Cls) (n : Nat) : (s.offer d c n).1.power = s.power := by
  unfold State.offer
  dsimp only
  (repeat' split) <;> simp

@[simp] theorem State.loadComplete_power (s : State) (id : Nat) (payload : List Byte) :
    (s.loadComplete id payload).power = s.power := by
  simp [State.loadComplete]

@[simp] theorem State.loadAbandon_power (s : State) (id : Nat) : (s.loadAbandon id).power = s.power := by
  unfold State.loadAbandon
  dsimp only
  split <;> simp

@[simp] theorem State.frameSent_power (s : State) (i : Slot) (c : Cls) (id : Nat) : (s.frameSent i c id).power = s.power := rfl

@[simp] theorem State.leaveQueue0_power (s : State) (id : Nat) (f : PortCounters → PortCounters) :
    (s.leaveQueue0 id f).power = s.power := by
  unfold State.leaveQueue0
  dsimp only
  split <;> simp

@[simp] theorem State.abandonTx_power (i : Slot) (c : Cls) (s : State) (p : Plane) :
    (State.abandonTx i c s p).power = s.power := by
  unfold State.abandonTx
  dsimp only
  split
  · split
    · rw [State.dropClaim_power, power_with_sm]
      exact State.setLane_power_same rfl rfl
    · rfl
  · rfl

@[simp] theorem State.emptyQueue_power (i : Slot) (s : State) (c : Cls) : (State.emptyQueue i s c).power = s.power := by
  unfold State.emptyQueue
  dsimp only
  split <;> simp

@[simp] theorem State.flush_power (s : State) (i : Slot) (cs : List Cls) : (s.flush i cs).power = s.power := by
  rw [State.flush, State.kickSlot_power, foldl_power _ (by simp)]

@[simp] theorem State.flushBoth_power (s : State) (i : Slot) : (s.flushBoth i).power = s.power := s.flush_power i _

@[simp] theorem State.flushQueue0_power (s : State) : s.flushQueue0.power = s.power := by
  unfold State.flushQueue0
  dsimp only
  split <;> simp

@[simp] theorem State.takeQuality_power (s : State) (q : Nat) : (s.takeQuality q).power = s.power := by
  unfold State.takeQuality
  rw [foldl_power _ (fun s i => by split <;> simp), power_with_sm]

/-! ## Cycle engine: the walk -/

@[simp] theorem State.cycleEnds_power (s : State) : s.cycleEnds.power = s.power := rfl
@[simp] theorem State.cycleFault_power (s : State) (k : CycleFaultKind) : (s.cycleFault k).power = s.power := rfl
@[simp] theorem State.endEntry_power (s : State) (a : Addr) (ws : List Word) (r : EntryResult) :
    (s.endEntry a ws r).power = s.power := rfl
@[simp] theorem State.enterRun_power (s : State) (a : Addr) (ws : List Word) (w : Work) :
    (s.enterRun a ws w).power = s.power := rfl

@[simp] theorem State.cycleGo_power (s : State) (a : Addr) : (s.cycleGo a).power = s.power := by
  unfold State.cycleGo
  split <;> simp

@[simp] theorem State.endWait_power (s : State) (o : EntryOutcome) : (s.endWait o).power = s.power := by
  unfold State.endWait
  (repeat' split) <;> simp

@[simp] theorem State.boundaryStep_power (s : State) (e : Int) : (s.boundaryStep e).power = s.power := by
  unfold State.boundaryStep
  dsimp only
  (repeat' split) <;> simp

@[simp] theorem State.boundaryElapsed_power (s : State) : s.boundaryElapsed.power = s.power := by
  unfold State.boundaryElapsed
  (repeat' split) <;> simp

theorem State.zeroTime_power (s : State) {go : State → State} (h : ∀ s, (go s).power = s.power) :
    (s.zeroTime go).power = s.power := by
  unfold State.zeroTime
  dsimp only
  split <;> simp [h]

/-! ## Time base -/

@[simp] theorem State.putTime_power (s : State) (t : TimeBase) : (s.putTime t).power = s.power := by
  unfold State.putTime
  dsimp only
  split <;> simp

@[simp] theorem State.glide_power (s : State) (n : Nat) : (s.glide n).power = s.power := rfl

@[simp] theorem State.rollover_power (s : State) : s.rollover.power = s.power := by
  simp [State.rollover]

@[simp] theorem State.carry_power (s : State) : s.carry.power = s.power := by
  unfold State.carry
  split <;> simp

@[simp] theorem State.stretch_power (s : State) (k : Nat) : (s.stretch k).power = s.power := by
  simp [State.stretch]

theorem State.runOsc_power (fuel : Nat) (s : State) (n : Nat) : (State.runOsc fuel s n).power = s.power := by
  induction fuel generalizing s n with
  | zero => rfl
  | succ k ih => unfold State.runOsc; split <;> simp [ih]

@[simp] theorem State.advance_power (s : State) (n : Nat) : (s.advance n).power = s.power := State.runOsc_power n s n

@[simp] theorem State.advanceTo_power (s : State) (t : Nat) : (s.advanceTo t).power = s.power := s.advance_power _

@[simp] theorem State.disqualifySlot_power (s : State) (i : Slot) : (s.disqualifySlot i).power = s.power := by
  simp [State.disqualifySlot]

@[simp] theorem State.timeStep_power (s : State) (e : Int) : (s.timeStep e).power = s.power := by
  unfold State.timeStep
  extract_lets m u v back ns t
  have ht : t.power = s.power := by
    unfold t
    split
    · rw [State.snapshot_power, State.putTime_power]
    · split
      · rw [State.snapshot_power, State.putTime_power]
      · rw [State.putTime_power]
  rw [State.boundaryStep_power, ht]

@[simp] theorem State.loop_power (s : State) (n : Nat) : (s.loop n).power = s.power := by
  unfold State.loop
  dsimp only
  split <;> simp

@[simp] theorem State.ppsEdge_power (s : State) : s.ppsEdge.power = s.power := by
  unfold State.ppsEdge
  dsimp only
  split <;> simp

@[simp] theorem State.refArrival_power (s : State) (i : Slot) (st : Stamp) : (s.refArrival i st).power = s.power := by
  unfold State.refArrival
  dsimp only
  (repeat' split) <;> simp

@[simp] theorem State.setTimeOp_power (s : State) (v : Word) : (s.setTimeOp v).power = s.power := rfl

@[simp] theorem State.setDisciplineOp_power (s : State) (ps : List Word) : (s.setDisciplineOp ps).1.power = s.power := by
  simp [State.setDisciplineOp]

/-! ## Polls and TIME sends -/

/-- A change of a slot's entry with what it tells the other blocks: only the entry counts for the power view. -/
theorem State.changeSlot_power (s : State) (i : Slot) (new : SlotEntry) :
    (s.changeSlot i new).power = (s.setSlot i new).power := by
  unfold State.changeSlot
  dsimp only
  (repeat' split) <;> simp [State.putSlot_power]

theorem SlotEntry.setDelay_state (e : SlotEntry) (p : Plane) (d : Delay) : (e.setDelay p d).state = e.state := by
  cases p <;> rfl

theorem SlotEntry.setDelay_pwren (e : SlotEntry) (p : Plane) (d : Delay) : (e.setDelay p d).pwren = e.pwren := by
  cases p <;> rfl

theorem Sampling.attempt_power (up : Plane → Bool) (g : Sampling) (a : AttemptRec) :
    (g.attempt up a).entry.state = g.entry.state ∧ (g.attempt up a).entry.pwren = g.entry.pwren := by
  unfold Sampling.attempt
  (repeat' split) <;> simp [SlotEntry.setDelay_state, SlotEntry.setDelay_pwren]

theorem Sampling.attempts_power (up : Plane → Bool) (log : List AttemptRec) (g : Sampling) :
    (log.foldl (Sampling.attempt up) g).entry.state = g.entry.state ∧
      (log.foldl (Sampling.attempt up) g).entry.pwren = g.entry.pwren := by
  induction log generalizing g with
  | nil => exact ⟨rfl, rfl⟩
  | cons a log ih =>
    obtain ⟨hst, hpw⟩ := ih (g.attempt up a)
    obtain ⟨hst1, hpw1⟩ := g.attempt_power up a
    exact ⟨hst.trans hst1, hpw.trans hpw1⟩

theorem SlotEntry.judgePlane_power (e : SlotEntry) (up : Plane → Bool) (log : List AttemptRec) :
    (e.judgePlane up log).state = e.state ∧ (e.judgePlane up log).pwren = e.pwren := by
  unfold SlotEntry.judgePlane
  (repeat' split) <;> exact ⟨rfl, rfl⟩

theorem SlotEntry.judgeMiss_power (e : SlotEntry) (final : AttemptOutcome) :
    (e.judgeMiss final).state = e.state ∧ (e.judgeMiss final).pwren = e.pwren := by
  unfold SlotEntry.judgeMiss
  dsimp only
  (repeat' split) <;> exact ⟨rfl, rfl⟩

/-- R154: a finished poll moves no slot. -/
@[simp] theorem State.takePoll_power (s : State) (i : Slot) (log : List AttemptRec) (final : AttemptOutcome) :
    (s.takePoll i log final).1.power = s.power := by
  unfold State.takePoll
  extract_lets up g e t
  obtain ⟨hst, hpw⟩ := Sampling.attempts_power up log { entry := s.slot i, discarded := 0, last := none }
  obtain ⟨hst1, hpw1⟩ := g.entry.judgePlane_power up log
  obtain ⟨hst2, hpw2⟩ := (g.entry.judgePlane up log).judgeMiss_power final
  rw [State.changeSlot_power]
  exact State.setSlot_power_same (hst2.trans (hst1.trans hst)) (hpw2.trans (hpw1.trans hpw))

@[simp] theorem State.setPoll_power (s : State) (a : Addr) (ws : List Word) (w : PollWork) :
    (s.setPoll a ws w).power = s.power := rfl
@[simp] theorem State.pollResult_power (s : State) (a : Addr) (ws : List Word) (w : PollWork) (final : AttemptOutcome)
    (r : Option Nat) : (s.pollResult a ws w final r).power = s.power := rfl
@[simp] theorem State.pollAbsent_power (s : State) (a : Addr) (ws : List Word) (w : PollWork) :
    (s.pollAbsent a ws w).power = s.power := rfl

@[simp] theorem State.pollFinish_power (s : State) (a : Addr) (ws : List Word) (w : PollWork) (final : AttemptOutcome) :
    (s.pollFinish a ws w final).power = s.power := by
  unfold State.pollFinish
  dsimp only
  split <;> simp

@[simp] theorem State.pollGo_power (fuel : Nat) (s : State) (a : Addr) (ws : List Word) (w : PollWork) :
    (State.pollGo fuel s a ws w).power = s.power := by
  induction fuel generalizing s w with
  | zero => rfl
  | succ k ih =>
    unfold State.pollGo
    dsimp only
    (repeat' split) <;> simp [ih]

@[simp] theorem State.attemptEnds_power (s : State) (o : AttemptOutcome) : (s.attemptEnds o).power = s.power := by
  unfold State.attemptEnds
  dsimp only
  (repeat' split) <;> simp

@[simp] theorem State.pollLeaves_power (s : State) (i : Slot) : (s.pollLeaves i).power = s.power := by
  unfold State.pollLeaves
  (repeat' split) <;> simp

@[simp] theorem State.pollFailedFrame_power (s : State) (i : Slot) (p : Plane) : (s.pollFailedFrame i p).power = s.power := by
  unfold State.pollFailedFrame
  (repeat' split) <;> simp

@[simp] theorem State.pollLaneDown_power (s : State) (i : Slot) (p : Plane) : (s.pollLaneDown i p).power = s.power := by
  unfold State.pollLaneDown
  (repeat' split) <;> simp

@[simp] theorem State.takeStatus_power (s : State) (i : Slot) (p : Plane) (payload : List Byte) (t4 : Stamp) :
    (s.takeStatus i p payload t4).power = s.power := by
  unfold State.takeStatus
  dsimp only
  (repeat' split) <;> simp

@[simp] theorem State.pollTimeout_power (s : State) : s.pollTimeout.power = s.power := by
  unfold State.pollTimeout
  (repeat' split) <;> simp

@[simp] theorem State.timeJudge_power (s : State) (a : Addr) (ws : List Word) (w : TimeWork) :
    (s.timeJudge a ws w).power = s.power := by
  unfold State.timeJudge
  split <;> simp

@[simp] theorem State.countTimeNotSent_power (s : State) : s.countTimeNotSent.power = s.power := rfl

theorem State.timeSubmit_power (choice : PlaneChoice) (x : State × TimeWork) (i : Slot) :
    (State.timeSubmit choice x i).1.power = x.1.power := by
  unfold State.timeSubmit
  extract_lets p r
  have hr : r.1.power = x.1.power := State.submit_power ..
  by_cases hq : r.2 = true
  · rw [if_pos hq, hr]
  · rw [if_neg hq, State.countTimeNotSent_power, hr]

theorem State.timeSubmits_power (choice : PlaneChoice) (l : List Slot) (x : State × TimeWork) :
    (l.foldl (State.timeSubmit choice) x).1.power = x.1.power := by
  induction l generalizing x with
  | nil => rfl
  | cons i l ih => rw [List.foldl_cons, ih, State.timeSubmit_power]

@[simp] theorem State.timeRun_power (s : State) (a : Addr) (ws : List Word) (target : Nat) (choice : PlaneChoice) :
    (s.timeRun a ws target choice).power = s.power := by
  unfold State.timeRun
  extract_lets targets w s1
  split
  · rw [State.endEntry_power, power_with_sm]
  · rw [State.timeJudge_power, State.timeSubmits_power, power_with_sm]

@[simp] theorem State.reportControl_power (s : State) (sent : Bool) (f : CtlFrame) : (s.reportControl sent f).power = s.power := by
  unfold State.reportControl
  dsimp only
  (repeat' split) <;> simp

@[simp] theorem State.reportUnsent_power (s : State) (fs : List CtlFrame) : (s.reportUnsent fs).power = s.power :=
  foldl_power _ (by simp) _ _

end Sys2Proof.Machine
end

section
/-! SUPPORT. Slots that move: a slot enters a state with PWREN as R60 gives it, and its lanes follow (R39). -/

namespace Sys2Proof.Machine

open Sys2Proof

variable {s t : State}

/-! ## The lanes follow the slot state (R39) -/

theorem SlotEntry.recordLane_state (e : SlotEntry) (p : Plane) (st : LaneState) : (e.recordLane p st).state = e.state := by
  unfold SlotEntry.recordLane
  dsimp only
  split <;> cases p <;> rfl

theorem SlotEntry.recordLane_pwren (e : SlotEntry) (p : Plane) (st : LaneState) : (e.recordLane p st).pwren = e.pwren := by
  unfold SlotEntry.recordLane
  dsimp only
  split <;> cases p <;> rfl

/-- R40: recording a lane state in the port table moves nothing. -/
theorem State.putSlot_recordLane_power (s : State) (i : Slot) (p : Plane) (st : LaneState) :
    (s.putSlot i ((s.slot i).recordLane p st)).power = s.power := by
  rw [State.putSlot_power]
  exact State.setSlot_power_same (SlotEntry.recordLane_state ..) (SlotEntry.recordLane_pwren ..)

theorem SlotPower.withLane_withLane (x : SlotPower) (p : Plane) (l m : LanePower) :
    (x.withLane p l).withLane p m = x.withLane p m := by
  cases p <;> rfl

/-- R39, R41: the enable of one lane goes off, and the lane with it. -/
theorem State.laneOff_power (i : Slot) (s : State) (p : Plane) :
    (State.laneOff i s p).power = Function.update s.power i ((s.power i).withLane p (.follow false)) := by
  unfold State.laneOff
  extract_lets l fs t u
  have ht : Function.update t.power i ((t.power i).withLane p (.follow false)) =
      Function.update s.power i ((s.power i).withLane p (.follow false)) := by
    unfold t
    split
    · rw [State.leaveUp_power, Function.update_self, SlotPower.withLane_withLane, Function.update_idem]
    · rfl
  rw [State.reportUnsent_power, State.putSlot_recordLane_power, ← ht]
  exact State.setLane_power ..

/-- R39: the enable of one lane comes on, and the lane is not OFF. -/
theorem State.laneOn_power (i : Slot) (s : State) (p : Plane) :
    (State.laneOn i s p).power = Function.update s.power i ((s.power i).withLane p (.follow true)) := by
  unfold State.laneOn
  dsimp only
  split
  · exact (State.putSlot_recordLane_power _ i p _).trans (State.setLane_power ..)
  · next h =>
    rw [State.setLane_power, LanePort.power, beq_eq_false_iff_ne.mpr h]
    rfl

/-- The view after both lanes of a slot have followed its state. -/
theorem SlotPower.follows_withLanes {x : SlotPower} (h : x.pwren = x.state.powered) :
    ((x.withLane .a (.follow x.state.laneOn)).withLane .b (.follow x.state.laneOn)).follows :=
  ⟨h, fun p => by cases p <;> rfl⟩

/-- R39: both lanes follow the slot's state. Before, they still follow the state `was`, while PWREN and every other slot
follow their states. -/
theorem State.followEnable_powerFollows {i : Slot} {was : SlotState} (others : ∀ j, j ≠ i → (s.power j).follows)
    (pwren : (s.power i).pwren = (s.power i).state.powered) (lanes : ∀ p, (s.power i).lane p = .follow was.laneOn) :
    (s.followEnable i was).powerFollows := by
  have moved {u : State} (x : SlotPower) (hx : x.follows) (hu : u.power = Function.update s.power i x) : u.powerFollows := by
    rw [State.powerFollows_iff, hu]
    intro j
    by_cases hj : j = i
    · subst hj
      rwa [Function.update_self]
    · rw [Function.update_of_ne hj]
      exact others j hj
  have both := SlotPower.follows_withLanes pwren
  unfold State.followEnable
  dsimp only
  split
  · next heq =>
    refine moved (s.power i) ⟨pwren, ?_⟩ (Function.update_eq_self i s.power).symm
    rw [show (s.power i).state.laneOn = was.laneOn from heq.symm]
    exact lanes
  · split
    · next hon =>
      rw [show (s.power i).state.laneOn = true from hon] at both
      refine moved _ both ?_
      simp [State.laneOn_power]
    · next hoff =>
      rw [show (s.power i).state.laneOn = false from eq_false_of_ne_true hoff] at both
      refine moved _ both ?_
      simp [State.laneOff_power]

/-- R60: a slot's entry is replaced by one whose PWREN goes with its state, with everything the change brings. -/
theorem State.powerFollows.moveSlot (h : s.powerFollows) {i : Slot} {new : SlotEntry} (hn : new.pwren = new.state.powered) :
    (s.moveSlot i new).powerFollows := by
  unfold State.moveSlot
  extract_lets old s1 s2
  have h2 : s2.power = Function.update s.power i ((s.power i).withEntry new.state new.pwren) := by
    have h1 : s1.power = _ := (s.changeSlot_power i new).trans (s.setSlot_power i new)
    unfold s2
    split
    · rw [State.pollLeaves_power, h1]
    · exact h1
  have hs := s.powerFollows_iff.mp h
  refine State.followEnable_powerFollows (fun j hj => ?_) ?_ ?_
  · rw [h2, Function.update_of_ne hj]
    exact hs j
  · rw [h2, Function.update_self]
    exact hn
  · rw [h2, Function.update_self]
    exact (hs i).2

/-! ## Slots enter states (4.3, 4.6, 4.7) -/

/-- A fold of operations each of which keeps the invariant. -/
theorem State.powerFollows.foldl {α : Type} {f : State → α → State}
    (hf : ∀ (s : State) (x : α), s.powerFollows → (f s x).powerFollows) (h : s.powerFollows) (l : List α) :
    (l.foldl f s).powerFollows := by
  induction l generalizing s with
  | nil => exact h
  | cons x l ih => exact ih (hf s x h)

/-- An entry on entering a state has PWREN as R60 gives it. -/
theorem SlotEntry.enter_pwren (e : SlotEntry) (st : SlotState) (osc : Nat) : (e.enter st osc).pwren = st.powered := rfl

theorem State.powerFollows.enterSlot (h : s.powerFollows) {i : Slot} {st : SlotState} {f : SlotEntry → SlotEntry} :
    (s.enterSlot i st f).powerFollows := h.moveSlot (SlotEntry.enter_pwren ..)

theorem State.powerFollows.enterTraining (h : s.powerFollows) {i : Slot} : (s.enterTraining i).powerFollows :=
  h.enterSlot

theorem State.powerFollows.enterPowering (h : s.powerFollows) {i : Slot} {f : SlotEntry → SlotEntry} :
    (s.enterPowering i f).powerFollows := by
  unfold State.enterPowering
  dsimp only
  split
  · exact h.enterSlot.enterTraining
  · exact h.enterSlot

theorem State.powerFollows.judgeSeated (h : s.powerFollows) {i : Slot} : (s.judgeSeated i).powerFollows := by
  unfold State.judgeSeated
  split
  · exact h.enterPowering
  · exact h

theorem State.powerFollows.enterSeated (h : s.powerFollows) {i : Slot} {f : SlotEntry → SlotEntry} :
    (s.enterSeated i f).powerFollows := h.enterSlot.judgeSeated

theorem State.powerFollows.enterFaulted (h : s.powerFollows) {i : Slot} {r : FailReason} :
    (s.enterFaulted i r).powerFollows := h.enterSlot

theorem State.powerFollows.enterDraining (h : s.powerFollows) {i : Slot} {c : DrainCause} :
    (s.enterDraining i c).powerFollows := h.enterSlot

theorem State.overtake_power (s : State) (i : Slot) (t : State) (p : Plane) : (s.overtake i t p).power = t.power := by
  unfold State.overtake
  split
  · split
    · exact State.setLane_power_same rfl rfl
    · rfl
  · rfl

theorem State.powerFollows.identExpired (h : s.powerFollows) {i : Slot} : (s.identExpired i).powerFollows :=
  h.enterFaulted.of_power (foldl_power _ (s.overtake_power i) _ _)

theorem State.powerFollows.endDrain (h : s.powerFollows) {i : Slot} : (s.endDrain i).powerFollows := by
  unfold State.endDrain
  split
  · exact h.enterSlot
  · exact h.enterSeated

/-! ## Pins and timers (R61 to R63, R68, R72, R73) -/

/-- A change of a slot's entry that keeps the slot state and PWREN. -/
theorem State.powerFollows.setSlot (h : s.powerFollows) {i : Slot} {e : SlotEntry} (hst : e.state = (s.slot i).state)
    (hpw : e.pwren = (s.slot i).pwren) : (s.setSlot i e).powerFollows := h.of_power (State.setSlot_power_same hst hpw)

theorem State.powerFollows.presenceOn (h : s.powerFollows) {i : Slot} : (s.presenceOn i).powerFollows := by
  unfold State.presenceOn
  dsimp only
  split <;> exact h.setSlot rfl rfl

theorem State.powerFollows.presenceOff (h : s.powerFollows) {i : Slot} : (s.presenceOff i).powerFollows := by
  have h1 : (s.setSlot i { s.slot i with pres := false }).powerFollows := h.setSlot rfl rfl
  unfold State.presenceOff
  dsimp only
  split
  · exact h1.setSlot (by rw [State.slot_setSlot_self]) (by rw [State.slot_setSlot_self])
  · refine (show State.powerFollows _ from ?_).enterSlot
    split
    · exact h1.of_power (State.markSurprise_power ..)
    · exact h1

theorem State.powerFollows.latchOn (h : s.powerFollows) {i : Slot} : (s.latchOn i).powerFollows := by
  have h1 : (s.setSlot i { s.slot i with latch := true }).powerFollows := h.setSlot rfl rfl
  unfold State.latchOn
  dsimp only
  split
  · exact h1.enterSeated
  · exact h1.judgeSeated
  · exact h1

theorem State.powerFollows.latchOff (h : s.powerFollows) {i : Slot} : (s.latchOff i).powerFollows := by
  have h1 : (s.setSlot i { s.slot i with latch := false }).powerFollows := h.setSlot rfl rfl
  unfold State.latchOff
  dsimp only
  split
  case h_4 => exact h1.enterDraining -- ADMITTED
  case h_8 => exact h1 -- EMPTY, SEATED, DRAINING, RELEASED
  all_goals exact h1.enterSlot

theorem State.powerFollows.powerGoodOn (h : s.powerFollows) {i : Slot} : (s.powerGoodOn i).powerFollows := by
  have h1 : (s.setSlot i { s.slot i with pgood := true }).powerFollows := h.setSlot rfl rfl
  unfold State.powerGoodOn
  dsimp only
  split
  · exact h1.enterTraining
  · exact h1

theorem State.powerFollows.powerGoodOff (h : s.powerFollows) {i : Slot} : (s.powerGoodOff i).powerFollows := by
  have h1 : (s.setSlot i { s.slot i with pgood := false }).powerFollows := h.setSlot rfl rfl
  unfold State.powerGoodOff
  dsimp only
  split
  case h_4 => exact h1.endDrain -- DRAINING
  case h_5 => exact h1 -- the states in which a loss is not judged
  all_goals exact h1.enterFaulted

theorem State.powerFollows.backoffDone (h : s.powerFollows) {i : Slot} : (s.backoffDone i).powerFollows := by
  unfold State.backoffDone
  split
  · exact h.enterSlot
  · split
    · exact h.enterPowering
    · exact h.enterSeated

/-! ## The admission exchange and lane events (R64 to R69, R159, R161) -/

theorem State.requestIdent_power (s : State) (i : Slot) (p : Plane) : (s.requestIdent i p).power = s.power :=
  State.submit_power ..

theorem State.powerFollows.judgeIdent (h : s.powerFollows) {i : Slot} {p : Plane} {bs : List Byte} :
    (s.judgeIdent i p bs).powerFollows := by
  unfold State.judgeIdent
  dsimp only
  split
  · exact h.enterSlot
  · split
    · exact h.enterSlot
    · exact h.enterSlot.of_power (State.submit_power ..)

theorem State.powerFollows.takeIdent (h : s.powerFollows) {i : Slot} {p : Plane} {bs : List Byte} :
    (s.takeIdent i p bs).powerFollows := by
  unfold State.takeIdent
  split
  · exact h.judgeIdent
  · exact h.enterSlot.judgeIdent
  · exact h

/-- The plane choice keeps the slot state and PWREN. -/
theorem SlotEntry.choosePlane_power (e : SlotEntry) : e.choosePlane.state = e.state ∧ e.choosePlane.pwren = e.pwren := by
  unfold SlotEntry.choosePlane
  (repeat' split) <;> exact ⟨rfl, rfl⟩

/-- R40: a lane state that reaches the slot manager. Recording it moves nothing, and the plane choice moves no slot; the slot
moves only by entering IDENTIFYING or, with both lanes down, TRAINING. -/
theorem State.powerFollows.slotLane (h : s.powerFollows) {i : Slot} {p : Plane} {st : LaneState} :
    (s.slotLane i p st).powerFollows := by
  have hput := h.of_power (s.putSlot_recordLane_power i p st)
  have hchoose : (s.moveSlot i ((s.slot i).recordLane p st).choosePlane).powerFollows := by
    obtain ⟨hst, hpw⟩ := ((s.slot i).recordLane p st).choosePlane_power
    refine h.moveSlot ?_
    rw [hst, hpw, SlotEntry.recordLane_state, SlotEntry.recordLane_pwren]
    exact (h i).1
  unfold State.slotLane
  dsimp only
  split
  · split
    · exact hput.enterSlot.of_power (State.requestIdent_power ..)
    · exact hput.of_power (State.requestIdent_power ..)
    · exact hchoose
  · split
    · exact h.moveSlot (SlotEntry.enter_pwren ..)
    · exact hchoose

/-- A lane that is not OFF changes to another state that is not OFF. -/
theorem State.power_withLane_same (s : State) (i : Slot) (p : Plane) (h : (s.lane i p).state ≠ .off) :
    Function.update s.power i ((s.power i).withLane p ⟨(s.lane i p).enable, false⟩) = s.power := by
  have hoff : ((s.lane i p).state == .off) = false := beq_eq_false_iff_ne.mpr h
  rw [← hoff, ← LanePort.power, ← State.setLane_power]
  exact State.setLane_power_same rfl rfl

theorem State.powerFollows.laneTrained (h : s.powerFollows) {i : Slot} {p : Plane} : (s.laneTrained i p).powerFollows := by
  unfold State.laneTrained
  dsimp only
  split
  · next hst =>
    have hup : (s.setLane i p { s.lane i p with state := .up }).power = s.power :=
      (s.setLane_power i p _).trans (State.power_withLane_same s i p (by rw [hst]; exact LaneState.noConfusion))
    exact ((h.of_power hup).of_power (State.kickLane_power ..)).slotLane
  · exact h

theorem State.powerFollows.laneLost (h : s.powerFollows) {i : Slot} {p : Plane} : (s.laneLost i p).powerFollows := by
  unfold State.laneLost
  dsimp only
  split
  · next hst =>
    have hdown : (s.leaveUp i p .training).power = s.power :=
      (s.leaveUp_power i p _).trans (State.power_withLane_same s i p (by rw [hst]; exact LaneState.noConfusion))
    exact ((h.of_power hdown).of_power (State.reportUnsent_power ..)).slotLane.of_power (State.pollLaneDown_power ..)
  · exact h

/-! ## Slot commands and hub states (R75, R76, R62) -/

theorem State.powerFollows.slotReleaseOp (h : s.powerFollows) {n : Nat} : (s.slotReleaseOp n).1.powerFollows := by
  unfold State.slotReleaseOp
  split
  · exact h
  · split
    · exact h.enterDraining
    · exact h

theorem State.powerFollows.slotRetryOp (h : s.powerFollows) {n : Nat} : (s.slotRetryOp n).1.powerFollows := by
  unfold State.slotRetryOp
  split
  · exact h
  · split
    · exact h.enterSeated
    · exact h

theorem State.powerFollows.slotOverrideOp (h : s.powerFollows) {n : Nat} : (s.slotOverrideOp n).1.powerFollows := by
  unfold State.slotOverrideOp
  dsimp only
  split
  · exact h
  · split
    · exact h.enterPowering
    · exact h

theorem State.powerFollows.slotShutdown (h : s.powerFollows) {i : Slot} : (s.slotShutdown i).powerFollows := by
  unfold State.slotShutdown
  split
  case h_2 => -- DRAINING stays, with a new cause
    refine h.of_power ?_
    rw [State.putSlot_power]
    exact State.setSlot_power_same rfl rfl
  case h_10 => exact h -- EMPTY, SEATED
  all_goals exact h.enterSlot

theorem State.powerFollows.setHub (h : s.powerFollows) {x : HubState} : (s.setHub x).powerFollows :=
  State.powerFollows.foldl (fun _ _ hs => hs.judgeSeated) (h.of_power (by simp)) _

/-! ## Frames delivered (R45 to R48, R51) -/

@[simp] theorem State.discardFrame_power (s : State) (i : Slot) (p : Plane) (d : Discard) :
    (s.discardFrame i p d).power = s.power := by
  unfold State.discardFrame
  dsimp only
  split <;> simp

@[simp] theorem State.transmitEnd_power (s : State) (i : Slot) (p : Plane) : (s.transmitEnd i p).power = s.power := by
  unfold State.transmitEnd
  dsimp only
  split <;> simp

theorem State.overtakenEnd_power (s : State) (i : Slot) (p : Plane) (bs : List Byte) :
    (s.overtakenEnd i p bs).power = s.power := by
  unfold State.overtakenEnd
  dsimp only
  (repeat' split) <;> simp

theorem State.powerFollows.deliverFrame (h : s.powerFollows) {i : Slot} {p : Plane} {g : Staging} {k : FrameKind} :
    (s.deliverFrame i p g k).powerFollows := by
  cases k with
  | ident => exact h.takeIdent
  | data => exact h.of_power (State.takeCardFrame_power ..)
  | status => exact h.of_power (State.takeStatus_power ..)
  | ref =>
    unfold State.deliverFrame
    dsimp only
    split
    · exact h.of_power (State.refArrival_power ..)
    · exact h.of_power (State.setLane_power_same rfl rfl)
  | _ => exact h

theorem State.powerFollows.frameEnd (h : s.powerFollows) {i : Slot} {p : Plane} {bs : List Byte} :
    (s.frameEnd i p bs).powerFollows := by
  have h1 : (s.setLane i p { s.lane i p with staging := none }).powerFollows :=
    h.of_power (State.setLane_power_same rfl rfl)
  unfold State.frameEnd
  dsimp only
  split
  · exact h.of_power (State.overtakenEnd_power ..)
  · split
    · exact h1.of_power (State.discardFrame_power ..)
    · exact h1.deliverFrame

/-! ## Working tables (R30, R33, R58, R182) -/

theorem State.powerFollows.provisionChanged (h : s.powerFollows) {i : Slot} {was now : Bool} :
    (s.provisionChanged i was now).powerFollows := by
  unfold State.provisionChanged
  split
  · split
    case h_4 => exact h.enterDraining -- ADMITTED
    case h_5 => exact h -- the states that keep a card not provisioned
    all_goals exact h.enterSeated
  · exact h

theorem SlotEntry.repolicy_power (e : SlotEntry) (old : PlanePolicy) :
    (e.repolicy old).state = e.state ∧ (e.repolicy old).pwren = e.pwren := by
  unfold SlotEntry.repolicy
  split
  · exact ⟨rfl, rfl⟩
  · exact SlotEntry.choosePlane_power _

theorem State.changeSlot_repolicy_power (s : State) (i : Slot) (old : PlanePolicy) :
    (s.changeSlot i ((s.slot i).repolicy old)).power = s.power := by
  obtain ⟨hst, hpw⟩ := (s.slot i).repolicy_power old
  rw [State.changeSlot_power]
  exact State.setSlot_power_same hst hpw

theorem State.powerFollows.applyPort (h : s.powerFollows) {i : Slot} {c : PortCfg} : (s.applyPort i c).powerFollows := by
  have h0 : (s.putSlot i { s.slot i with cfg := c }).power = s.power := by
    rw [State.putSlot_power]
    exact State.setSlot_power_same rfl rfl
  unfold State.applyPort
  extract_lets old e s0 shut s1 sp s2 s3
  have h1 : s1.power = s.power := by
    unfold s1
    split
    · exact (State.emptyQueue_power ..).trans h0
    · exact h0
  have hp : sp.power = s.power := (s1.changeSlot_repolicy_power i old.policy).trans h1
  have h2 : s2.power = s.power := by
    unfold s2
    split
    · exact (State.kickSlot_power ..).trans hp
    · exact hp
  have h3 : s3.power = s.power := by
    unfold s3
    split
    · exact (State.roomReport_power _).trans h2
    · exact h2
  exact (h.of_power h3).provisionChanged.judgeSeated

theorem State.applyPort0_power (s : State) (limit : Nat) : (s.applyPort0 limit).power = s.power := by
  unfold State.applyPort0
  dsimp only
  split <;> simp

theorem State.applyPoint_power (s : State) (k : Fin 64) (c : PointCfg) : (s.applyPoint k c).power = s.power := by
  unfold State.applyPoint
  dsimp only
  split <;> simp

theorem State.applyRef_power (s : State) (k : Fin 4) (c : RefCfg) : (s.applyRef k c).power = s.power :=
  State.putTime_power ..

theorem State.powerFollows.applyRecord (h : s.powerFollows) {t : Table} {index : Nat} {ws : List Word} :
    (s.applyRecord t index ws).powerFollows := by
  cases t with
  | port =>
    unfold State.applyRecord
    dsimp only
    split
    · exact h.applyPort
    · exact h.of_power (State.applyPort0_power ..)
  | group =>
    unfold State.applyRecord
    dsimp only
    split <;> exact h
  | alarmPoint =>
    unfold State.applyRecord
    dsimp only
    split
    · exact h.of_power (State.applyPoint_power ..)
    · exact h
  | reference =>
    unfold State.applyRecord
    dsimp only
    split
    · exact h.of_power (State.applyRef_power ..)
    · exact h

/-- The controller-set fields of every slot replaced (R58): no slot moves. -/
theorem State.setCfgs_power (s : State) (cfg : Slot → PortCfg) (q d : Nat) (w : SwitchCore) :
    ({ s with sm := ⟨Vector.ofFn fun i => { s.slot i with cfg := cfg i }, q, d⟩, sw := w } : State).power = s.power := by
  funext i
  simp [State.power, State.slot, State.lane, vget]

@[simp] theorem State.installTables_power (s : State) (all : List (List Word)) : (s.installTables all).power = s.power := by
  unfold State.installTables
  dsimp only
  rw [State.putTime_power, foldl_power _ (by simp)]
  exact s.setCfgs_power _ _ _ _

@[simp] theorem State.emptyTables_power (s : State) : s.emptyTables.power = s.power := by
  unfold State.emptyTables
  dsimp only
  rw [State.putTime_power, State.emptyPoints_power]
  exact s.setCfgs_power _ _ _ _

end Sys2Proof.Machine
end

section
/-! SUPPORT. Ring engine, cycle entries, counters and the memory port's bookkeeping: none of them moves a slot. -/

namespace Sys2Proof.Machine

open Sys2Proof

variable {s t : State}

/-! ## Ring engine -/

@[simp] theorem State.setRx_power (s : State) (m : Option RxMove) : (s.setRx m).power = s.power := rfl
@[simp] theorem State.setTx_power (s : State) (m : Option TxMove) : (s.setTx m).power = s.power := rfl
@[simp] theorem State.ringCount_power (s : State) (f : RingCounters → RingCounters) : (s.ringCount f).power = s.power := rfl
@[simp] theorem State.txReturn_power (s : State) (m : TxMove) (out : TxOutcome) : (s.txReturn m out).power = s.power := rfl

@[simp] theorem State.dropHeld_power (s : State) (p : Purpose → Bool) : (s.dropHeld p).power = s.power := by
  unfold State.dropHeld
  (repeat' split) <;> simp

@[simp] theorem State.withdrawRing_power (s : State) (side : RingSide) : (s.withdrawRing side).power = s.power := by
  unfold State.withdrawRing
  dsimp only
  rw [State.dropHeld_power]
  split <;> simp

@[simp] theorem State.rxMiss_power (s : State) (m : RxMove) : (s.rxMiss m).power = s.power := by
  simp [State.rxMiss]

@[simp] theorem State.walkEnds_power (s : State) (m : RxMove) : (s.walkEnds m).power = s.power := by
  unfold State.walkEnds
  dsimp only
  (repeat' split) <;> simp

@[simp] theorem State.rxRead_power (s : State) (v : Word) : (s.rxRead v).power = s.power := by
  unfold State.rxRead
  dsimp only
  (repeat' split) <;> simp

@[simp] theorem State.rxDelivered_power (s : State) (m : RxMove) (n : Nat) : (s.rxDelivered m n).power = s.power := by
  unfold State.rxDelivered
  rw [State.deliver_power, power_with_sm, State.ringCount_power, State.leaveQueue0_power]

@[simp] theorem State.rxWritten_power (s : State) : s.rxWritten.power = s.power := by
  unfold State.rxWritten
  (repeat' split) <;> simp

@[simp] theorem State.rxStart_power (s : State) : s.rxStart.power = s.power := by
  unfold State.rxStart
  dsimp only
  split <;> simp

@[simp] theorem State.rxHoldEnds_power (s : State) : s.rxHoldEnds.power = s.power := by
  unfold State.rxHoldEnds
  (repeat' split) <;> simp

@[simp] theorem State.txLoaded_power (s : State) (m : TxMove) (id : Nat) (out : TxOutcome) (bytes : List Byte) :
    (s.txLoaded m id out bytes).power = s.power := by
  simp [State.txLoaded]

@[simp] theorem State.txAnswer_power (s : State) (m : TxMove) (a : OfferAnswer) : (s.txAnswer m a).power = s.power := by
  unfold State.txAnswer
  dsimp only
  (repeat' split) <;> simp

@[simp] theorem State.txOffer_power (s : State) (m : TxMove) : (s.txOffer m).power = s.power := by
  simp [State.txOffer]

@[simp] theorem State.txJudge_power (s : State) (m : TxMove) : (s.txJudge m).power = s.power := by
  unfold State.txJudge
  (repeat' split) <;> simp

@[simp] theorem State.txFetched_power (s : State) (m : TxMove) (x : TxDesc) : (s.txFetched m x).power = s.power := by
  unfold State.txFetched
  dsimp only
  (repeat' split) <;> simp

@[simp] theorem State.txExamined_power (s : State) (v : Word) (again : Bool) : (s.txExamined v again).power = s.power := by
  unfold State.txExamined
  split <;> simp

@[simp] theorem State.txRead_power (s : State) (v : Word) : (s.txRead v).power = s.power := by
  unfold State.txRead
  dsimp only
  (repeat' split) <;> simp

@[simp] theorem State.examine_power (s : State) : s.examine.power = s.power := by
  unfold State.examine
  split <;> simp

@[simp] theorem State.txReturned_power (s : State) (m : TxMove) (out : TxOutcome) : (s.txReturned m out).power = s.power := by
  simp [State.txReturned]

@[simp] theorem State.txWritten_power (s : State) : s.txWritten.power = s.power := by
  unfold State.txWritten
  (repeat' split) <;> simp

@[simp] theorem State.txReoffer_power (s : State) : s.txReoffer.power = s.power := by
  unfold State.txReoffer
  (repeat' split) <;> simp

@[simp] theorem State.snooped_power (s : State) (side : RingSide) : (s.snooped side).power = s.power := by
  unfold State.snooped
  (repeat' split) <;> simp

@[simp] theorem State.ringStartOp_power (s : State) : s.ringStartOp.1.power = s.power := by
  unfold State.ringStartOp
  split <;> simp

@[simp] theorem State.txHalt_power (s : State) : s.txHalt.power = s.power := by
  unfold State.txHalt
  dsimp only
  split
  · rw [power_with_sm, State.withdrawRing_power]
  · split <;> simp

@[simp] theorem State.ringHalt_power (s : State) : s.ringHalt.power = s.power := by
  unfold State.ringHalt
  split <;> simp

@[simp] theorem State.ringStopped_power (s : State) : s.ringStopped.power = s.power := by
  simp [State.ringStopped]

@[simp] theorem State.abandonLoad_power (s : State) : s.abandonLoad.power = s.power := by
  unfold State.abandonLoad
  (repeat' split) <;> simp

@[simp] theorem State.abandonRx_power (s : State) : s.abandonRx.power = s.power := by
  unfold State.abandonRx
  (repeat' split) <;> simp

@[simp] theorem State.ringReset_power (s : State) : s.ringReset.power = s.power := by
  simp [State.ringReset]

/-! ## Command unit and cycle entries -/

@[simp] theorem State.emptyZones_power (s : State) : s.emptyZones.power = s.power := rfl

@[simp] theorem State.cycleLeaves_power (s : State) : s.cycleLeaves.power = s.power := by
  simp [State.cycleLeaves]

@[simp] theorem State.snapshotOp_power (s : State) (addr : Nat) (clear : Bool) : (s.snapshotOp addr clear).power = s.power := by
  unfold State.snapshotOp
  split <;> simp

@[simp] theorem State.tableUpdateOp_power (s : State) (table index addr : Nat) :
    (s.tableUpdateOp table index addr).power = s.power := by
  unfold State.tableUpdateOp
  (repeat' split) <;> simp

@[simp] theorem State.cycleStartOp_power (s : State) (v : Word) : (s.cycleStartOp v).1.power = s.power := by
  unfold State.cycleStartOp
  dsimp only
  split
  · split <;> simp
  · rfl

@[simp] theorem State.cycleStopOp_power (s : State) : s.cycleStopOp.1.power = s.power := by
  unfold State.cycleStopOp
  dsimp only
  (repeat' split) <;> simp

@[simp] theorem State.ringStopOp_power (s : State) : s.ringStopOp.1.power = s.power := by
  unfold State.ringStopOp
  split <;> simp

@[simp] theorem State.finishWhen_power (x : State × Bool) (c : Command) : (State.finishWhen x c).power = x.1.power := by
  unfold State.finishWhen
  split <;> simp

@[simp] theorem State.cutShort_power (s : State) (o : OpenCmd) : (s.cutShort o).power = s.power := by
  unfold State.cutShort
  dsimp only
  split <;> simp

/-- R186: the counters of the lane ports are no part of their enables. -/
@[simp] theorem State.clearCounters_power (s : State) : s.clearCounters.power = s.power := by
  have hlane (i : Slot) (p : Plane) : s.clearCounters.lane i p = (s.lane i p).clearCounts := by
    cases p <;> simp [State.clearCounters, State.lane, vget, Lanes.get]
  have hslot (i : Slot) : s.clearCounters.slot i = s.slot i := rfl
  funext i
  simp only [State.power, hlane, hslot]
  rfl

@[simp] theorem State.cycleCall_power (a target : Addr) (s : State) : (State.cycleCall a target s).power = s.power := by
  unfold State.cycleCall
  dsimp only
  split <;> simp

@[simp] theorem State.cycleReturn_power (s : State) : s.cycleReturn.power = s.power := by
  unfold State.cycleReturn
  dsimp only
  split <;> simp

@[simp] theorem State.cycleNotify_power (a : Addr) (v : Word) (s : State) : (State.cycleNotify a v s).power = s.power := by
  simp [State.cycleNotify]

@[simp] theorem State.cyclePoll_power (s : State) (a : Addr) (ws : List Word) : (s.cyclePoll a ws).power = s.power := by
  unfold State.cyclePoll
  dsimp only
  split <;> simp

@[simp] theorem State.cycleTime_power (s : State) (a : Addr) (ws : List Word) : (s.cycleTime a ws).power = s.power := by
  unfold State.cycleTime
  dsimp only
  (repeat' split) <;> simp

@[simp] theorem State.cycleJudge_power (s : State) (a : Addr) (ws : List Word) : (s.cycleJudge a ws).power = s.power := by
  unfold State.cycleJudge
  dsimp only
  split
  case h_5 => exact s.zeroTime_power fun u => u.cycleGo_power _ -- JUMP
  case h_6 => exact s.zeroTime_power fun u => u.cycleCall_power a _ -- CALL
  case h_7 => exact s.zeroTime_power State.cycleReturn_power -- RETURN
  case h_8 => exact s.zeroTime_power fun u => u.cycleNotify_power a _ -- NOTIFY
  all_goals (repeat' split) <;> simp

@[simp] theorem State.cycleRead_power (s : State) (v : Word) : (s.cycleRead v).power = s.power := by
  unfold State.cycleRead
  (repeat' split) <;> simp

@[simp] theorem State.cycleMovesOn_power (s : State) (next : Addr) : (s.cycleMovesOn next).power = s.power := by
  unfold State.cycleMovesOn
  split <;> simp

@[simp] theorem State.cycleWritten_power (s : State) : s.cycleWritten.power = s.power := by
  unfold State.cycleWritten
  (repeat' split) <;> simp

/-! ## Memory port -/

@[simp] theorem State.perform_power (s : State) (acc : BusAccess) : (s.perform acc).power = s.power := by
  cases acc <;> rfl

@[simp] theorem State.performDma_power (s : State) (op : DmaOp) : (s.performDma op).1.power = s.power := by
  cases op <;> rfl

@[simp] theorem State.release_power (s : State) : s.release.power = s.power := rfl

@[simp] theorem State.arrived_power (s : State) (c : Classed) : (s.arrived c).power = s.power := by
  unfold State.arrived
  split <;> rfl

theorem State.nextAccess_power (l : List BusAccess) (s : State) : (State.nextAccess l s).power = s.power := by
  induction l generalizing s with
  | nil => rfl
  | cons acc rest ih =>
    unfold State.nextAccess
    dsimp only
    split
    · rw [ih, State.guardHit_power]
    · rw [power_with_sm, State.arrived_power]

@[simp] theorem State.bringAccess_power (s : State) : s.bringAccess.power = s.power := by
  unfold State.bringAccess
  split
  · rfl
  · exact State.nextAccess_power ..

@[simp] theorem State.fill_power (s : State) : s.fill.power = s.power := State.power_of_apart s.fill_apart

@[simp] theorem State.arbitrate_power (s : State) : s.arbitrate.power = s.power := by
  have hgrant (w : Requester) : (s.grant w).power = s.power := State.power_of_apart (s.grant_apart w)
  unfold State.arbitrate
  (repeat' split) <;> simp [hgrant, State.grantController]

/-- R11: the arbiter's decisions move no slot. -/
@[simp] theorem State.settle_power (s : State) : s.settle.power = s.power := by
  simp [State.settle]

/-! ## Rows of the time base, the ring engine and the alarm unit -/

@[simp] theorem State.onHold_power (s : State) : s.onHold.power = s.power := by
  unfold State.onHold
  (repeat' split) <;> simp

@[simp] theorem State.ppsOutEnds_power (s : State) : s.ppsOutEnds.power = s.power := by
  unfold State.ppsOutEnds
  (repeat' split) <;> simp

@[simp] theorem State.watchEnds_power (s : State) (k : Fin 4) : (s.watchEnds k).power = s.power := State.putTime_power ..

@[simp] theorem State.scanNow_power (s : State) : s.scanNow.power = s.power := by
  unfold State.scanNow
  rw [power_with_sm, State.scan_power]

end Sys2Proof.Machine
end

section
/-! SUPPORT. R60, R39: every step keeps the power enables and the lane enables in step with the slot states. -/

namespace Sys2Proof.Machine

open Sys2Proof

variable {s t : State}

/-! ## Commands (R17 to R22, R27 to R33) -/

theorem State.powerFollows.enterService (h : s.powerFollows) : s.enterService.powerFollows := by
  unfold State.enterService
  split
  · exact h
  · next b _ =>
    extract_lets cmd ring cyc s1
    have h1 : s1.powerFollows := h.of_power (power_with_sm ..)
    exact h1.setHub.of_power ((State.finishWith_power ..).trans (State.alarmEnters_power ..))

theorem State.powerFollows.loadFails (h : s.powerFollows) {mode : LoadMode} {item : FailItem} :
    (s.loadFails mode item).powerFollows := by
  have h1 : ({ s with cmd := { s.cmd with setup := none } } : State).emptyZones.powerFollows := h
  exact h1.setHub.of_power (State.finish_power ..)

theorem State.powerFollows.loadSetupOp (h : s.powerFollows) {mode addr : Nat} : (s.loadSetupOp mode addr).powerFollows := by
  unfold State.loadSetupOp
  split
  · exact h.of_power (State.finishAnswer_power ..)
  · split
    · exact h.of_power (State.finishAnswer_power ..)
    · split
      · exact h.of_power (State.finishAnswer_power ..)
      · exact h.setHub.of_power (State.startTransfer_power ..)

theorem State.powerFollows.shutdownOp (h : s.powerFollows) : s.shutdownOp.powerFollows := by
  have h1 : (s.setHub .shuttingDown).alarmLeaves.cycleLeaves.powerFollows :=
    h.setHub.of_power ((State.cycleLeaves_power _).trans (State.alarmLeaves_power _))
  exact (State.powerFollows.foldl (fun _ _ hs => hs.slotShutdown) h1 _).of_power (State.ringHalt_power _)

/-- R21: whichever command its owner runs; only LOAD_SETUP, SHUTDOWN and the slot commands move slots. -/
theorem State.powerFollows.runCommand (h : s.powerFollows) {o : OpenCmd} : (s.runCommand o).powerFollows := by
  obtain ⟨cmd, count, params⟩ := o
  cases cmd with
  | loadSetup => exact h.loadSetupOp
  | shutdown => exact h.shutdownOp
  | slotRelease => exact h.slotReleaseOp.of_power (State.finishAnswer_power ..)
  | slotRetry => exact h.slotRetryOp.of_power (State.finishAnswer_power ..)
  | slotOverride => exact h.slotOverrideOp.of_power (State.finishAnswer_power ..)
  | counterSnapshot => exact h.of_power (State.snapshotOp_power ..)
  | setDiscipline => exact (h.of_power (s.setDisciplineOp_power params)).of_power (State.finish_power ..)
  | setTime => exact (h.of_power (State.setTimeOp_power ..)).of_power (State.finishWith_power ..)
  | ringStart => exact (h.of_power s.ringStartOp_power).of_power (State.finishAnswer_power ..)
  | ringStop => exact (h.of_power s.ringStopOp_power).of_power (State.finishWhen_power ..)
  | cycleStart => exact (h.of_power (State.cycleStartOp_power ..)).of_power (State.finishAnswer_power ..)
  | cycleStop => exact (h.of_power s.cycleStopOp_power).of_power (State.finishWhen_power ..)
  | tableUpdate => exact h.of_power (State.tableUpdateOp_power ..)
  | alarmReset =>
    unfold State.runCommand
    dsimp only
    split
    · next hv => exact (h.of_power (State.alarmResetOp_power hv)).of_power (State.finishWith_power ..)
    · exact h.of_power (State.finishAnswer_power ..)

theorem State.powerFollows.execute (h : s.powerFollows) {o : OpenCmd} : (s.execute o).powerFollows := by
  unfold State.execute
  split
  · exact State.powerFollows.runCommand (h.of_power (power_with_sm ..))
  · exact h.of_power (State.finishWith_power ..)

theorem State.powerFollows.openCommand (h : s.powerFollows) {code count : Nat} : (s.openCommand code count).powerFollows := by
  unfold State.openCommand
  extract_lets record t
  have ht : t.powerFollows := h.of_power (State.setRecord_power ..)
  split
  · exact ht.of_power (State.finish_power ..)
  · split
    · exact ht.of_power (State.finishAnswer_power ..)
    · split
      · exact ht.execute
      · exact ht.of_power (power_with_sm ..)

theorem State.powerFollows.commandWord (h : s.powerFollows) {w : Word} : (s.commandWord w).powerFollows := by
  unfold State.commandWord
  dsimp only
  split
  · exact h.of_power (State.refuse_power ..)
  · split
    · exact h.of_power (State.refuse_power ..)
    · exact (h.of_power (State.cutShort_power ..)).openCommand
    · exact h.openCommand

theorem State.powerFollows.parameterWord (h : s.powerFollows) {k : Nat} {v : Word} : (s.parameterWord k v).powerFollows := by
  unfold State.parameterWord
  dsimp only
  split
  · split
    · split
      · exact h.execute
      · exact h.of_power (power_with_sm ..)
    · exact h.of_power (State.refuse_power ..)
  · exact h.of_power (State.refuse_power ..)

theorem State.powerFollows.handControl (h : s.powerFollows) {offset : Nat} {v : Word} :
    (s.handControl offset v).powerFollows := by
  unfold State.handControl
  split
  · exact h.commandWord
  · split
    · exact h.parameterWord
    · (repeat' split) <;> exact h

/-! ## Transfers and the shutdown's completion -/

theorem State.powerFollows.setupRead (h : s.powerFollows) {got : List Word} : (s.setupRead got).powerFollows := by
  unfold State.setupRead
  dsimp only
  split
  · exact h.loadFails
  · exact h.of_power (power_with_sm ..)

theorem State.powerFollows.imagesRead (h : s.powerFollows) {done : List (List Word)} {got : List Word} :
    (s.imagesRead done got).powerFollows := by
  unfold State.imagesRead
  dsimp only
  split
  · exact h
  · split
    · exact h.of_power (State.startTransfer_power ..)
    · split
      · exact h.loadFails
      · split <;> exact h.of_power (by simp)

theorem State.powerFollows.stagingRead (h : s.powerFollows) {t : Table} {i addr : Nat} {got : List Word} :
    (s.stagingRead t i addr got).powerFollows := by
  unfold State.stagingRead
  split
  · exact h.of_power (State.startTransfer_power ..)
  · split
    · exact h.of_power (State.finish_power ..)
    · exact h.applyRecord.of_power (State.startTransfer_power ..)

theorem State.powerFollows.transferDone (h : s.powerFollows) {v : Word} : (s.transferDone v).powerFollows := by
  have started (x : Transfer) : (s.startTransfer x).powerFollows := h.of_power (s.startTransfer_power x)
  unfold State.transferDone
  cases s.cmd.transfer with
  | none => exact h
  | some x =>
    cases x with
    | setup addr got =>
      dsimp only
      split
      · exact started _
      · exact h.setupRead
    | images done got => exact h.imagesRead
    | writeback k | writeout k =>
      dsimp only
      split
      · exact started _
      · exact h.enterService
    | snapshot addr clear k =>
      dsimp only
      split
      · exact started _
      · split <;> exact h.of_power (by simp)
    | staging t i addr got => exact h.stagingRead
    | entryRewrite t i k =>
      dsimp only
      split
      · exact started _
      · exact h.of_power (State.finishWith_power ..)

theorem State.powerFollows.completeShutdown (h : s.powerFollows) : s.completeShutdown.powerFollows := by
  have h1 : s.emptyTables.emptyZones.powerFollows := h.of_power (by simp)
  exact h1.setHub.of_power (State.finishIf_power ..)

/-! ## The memory port at work -/

theorem State.powerFollows.handOver (h : s.powerFollows) {c : Classed} : (s.handOver c).powerFollows := by
  unfold State.handOver
  split
  · exact h.handControl
  · exact h.of_power (State.consumerWrite_power ..)
  · exact h.of_power (State.snooped_power ..)
  all_goals exact h

/-- Of the completed words only a transfer's can move slots: it may end a LOAD_SETUP or apply a PORT record. -/
theorem State.powerFollows.completed (h : s.powerFollows) {x : Held} {v : Word} : (s.completed x v).powerFollows := by
  obtain ⟨who, purpose, op⟩ := x
  cases purpose with
  | transfer => exact h.transferDone
  | image | dropped => exact h
  | status offset fin =>
    refine h.of_power ?_
    unfold State.completed
    dsimp only
    split <;> simp
  | log => exact h.of_power s.logWordDone_power
  | rx | tx | cycle =>
    refine h.of_power ?_
    unfold State.completed
    dsimp only
    split <;> simp

/-- R11: whatever access completes. -/
theorem State.powerFollows.complete (h : s.powerFollows) : s.complete.powerFollows := by
  unfold State.complete
  split
  · exact h
  · exact (h.of_power (by simp)).handOver
  · exact State.powerFollows.completed (h.of_power (by simp))

theorem State.powerFollows.settle (h : s.powerFollows) : s.settle.powerFollows := h.of_power (State.settle_power s)

theorem State.powerFollows.portComplete (h : s.powerFollows) : s.portComplete.powerFollows := h.complete.settle

theorem State.powerFollows.engaged (h : s.powerFollows) : s.engaged.powerFollows := by
  unfold State.engaged
  split
  · exact h
  · exact h.settle

theorem State.powerFollows.runPort {p : State → Held → Bool} (fuel : Nat) (h : s.powerFollows)
    (ht : State.runPort p fuel s = some t) : t.powerFollows := by
  induction fuel generalizing s with
  | zero => exact nomatch ht
  | succ k ih =>
    unfold State.runPort at ht
    split at ht
    · exact nomatch ht
    · exact ih h.portComplete ht
    · split at ht
      · obtain rfl := Option.some.inj ht
        exact h.portComplete
      · exact ih h.portComplete ht

theorem State.powerFollows.awaitPort (h : s.powerFollows) {p : State → Held → Bool} : (s.awaitPort p).powerFollows := by
  unfold State.awaitPort
  split
  · next ht => exact h.engaged.runPort _ ht
  · exact h.engaged

theorem State.powerFollows.serve (h : s.powerFollows) {fuel : Nat} : (s.serve fuel).powerFollows := by
  induction fuel generalizing s with
  | zero => exact h
  | succ k ih =>
    unfold State.serve
    split
    · exact ih h.portComplete
    · exact h

theorem State.powerFollows.busAccesses (h : s.powerFollows) {accs : List BusAccess} : (s.busAccesses accs).powerFollows := by
  unfold State.busAccesses
  extract_lets path t
  have ht : t.powerFollows := State.powerFollows.settle (h.of_power (power_with_sm ..))
  split
  · exact ht
  · exact ht.serve

/-! ## Resets (R15, R16, R37, R78) -/

theorem State.powerFollows.resetPort (h : s.powerFollows) : s.resetPort.powerFollows := by
  unfold State.resetPort
  exact (h.of_power (s.dropHeld_power _)).complete.of_power (power_with_sm ..)

theorem State.resetTables_power (s : State) : s.resetTables.power = s.power := by
  unfold State.resetTables
  split <;> simp

theorem State.resetLog_power (s : State) : s.resetLog.power = s.power := by
  unfold State.resetLog
  split <;> simp

theorem State.powerFollows.controllerResets (h : s.powerFollows) : s.controllerResets.powerFollows := by
  unfold State.controllerResets
  extract_lets s1 s2 s3 s4
  have h3 : s3.powerFollows := h.resetPort.of_power (by simp [s3, s2, s1, State.resetTables_power, State.resetLog_power])
  exact h3.setHub.of_power (power_with_sm ..)

/-- R78, R57: PORST leaves every slot EMPTY with PWREN low and its lanes OFF. -/
theorem State.coldResets_powerFollows (s : State) : s.coldResets.powerFollows := by
  have hslot (i : Slot) : s.coldResets.slot i = (s.slot i).coldWith := by
    simp [State.coldResets, State.slot, vget]
  have hlane (i : Slot) (p : Plane) : s.coldResets.lane i p = s.coldLane i p := by
    cases p <;> simp [State.coldResets, State.lane, vget, Lanes.get]
  intro i
  refine ⟨by rw [hslot]; rfl, fun p => ?_⟩
  rw [hslot, hlane]
  exact ⟨rfl, iff_of_true rfl rfl⟩

/-! ## Rows -/

theorem State.powerFollows.onSlotTimer (h : s.powerFollows) {i : Slot} {st : SlotState} {f : State → State}
    (hf : ∀ {u : State}, u.powerFollows → (f u).powerFollows) : (s.onSlotTimer i st f).powerFollows := by
  unfold State.onSlotTimer
  split
  · split
    · exact hf (h.of_power (State.advanceTo_power ..))
    · exact h
  · exact h

/-- A row that does its work on a state and lets the arbiter decide (`settled`). -/
theorem State.powerFollows.next_settle (h : s.powerFollows) (e : Host.Outcome.next s.settle = (.next t : Out)) :
    t.powerFollows := by
  obtain rfl := Host.Outcome.next.inj e
  exact h.settle

/-- Every row keeps the power enables and the lane enables in step with the slot states. -/
theorem exec_powerFollows {c : Instr} (h : s.powerFollows) (e : exec c s = .next t) : t.powerFollows := by
  have bus {accs : List BusAccess} (e : Host.Outcome.next (s.busAccesses accs) = (.next t : Out)) : t.powerFollows := by
    obtain rfl := Host.Outcome.next.inj e
    exact h.busAccesses
  have await {p : State → Held → Bool} (e : Host.Outcome.next (s.awaitPort p) = (.next t : Out)) : t.powerFollows := by
    obtain rfl := Host.Outcome.next.inj e
    exact h.awaitPort
  have work {u : State} (hu : u.power = s.power) (e : Host.Outcome.next u.settle = (.next t : Out)) : t.powerFollows :=
    (h.of_power hu).next_settle e
  cases c with
  | controllerRead | plainWrite | partialControlWrite | guardedWrite | snoopedRingWrite | parameterWrite
  | attentionMaskWrite | attentionAcknowledge | consumerIndexWrite | unknownCommand | loadSetup | shutdown
  | counterSnapshot | setDiscipline | setTime | ringStart | ringStop | cycleStart | cycleStop | slotRelease | slotRetry
  | slotOverride | tableUpdate | alarmReset => exact bus e
  | setupBlockReadDone | loadImagesReadDone | loadWritebackDone | adoptWriteoutDone | statusRewriteDone
  | counterSnapshotDone | stagingRecordReadDone | imageEntryRewriteDone | imageWordRewriteDone | rxWalkEnd
  | rxPlacementDone | rxFrameDelivered | rxMissMarkerDone | txExamineDone | txChainJudge | txLoadComplete | txReturnDone
  | cycleEntryFetchDone | cycleWriteBackDone | logEntryWritten => exact await e
  | portAccessComplete =>
    obtain rfl := Host.Outcome.next.inj e
    exact h.engaged.portComplete
  | controllerReset => exact h.controllerResets.next_settle e
  | coldReset =>
    obtain rfl := Host.Outcome.next.inj e
    exact s.coldResets_powerFollows
  | shutdownComplete =>
    refine State.powerFollows.next_settle ?_ e
    split
    · exact h.completeShutdown
    · exact h
  | trainingComplete => exact h.laneTrained.next_settle e
  | lossOfSignal => exact h.laneLost.next_settle e
  | frameEndReceived => exact h.frameEnd.next_settle e
  | presenceArrival => exact h.presenceOn.next_settle e
  | presenceLoss => exact h.presenceOff.next_settle e
  | latchClosed => exact h.latchOn.next_settle e
  | latchOpened => exact h.latchOff.next_settle e
  | powerGoodArrival => exact h.powerGoodOn.next_settle e
  | powerGoodLoss => exact h.powerGoodOff.next_settle e
  | presenceDebounceExpiry => exact (h.onSlotTimer fun hu => hu.enterSeated).next_settle e
  | powerGoodWaitExpiry => exact (h.onSlotTimer fun hu => hu.enterFaulted).next_settle e
  | trainingTimerExpiry => exact (h.onSlotTimer fun hu => hu.enterFaulted).next_settle e
  | identWaitExpiry => exact (h.onSlotTimer fun hu => hu.identExpired).next_settle e
  | drainTimerExpiry => exact (h.onSlotTimer fun hu => hu.endDrain).next_settle e
  | backoffExpiry => exact (h.onSlotTimer fun hu => hu.backoffDone).next_settle e
  | drainEnd =>
    refine State.powerFollows.next_settle ?_ e
    split
    · exact h.endDrain
    · exact h
  | frameStartReceived => exact work (State.frameStart_power ..) e
  | frameTransmitEnd => exact work (State.transmitEnd_power ..) e
  | heldFrameReoffer => exact work (State.txReoffer_power s) e
  | rxMovementStart => exact work (by split <;> simp) e
  | rxHoldExpiry => exact work (State.onHold_power s) e
  | ringHaltComplete => exact work (by split <;> simp) e
  | rollover => exact work (State.advance_power ..) e
  | ppsOutPulseEnd => exact work (by split <;> simp) e
  | ppsInEdge => exact work (State.ppsEdge_power s) e
  | referenceWatchExpiry => exact work (by split <;> simp) e
  | waitGapExpiry => exact work (by split <;> simp) e
  | waitBoundaryReached => exact work (by split <;> simp) e
  | pollResponseTimeout => exact work (by split <;> simp) e
  | alarmScan => exact work ((State.scanNow_power _).trans (State.advanceTo_power ..)) e
  | oscillatorPeriod => exact work (State.advance_power ..) e
  | contactLevelChange => exact work (power_with_sm ..) e

/-- Settles O8: every row keeps R60 and R39 (`exec_powerFollows`), and an idle step changes nothing. -/
theorem powerFollowsState : Obligations.PowerFollowsState := by
  unfold Obligations.PowerFollowsState
  intro s t h e
  unfold step at e
  split at e
  · obtain rfl := Host.Outcome.next.inj e
    exact h
  · exact exec_powerFollows (h.of_power (power_with_sm ..)) e

end Sys2Proof.Machine
end

section
/-! SUPPORT. The relay view of the state: the points and the relays, of which R178 speaks, with the stage of the command unit. -/

namespace Sys2Proof.Machine

open Sys2Proof

/-- How far the command unit has come: the hub state, the command collected or executed, and its transfer. -/
structure CmdStage where
  hub : HubState
  collection : Collection
  transfer : Option Transfer

/-- The command unit's stage, the points and the two relays. -/
structure RelayView where
  stage : CmdStage
  points : Vector Point 64
  major : Bool
  minor : Bool

def State.stage (s : State) : CmdStage :=
  { hub := s.cmd.hub, collection := s.cmd.collection, transfer := s.cmd.transfer }

def State.relays (s : State) : RelayView :=
  { stage := s.stage, points := s.alarm.points, major := s.alarm.major, minor := s.alarm.minor }

/-- Is the point unmasked and RAISED, with one of the severities? -/
def Point.sounds (p : Point) (sevs : List Severity) : Bool :=
  p.state == .raised && !p.cfg.masked && sevs.contains p.cfg.severity

/-- Is one of the points unmasked and RAISED, with one of the severities? -/
def anySounds (ps : Vector Point 64) (sevs : List Severity) : Bool := ps.toList.any (·.sounds sevs)

/-- R178, read off the view: each relay is as `State.judgeRelays` would judge it. -/
def RelayView.follows (v : RelayView) : Prop :=
  v.major = (v.stage.hub.relaysOn && !anySounds v.points [.critical, .major]) ∧
    v.minor = (v.stage.hub.relaysOn && !anySounds v.points [.minor])

/-- R28, R30, R35: the transfer belongs to a command that is executing, and goes with the hub state. -/
def CmdStage.fits (c : CmdStage) : Prop :=
  (c.transfer.isSome → ∃ o, c.collection = .executing o) ∧
    (∀ addr got, c.transfer = some (.setup addr got) → ∃ m, c.hub = .loading m) ∧
    ∀ done got, c.transfer = some (.images done got) → c.hub = .loading .load

theorem State.transferFits_iff (s : State) : s.transferFits ↔ s.stage.fits := Iff.rfl

/-! ## Points that sound -/

theorem anySounds_iff {ps : Vector Point 64} {sevs : List Severity} :
    anySounds ps sevs = true ↔ ∃ k, (vget ps k).sounds sevs = true := by
  rw [anySounds, List.any_eq_true]
  constructor
  · rintro ⟨p, hp, hs⟩
    obtain ⟨k, hk, rfl⟩ := Vector.getElem_of_mem (Vector.mem_toList_iff.mp hp)
    exact ⟨⟨k, hk⟩, hs⟩
  · rintro ⟨k, hs⟩
    exact ⟨_, Vector.mem_toList_iff.mpr (Vector.getElem_mem k.isLt), hs⟩

/-- A point that sounds for no relay: it is not RAISED, or it is masked. -/
def Point.silent (p : Point) : Prop := p.state ≠ .raised ∨ p.cfg.masked = true

theorem Point.sounds_of_silent {p : Point} (h : p.silent) (sevs : List Severity) : p.sounds sevs = false := by
  rcases h with h | h
  · simp [Point.sounds, beq_eq_false_iff_ne.mpr h]
  · simp [Point.sounds, h]

/-- A silent point replaced by a silent point is not heard. -/
theorem anySounds_vset {ps : Vector Point 64} {k : Fin 64} {p : Point} (old : (vget ps k).silent) (new : p.silent)
    (sevs : List Severity) : anySounds (vset ps k p) sevs = anySounds ps sevs := by
  rw [Bool.eq_iff_iff, anySounds_iff, anySounds_iff]
  refine exists_congr fun j => ?_
  by_cases h : k = j
  · subst h
    rw [vget_vset_self, Point.sounds_of_silent old, Point.sounds_of_silent new]
  · rw [vget_vset_ne ps p h]

theorem HubState.relaysOn_iff (h : HubState) :
    h.relaysOn = true ↔ h = .inService ∨ h = .carrying ∨ h = .loading .adopt := by
  cases h with
  | loading m => cases m <;> simp [HubState.relaysOn]
  | _ => simp [HubState.relaysOn]

theorem Point.sounds_iff (p : Point) (sevs : List Severity) :
    p.sounds sevs = true ↔ p.state = .raised ∧ p.cfg.masked = false ∧ p.cfg.severity ∈ sevs := by
  simp [Point.sounds, and_assoc]

/-- No point of a list of severities sounds. -/
theorem not_anySounds_iff {ps : Vector Point 64} {sevs : List Severity} :
    (!anySounds ps sevs) = true ↔ ∀ v ∈ sevs,
      ¬ ∃ k, (vget ps k).state = .raised ∧ (vget ps k).cfg.masked = false ∧ (vget ps k).cfg.severity = v := by
  rw [Bool.not_eq_true', ← Bool.not_eq_true, anySounds_iff]
  simp only [Point.sounds_iff]
  constructor
  · exact fun h v hv ⟨k, hr, hm, he⟩ => h ⟨k, hr, hm, he ▸ hv⟩
  · exact fun h ⟨k, hr, hm, hs⟩ => h _ hs ⟨k, hr, hm, rfl⟩

/-- The invariant, read off the relay view. -/
theorem State.relaysFollow_iff (s : State) : s.relaysFollow ↔ s.relays.follows := by
  have relay (b on quiet : Bool) : b = (on && quiet) ↔ (b = true ↔ on = true ∧ quiet = true) := by
    rw [Bool.eq_iff_iff, Bool.and_eq_true]
  rw [RelayView.follows, relay, relay, not_anySounds_iff, not_anySounds_iff, HubState.relaysOn_iff,
    List.forall_mem_cons, List.forall_mem_singleton, List.forall_mem_singleton]
  rfl

end Sys2Proof.Machine
end

section
/-! SUPPORT. The operations of the blocks that leave the relay view alone: none of them moves a point, judges a relay or takes
the command unit to another stage. -/

namespace Sys2Proof.Machine

open Sys2Proof

variable {s t : State}

theorem State.relays_of_apart (h : s.apart = t.apart) : s.relays = t.relays :=
  show s.apart.relays = t.apart.relays from congrArg State.relays h

/-- An update of fields of the other blocks. -/
@[simp] theorem relays_with (s : State) (pe : List Instr) (m : Memory) (pa : MemoryPath) (l : Vector Lanes 12)
    (sm : SlotManager) (sw : SwitchCore) (r : RingEngine) (t : TimeBase) (cy : CycleEngine) (o d : Nat) :
    (State.mk pe m pa s.cmd l sm sw r t cy s.alarm o d).relays = s.relays := rfl

/-- A fold of operations none of which changes the relay view. -/
theorem foldl_relays {α : Type} (f : State → α → State) (h : ∀ s x, (f s x).relays = s.relays) (l : List α)
    (s : State) : (l.foldl f s).relays = s.relays :=
  l.foldlRecOn (motive := fun t => t.relays = s.relays) f rfl fun t ht x _ => (h t x).trans ht

/-! ## Slots and lanes -/

@[simp] theorem State.setSlot_relays (s : State) (i : Slot) (e : SlotEntry) : (s.setSlot i e).relays = s.relays := rfl
@[simp] theorem State.setLane_relays (s : State) (i : Slot) (p : Plane) (l : LanePort) :
    (s.setLane i p l).relays = s.relays := rfl

/-! ## Reports to the command unit -/

@[simp] theorem retouch_relays (offs : List Nat) (s t : State) : (retouch offs s t).relays = t.relays := rfl
@[simp] theorem reimage_relays (ws : List ImgWord) (s t : State) : (reimage ws s t).relays = t.relays := rfl
@[simp] theorem State.deliver_relays (s : State) (c : Cause) : (s.deliver c).relays = s.relays := rfl
@[simp] theorem State.setRecord_relays (s : State) (r : CmdRecord) : (s.setRecord r).relays = s.relays := rfl
@[simp] theorem State.setRing_relays (s : State) (r : RingEngine) : (s.setRing r).relays = s.relays := rfl
@[simp] theorem State.setCyc_relays (s : State) (c : CycleEngine) : (s.setCyc c).relays = s.relays := rfl
@[simp] theorem State.setSw_relays (s : State) (w : SwitchCore) : (s.setSw w).relays = s.relays := rfl
@[simp] theorem State.snapshot_relays (s : State) (sec ns : Nat) : (s.snapshot sec ns).relays = s.relays := rfl
@[simp] theorem State.guardHit_relays (s : State) (a : Addr) : (s.guardHit a).relays = s.relays := rfl
@[simp] theorem State.refuse_relays (s : State) (why : RefusalReason) (offset code : Nat) :
    (s.refuse why offset code).relays = s.relays := rfl

@[simp] theorem State.fillCommand_relays (s : State) : s.fillCommand.relays = s.relays :=
  State.relays_of_apart s.fillCommand_apart

/-! ## Alarm unit -/

/-- The log's part of the alarm unit changes. -/
@[simp] theorem State.setAlarm_relays {a : AlarmUnit} (hp : a.points = s.alarm.points) (hmajor : a.major = s.alarm.major)
    (hminor : a.minor = s.alarm.minor) : (s.setAlarm a).relays = s.relays := by
  unfold State.relays
  rw [State.setAlarm_alarm, hp, hmajor, hminor]
  rfl

@[simp] theorem State.assignEntry_relays (s : State) (b : LogBody) : (s.assignEntry b).relays = s.relays := rfl
@[simp] theorem State.addOverflow_relays (s : State) (n : Nat) : (s.addOverflow n).relays = s.relays := rfl
@[simp] theorem State.assignOverflow_relays (s : State) : s.assignOverflow.relays = s.relays := rfl
@[simp] theorem State.markLinkError_relays (s : State) (i : Slot) : (s.markLinkError i).relays = s.relays := rfl
@[simp] theorem State.markSurprise_relays (s : State) (i : Slot) : (s.markSurprise i).relays = s.relays := rfl
@[simp] theorem State.markDrop_relays (s : State) (p : Fin 13) : (s.markDrop p).relays = s.relays := rfl
@[simp] theorem State.markMissed_relays (s : State) : s.markMissed.relays = s.relays := rfl
@[simp] theorem State.alarmLeaves_relays (s : State) : s.alarmLeaves.relays = s.relays := rfl

@[simp] theorem State.placeChange_relays (s : State) (b : LogBody) : (s.placeChange b).relays = s.relays := by
  unfold State.placeChange
  (repeat' split) <;> simp

@[simp] theorem State.consumerWrite_relays (s : State) (v : Word) : (s.consumerWrite v).relays = s.relays := by
  unfold State.consumerWrite
  dsimp only
  (repeat' split) <;> rfl

@[simp] theorem State.alarmEnters_relays (s : State) (base size : Nat) : (s.alarmEnters base size).relays = s.relays := by
  unfold State.alarmEnters
  dsimp only
  split <;> simp

@[simp] theorem State.logWordDone_relays (s : State) : s.logWordDone.relays = s.relays := by
  unfold State.logWordDone
  dsimp only
  split
  · rfl
  · split
    · rfl
    · simp

@[simp] theorem State.putSlot_relays (s : State) (i : Slot) (e : SlotEntry) : (s.putSlot i e).relays = s.relays := by
  unfold State.putSlot
  dsimp only
  split <;> simp

/-! ## Pool and lanes -/

@[simp] theorem State.bump_relays (s : State) (p : Fin 13) (f : PortCounters → PortCounters) :
    (s.bump p f).relays = s.relays := rfl
@[simp] theorem State.roomReport_relays (s : State) : s.roomReport.relays = s.relays := rfl

@[simp] theorem State.dropClaim_relays (s : State) (id : Nat) : (s.dropClaim id).relays = s.relays := by
  unfold State.dropClaim
  dsimp only
  split <;> simp

@[simp] theorem State.reportStart_relays (s : State) (f : CtlFrame) : (s.reportStart f).relays = s.relays := by
  unfold State.reportStart
  split <;> simp

@[simp] theorem State.startData_relays (s : State) (i : Slot) (p : Plane) (c : Cls) (id : Nat) :
    (s.startData i p c id).relays = s.relays := rfl

@[simp] theorem State.kickLane_relays (s : State) (i : Slot) (p : Plane) : (s.kickLane i p).relays = s.relays := by
  unfold State.kickLane
  dsimp only
  (repeat' split) <;> simp

@[simp] theorem State.kickSlot_relays (s : State) (i : Slot) : (s.kickSlot i).relays = s.relays := by
  simp [State.kickSlot]

@[simp] theorem State.submit_relays (s : State) (i : Slot) (p : Plane) (f : CtlFrame) :
    (s.submit i p f).1.relays = s.relays := by
  unfold State.submit
  dsimp only
  split <;> simp

@[simp] theorem State.leaveUp_relays (s : State) (i : Slot) (p : Plane) (st : LaneState) :
    (s.leaveUp i p st).relays = s.relays := by
  unfold State.leaveUp
  dsimp only
  split <;> simp

@[simp] theorem State.frameStart_relays (s : State) (i : Slot) (p : Plane) (bs : List Byte) :
    (s.frameStart i p bs).relays = s.relays := by
  unfold State.frameStart
  dsimp only
  split <;> simp

/-! ## Switch core -/

@[simp] theorem State.countLoss_relays (s : State) (x : Fin 13 × Loss) : (s.countLoss x).relays = s.relays := by
  unfold State.countLoss
  dsimp only
  split <;> simp

@[simp] theorem State.countLosses_relays (s : State) (xs : List (Fin 13 × Loss)) : (s.countLosses xs).relays = s.relays :=
  foldl_relays _ State.countLoss_relays _ _

@[simp] theorem State.kickPorts_relays (s : State) (ps : List (Fin 13)) : (s.kickPorts ps).relays = s.relays :=
  foldl_relays _ (fun s p => by split <;> simp) _ _

@[simp] theorem State.place_relays (s : State) (c : Cls) (header payload : List Byte) (b : Nat) (ps : List (Fin 13)) :
    (s.place c header payload b ps).relays = s.relays := by
  simp [State.place]

@[simp] theorem State.placeLoading_relays (s : State) (c : Cls) (header : List Byte) (b : Nat) (ps : List (Fin 13)) :
    (s.placeLoading c header b ps).relays = s.relays := rfl

@[simp] theorem State.takeCardFrame_relays (s : State) (i : Slot) (header payload : List Byte) :
    (s.takeCardFrame i header payload).relays = s.relays := by
  unfold State.takeCardFrame
  dsimp only
  (repeat' split) <;> simp

@[simp] theorem State.offer_relays (s : State) (d : Nat) (c : Cls) (n : Nat) : (s.offer d c n).1.relays = s.relays := by
  unfold State.offer
  dsimp only
  (repeat' split) <;> simp

@[simp] theorem State.loadComplete_relays (s : State) (id : Nat) (payload : List Byte) :
    (s.loadComplete id payload).relays = s.relays := by
  simp [State.loadComplete]

@[simp] theorem State.frameSent_relays (s : State) (i : Slot) (c : Cls) (id : Nat) :
    (s.frameSent i c id).relays = s.relays := rfl

@[simp] theorem State.leaveQueue0_relays (s : State) (id : Nat) (f : PortCounters → PortCounters) :
    (s.leaveQueue0 id f).relays = s.relays := by
  unfold State.leaveQueue0
  dsimp only
  split <;> simp

@[simp] theorem State.abandonTx_relays (i : Slot) (c : Cls) (s : State) (p : Plane) :
    (State.abandonTx i c s p).relays = s.relays := by
  unfold State.abandonTx
  dsimp only
  (repeat' split) <;> simp

@[simp] theorem State.emptyQueue_relays (i : Slot) (s : State) (c : Cls) : (State.emptyQueue i s c).relays = s.relays := by
  unfold State.emptyQueue
  dsimp only
  split <;> simp

@[simp] theorem State.flush_relays (s : State) (i : Slot) (cs : List Cls) : (s.flush i cs).relays = s.relays := by
  rw [State.flush, State.kickSlot_relays, foldl_relays _ (by simp)]

@[simp] theorem State.flushBoth_relays (s : State) (i : Slot) : (s.flushBoth i).relays = s.relays := s.flush_relays i _

@[simp] theorem State.flushQueue0_relays (s : State) : s.flushQueue0.relays = s.relays := by
  unfold State.flushQueue0
  dsimp only
  split <;> simp

@[simp] theorem State.takeQuality_relays (s : State) (q : Nat) : (s.takeQuality q).relays = s.relays := by
  unfold State.takeQuality
  rw [foldl_relays _ (fun s i => by split <;> simp), relays_with]

/-! ## Cycle engine: the walk -/

@[simp] theorem State.cycleEnds_relays (s : State) : s.cycleEnds.relays = s.relays := rfl
@[simp] theorem State.cycleFault_relays (s : State) (k : CycleFaultKind) : (s.cycleFault k).relays = s.relays := rfl
@[simp] theorem State.endEntry_relays (s : State) (a : Addr) (ws : List Word) (r : EntryResult) :
    (s.endEntry a ws r).relays = s.relays := rfl
@[simp] theorem State.enterRun_relays (s : State) (a : Addr) (ws : List Word) (w : Work) :
    (s.enterRun a ws w).relays = s.relays := rfl

@[simp] theorem State.cycleGo_relays (s : State) (a : Addr) : (s.cycleGo a).relays = s.relays := by
  unfold State.cycleGo
  split <;> simp

@[simp] theorem State.endWait_relays (s : State) (o : EntryOutcome) : (s.endWait o).relays = s.relays := by
  unfold State.endWait
  (repeat' split) <;> simp

@[simp] theorem State.boundaryStep_relays (s : State) (e : Int) : (s.boundaryStep e).relays = s.relays := by
  unfold State.boundaryStep
  dsimp only
  (repeat' split) <;> simp

@[simp] theorem State.boundaryElapsed_relays (s : State) : s.boundaryElapsed.relays = s.relays := by
  unfold State.boundaryElapsed
  (repeat' split) <;> simp

theorem State.zeroTime_relays (s : State) {go : State → State} (h : ∀ s, (go s).relays = s.relays) :
    (s.zeroTime go).relays = s.relays := by
  unfold State.zeroTime
  dsimp only
  split <;> simp [h]

/-! ## Time base -/

@[simp] theorem State.putTime_relays (s : State) (t : TimeBase) : (s.putTime t).relays = s.relays := by
  unfold State.putTime
  dsimp only
  split <;> simp

@[simp] theorem State.glide_relays (s : State) (n : Nat) : (s.glide n).relays = s.relays := rfl

@[simp] theorem State.rollover_relays (s : State) : s.rollover.relays = s.relays := by
  simp [State.rollover]

@[simp] theorem State.carry_relays (s : State) : s.carry.relays = s.relays := by
  unfold State.carry
  split
  · rw [State.rollover_relays, relays_with]
  · rfl

@[simp] theorem State.stretch_relays (s : State) (k : Nat) : (s.stretch k).relays = s.relays := by
  simp [State.stretch]

theorem State.runOsc_relays (fuel : Nat) (s : State) (n : Nat) : (State.runOsc fuel s n).relays = s.relays := by
  induction fuel generalizing s n with
  | zero => rfl
  | succ k ih => unfold State.runOsc; split <;> simp [ih]

@[simp] theorem State.advance_relays (s : State) (n : Nat) : (s.advance n).relays = s.relays := State.runOsc_relays n s n

@[simp] theorem State.advanceTo_relays (s : State) (t : Nat) : (s.advanceTo t).relays = s.relays := s.advance_relays _

@[simp] theorem State.disqualifySlot_relays (s : State) (i : Slot) : (s.disqualifySlot i).relays = s.relays := by
  simp [State.disqualifySlot]

@[simp] theorem State.timeStep_relays (s : State) (e : Int) : (s.timeStep e).relays = s.relays := by
  unfold State.timeStep
  extract_lets m u v back ns t
  have ht : t.relays = s.relays := by
    unfold t
    split
    · rw [State.snapshot_relays, State.putTime_relays]
    · split
      · rw [State.snapshot_relays, State.putTime_relays]
      · rw [State.putTime_relays]
  rw [State.boundaryStep_relays, ht]

@[simp] theorem State.loop_relays (s : State) (n : Nat) : (s.loop n).relays = s.relays := by
  unfold State.loop
  dsimp only
  split <;> simp

@[simp] theorem State.ppsEdge_relays (s : State) : s.ppsEdge.relays = s.relays := by
  unfold State.ppsEdge
  dsimp only
  split <;> simp

@[simp] theorem State.refArrival_relays (s : State) (i : Slot) (st : Stamp) : (s.refArrival i st).relays = s.relays := by
  unfold State.refArrival
  dsimp only
  (repeat' split) <;> simp

@[simp] theorem State.setTimeOp_relays (s : State) (v : Word) : (s.setTimeOp v).relays = s.relays := rfl

@[simp] theorem State.setDisciplineOp_relays (s : State) (ps : List Word) : (s.setDisciplineOp ps).1.relays = s.relays := by
  simp [State.setDisciplineOp]

/-! ## Polls and TIME sends -/

@[simp] theorem State.setPoll_relays (s : State) (a : Addr) (ws : List Word) (w : PollWork) :
    (s.setPoll a ws w).relays = s.relays := rfl
@[simp] theorem State.pollResult_relays (s : State) (a : Addr) (ws : List Word) (w : PollWork) (final : AttemptOutcome)
    (r : Option Nat) : (s.pollResult a ws w final r).relays = s.relays := rfl
@[simp] theorem State.pollAbsent_relays (s : State) (a : Addr) (ws : List Word) (w : PollWork) :
    (s.pollAbsent a ws w).relays = s.relays := rfl

@[simp] theorem State.pollLeaves_relays (s : State) (i : Slot) : (s.pollLeaves i).relays = s.relays := by
  unfold State.pollLeaves
  (repeat' split) <;> simp

@[simp] theorem State.timeJudge_relays (s : State) (a : Addr) (ws : List Word) (w : TimeWork) :
    (s.timeJudge a ws w).relays = s.relays := by
  unfold State.timeJudge
  split <;> simp

@[simp] theorem State.countTimeNotSent_relays (s : State) : s.countTimeNotSent.relays = s.relays := rfl

theorem State.timeSubmit_relays (choice : PlaneChoice) (x : State × TimeWork) (i : Slot) :
    (State.timeSubmit choice x i).1.relays = x.1.relays := by
  unfold State.timeSubmit
  extract_lets p r
  have hr : r.1.relays = x.1.relays := State.submit_relays ..
  by_cases hq : r.2 = true
  · rw [if_pos hq, hr]
  · rw [if_neg hq, State.countTimeNotSent_relays, hr]

theorem State.timeSubmits_relays (choice : PlaneChoice) (l : List Slot) (x : State × TimeWork) :
    (l.foldl (State.timeSubmit choice) x).1.relays = x.1.relays := by
  induction l generalizing x with
  | nil => rfl
  | cons i l ih => rw [List.foldl_cons, ih, State.timeSubmit_relays]

@[simp] theorem State.timeRun_relays (s : State) (a : Addr) (ws : List Word) (target : Nat) (choice : PlaneChoice) :
    (s.timeRun a ws target choice).relays = s.relays := by
  unfold State.timeRun
  extract_lets targets w s1
  split
  · rw [State.endEntry_relays, relays_with]
  · rw [State.timeJudge_relays, State.timeSubmits_relays, relays_with]

/-! ## Ring engine -/

@[simp] theorem State.setRx_relays (s : State) (m : Option RxMove) : (s.setRx m).relays = s.relays := rfl
@[simp] theorem State.setTx_relays (s : State) (m : Option TxMove) : (s.setTx m).relays = s.relays := rfl
@[simp] theorem State.ringCount_relays (s : State) (f : RingCounters → RingCounters) :
    (s.ringCount f).relays = s.relays := rfl
@[simp] theorem State.txReturn_relays (s : State) (m : TxMove) (out : TxOutcome) :
    (s.txReturn m out).relays = s.relays := rfl

@[simp] theorem State.dropHeld_relays (s : State) (p : Purpose → Bool) : (s.dropHeld p).relays = s.relays := by
  unfold State.dropHeld
  (repeat' split) <;> simp

@[simp] theorem State.withdrawRing_relays (s : State) (side : RingSide) : (s.withdrawRing side).relays = s.relays := by
  unfold State.withdrawRing
  dsimp only
  rw [State.dropHeld_relays]
  split <;> simp

@[simp] theorem State.rxMiss_relays (s : State) (m : RxMove) : (s.rxMiss m).relays = s.relays := by
  simp [State.rxMiss]

@[simp] theorem State.walkEnds_relays (s : State) (m : RxMove) : (s.walkEnds m).relays = s.relays := by
  unfold State.walkEnds
  dsimp only
  (repeat' split) <;> simp

@[simp] theorem State.rxRead_relays (s : State) (v : Word) : (s.rxRead v).relays = s.relays := by
  unfold State.rxRead
  dsimp only
  (repeat' split) <;> simp

@[simp] theorem State.rxDelivered_relays (s : State) (m : RxMove) (n : Nat) : (s.rxDelivered m n).relays = s.relays := by
  unfold State.rxDelivered
  rw [State.deliver_relays, relays_with, State.ringCount_relays, State.leaveQueue0_relays]

@[simp] theorem State.rxWritten_relays (s : State) : s.rxWritten.relays = s.relays := by
  unfold State.rxWritten
  (repeat' split) <;> simp

@[simp] theorem State.rxStart_relays (s : State) : s.rxStart.relays = s.relays := by
  unfold State.rxStart
  dsimp only
  split <;> simp

@[simp] theorem State.rxHoldEnds_relays (s : State) : s.rxHoldEnds.relays = s.relays := by
  unfold State.rxHoldEnds
  (repeat' split) <;> simp

@[simp] theorem State.txLoaded_relays (s : State) (m : TxMove) (id : Nat) (out : TxOutcome) (bytes : List Byte) :
    (s.txLoaded m id out bytes).relays = s.relays := by
  simp [State.txLoaded]

@[simp] theorem State.txAnswer_relays (s : State) (m : TxMove) (a : OfferAnswer) : (s.txAnswer m a).relays = s.relays := by
  unfold State.txAnswer
  dsimp only
  (repeat' split) <;> simp

@[simp] theorem State.txOffer_relays (s : State) (m : TxMove) : (s.txOffer m).relays = s.relays := by
  simp [State.txOffer]

@[simp] theorem State.txJudge_relays (s : State) (m : TxMove) : (s.txJudge m).relays = s.relays := by
  unfold State.txJudge
  (repeat' split) <;> simp

@[simp] theorem State.txFetched_relays (s : State) (m : TxMove) (x : TxDesc) : (s.txFetched m x).relays = s.relays := by
  unfold State.txFetched
  dsimp only
  (repeat' split) <;> simp

@[simp] theorem State.txExamined_relays (s : State) (v : Word) (again : Bool) :
    (s.txExamined v again).relays = s.relays := by
  unfold State.txExamined
  split <;> simp

@[simp] theorem State.txRead_relays (s : State) (v : Word) : (s.txRead v).relays = s.relays := by
  unfold State.txRead
  dsimp only
  (repeat' split) <;> simp

@[simp] theorem State.examine_relays (s : State) : s.examine.relays = s.relays := by
  unfold State.examine
  split <;> simp

@[simp] theorem State.txReturned_relays (s : State) (m : TxMove) (out : TxOutcome) :
    (s.txReturned m out).relays = s.relays := by
  simp [State.txReturned]

@[simp] theorem State.txWritten_relays (s : State) : s.txWritten.relays = s.relays := by
  unfold State.txWritten
  (repeat' split) <;> simp

@[simp] theorem State.txReoffer_relays (s : State) : s.txReoffer.relays = s.relays := by
  unfold State.txReoffer
  (repeat' split) <;> simp

@[simp] theorem State.snooped_relays (s : State) (side : RingSide) : (s.snooped side).relays = s.relays := by
  unfold State.snooped
  (repeat' split) <;> simp

@[simp] theorem State.ringStartOp_relays (s : State) : s.ringStartOp.1.relays = s.relays := by
  unfold State.ringStartOp
  split <;> simp

@[simp] theorem State.txHalt_relays (s : State) : s.txHalt.relays = s.relays := by
  unfold State.txHalt
  dsimp only
  split
  · rw [relays_with, State.withdrawRing_relays]
  · split <;> simp

@[simp] theorem State.ringHalt_relays (s : State) : s.ringHalt.relays = s.relays := by
  unfold State.ringHalt
  split <;> simp

@[simp] theorem State.ringStopped_relays (s : State) : s.ringStopped.relays = s.relays := by
  simp [State.ringStopped]

/-! ## Command unit and cycle entries -/

@[simp] theorem State.emptyZones_relays (s : State) : s.emptyZones.relays = s.relays := rfl

@[simp] theorem State.cycleLeaves_relays (s : State) : s.cycleLeaves.relays = s.relays := by
  simp [State.cycleLeaves]

@[simp] theorem State.cycleStartOp_relays (s : State) (v : Word) : (s.cycleStartOp v).1.relays = s.relays := by
  unfold State.cycleStartOp
  dsimp only
  split
  · split <;> simp
  · rfl

@[simp] theorem State.cycleStopOp_relays (s : State) : s.cycleStopOp.1.relays = s.relays := by
  unfold State.cycleStopOp
  dsimp only
  (repeat' split) <;> simp

@[simp] theorem State.ringStopOp_relays (s : State) : s.ringStopOp.1.relays = s.relays := by
  unfold State.ringStopOp
  split <;> simp

@[simp] theorem State.cycleCall_relays (a target : Addr) (s : State) : (State.cycleCall a target s).relays = s.relays := by
  unfold State.cycleCall
  dsimp only
  split <;> simp

@[simp] theorem State.cycleReturn_relays (s : State) : s.cycleReturn.relays = s.relays := by
  unfold State.cycleReturn
  dsimp only
  split <;> simp

@[simp] theorem State.cycleNotify_relays (a : Addr) (v : Word) (s : State) :
    (State.cycleNotify a v s).relays = s.relays := by
  simp [State.cycleNotify]

@[simp] theorem State.cycleTime_relays (s : State) (a : Addr) (ws : List Word) : (s.cycleTime a ws).relays = s.relays := by
  unfold State.cycleTime
  dsimp only
  (repeat' split) <;> simp

@[simp] theorem State.clearCounters_relays (s : State) : s.clearCounters.relays = s.relays := rfl

/-! ## Memory port -/

@[simp] theorem State.perform_relays (s : State) (acc : BusAccess) : (s.perform acc).relays = s.relays := by
  cases acc <;> rfl

@[simp] theorem State.performDma_relays (s : State) (op : DmaOp) : (s.performDma op).1.relays = s.relays := by
  cases op <;> rfl

@[simp] theorem State.release_relays (s : State) : s.release.relays = s.relays := rfl

@[simp] theorem State.arrived_relays (s : State) (c : Classed) : (s.arrived c).relays = s.relays := by
  unfold State.arrived
  split <;> rfl

theorem State.nextAccess_relays (l : List BusAccess) (s : State) : (State.nextAccess l s).relays = s.relays := by
  induction l generalizing s with
  | nil => rfl
  | cons acc rest ih =>
    unfold State.nextAccess
    dsimp only
    split
    · rw [ih, State.guardHit_relays]
    · rw [relays_with, State.arrived_relays]

@[simp] theorem State.bringAccess_relays (s : State) : s.bringAccess.relays = s.relays := by
  unfold State.bringAccess
  split
  · rfl
  · exact State.nextAccess_relays ..

@[simp] theorem State.fill_relays (s : State) : s.fill.relays = s.relays := State.relays_of_apart s.fill_apart

@[simp] theorem State.arbitrate_relays (s : State) : s.arbitrate.relays = s.relays := by
  have hgrant (w : Requester) : (s.grant w).relays = s.relays := State.relays_of_apart (s.grant_apart w)
  unfold State.arbitrate
  (repeat' split) <;> simp [hgrant, State.grantController]

/-- R11: the arbiter's decisions leave the relay view alone. -/
@[simp] theorem State.settle_relays (s : State) : s.settle.relays = s.relays := by
  simp [State.settle]

/-! ## Rows of the time base and the ring engine -/

@[simp] theorem State.onHold_relays (s : State) : s.onHold.relays = s.relays := by
  unfold State.onHold
  (repeat' split) <;> simp

@[simp] theorem State.ppsOutEnds_relays (s : State) : s.ppsOutEnds.relays = s.relays := by
  unfold State.ppsOutEnds
  (repeat' split) <;> simp

@[simp] theorem State.watchEnds_relays (s : State) (k : Fin 4) :
    (s.watchEnds k).relays = s.relays := State.putTime_relays ..

end Sys2Proof.Machine
end

section
/-! SUPPORT. R178 through the work of the blocks: whatever moves a point judges the relays again, unless the point sounds
neither before nor after, and the command unit stays at its stage. -/

namespace Sys2Proof.Machine

open Sys2Proof

variable {s t : State} {c : CmdStage}

/-- The command unit is at the stage `c`, and the relays follow the points (R178). -/
def State.relaysAt (s : State) (c : CmdStage) : Prop := s.stage = c ∧ s.relays.follows

theorem State.relaysAt.of_relays (h : s.relaysAt c) (e : t.relays = s.relays) : t.relaysAt c := by
  obtain ⟨hst, hf⟩ := h
  exact ⟨(congrArg RelayView.stage e).trans hst, e ▸ hf⟩

/-- A fold of operations each of which keeps R178 and the stage. -/
theorem State.relaysAt.foldl {α : Type} {f : State → α → State}
    (hf : ∀ (s : State) (x : α), s.relaysAt c → (f s x).relaysAt c) (h : s.relaysAt c) (l : List α) :
    (l.foldl f s).relaysAt c :=
  l.foldlRecOn (motive := (State.relaysAt · c)) f h fun t ht x _ => hf t x ht

/-! ## Points (R165, R166, R169 to R173, R183) -/

/-- R178: judged relays follow, whatever they were before. -/
theorem State.relaysAt_judgeRelays (h : s.stage = c) : s.judgeRelays.relaysAt c := ⟨h, rfl, rfl⟩

theorem State.putPoint_relays (s : State) (k : Fin 64) (p : Point) :
    (s.putPoint k p).relays = { s.relays with points := vset s.alarm.points k p } := rfl

/-- A point that sounds neither before nor after is replaced; the relays need no judgement. -/
theorem State.relaysAt.putPoint (h : s.relaysAt c) {k : Fin 64} {p : Point} (old : (s.point k).silent) (new : p.silent) :
    (s.putPoint k p).relaysAt c := by
  obtain ⟨hst, hf⟩ := h
  refine ⟨hst, ?_⟩
  have same (sevs : List Severity) : anySounds (vset s.alarm.points k p) sevs = anySounds s.relays.points sevs :=
    anySounds_vset old new sevs
  rw [State.putPoint_relays, RelayView.follows, same, same]
  exact hf

/-- R173: what moving a point does to the points and the relays. -/
theorem State.movePoint_cases (s : State) (k : Fin 64) (p : Point) :
    (p.cfg.masked = true ∧ s.movePoint k p = s.putPoint k p) ∨
      ∃ u : State, u.relays = (s.putPoint k p).relays ∧ s.movePoint k p = u.judgeRelays := by
  unfold State.movePoint
  dsimp only
  split
  · next hm => exact .inl ⟨hm, rfl⟩
  · refine .inr ⟨_, ?_, rfl⟩
    (repeat' split) <;> simp

theorem State.point_movePoint (s : State) (k : Fin 64) (p : Point) : (s.movePoint k p).point k = p := by
  have moved (u : State) (e : u.relays = (s.putPoint k p).relays) : u.point k = p := by
    rw [State.point, show u.alarm.points = vset s.alarm.points k p from congrArg RelayView.points e, vget_vset_self]
  rcases s.movePoint_cases k p with ⟨-, e⟩ | ⟨u, hu, e⟩
  · rw [e, moved _ rfl]
  · rw [e]
    exact moved u hu

/-- A point that is masked sounds neither before nor after; any other has the relays judged. -/
theorem State.relaysAt.movePoint (h : s.relaysAt c) {k : Fin 64} {p : Point} (hcfg : p.cfg = (s.point k).cfg) :
    (s.movePoint k p).relaysAt c := by
  rcases s.movePoint_cases k p with ⟨hm, e⟩ | ⟨u, hu, e⟩
  · rw [e]
    exact h.putPoint (.inr (hcfg ▸ hm)) (.inr hm)
  · rw [e]
    exact State.relaysAt_judgeRelays ((congrArg RelayView.stage hu).trans h.1)

theorem Point.rise_cfg (p : Point) (n : Nat) : (p.rise n).cfg = p.cfg := by
  unfold Point.rise
  split <;> rfl

theorem Point.observePlain_cfg (p : Point) (seen : Bool) : (p.observePlain seen).cfg = p.cfg := by
  unfold Point.observePlain
  split
  case h_2 | h_3 => exact Point.rise_cfg ..
  all_goals (repeat' split) <;> rfl

theorem Point.observeLatched_cfg (p : Point) (seen : Bool) : (p.observeLatched seen).cfg = p.cfg := by
  unfold Point.observeLatched
  (repeat' split) <;> rfl

/-- R170, R171: an observation moves the GH412-maintained fields alone. -/
theorem Point.observe_cfg (p : Point) (seen : Bool) : (p.observe seen).cfg = p.cfg := by
  unfold Point.observe
  split
  · exact Point.observeLatched_cfg ..
  · exact Point.observePlain_cfg ..

theorem State.relaysAt.scanPoint (h : s.relaysAt c) {at0 : State} {k : Fin 64} : (State.scanPoint at0 s k).relaysAt c := by
  unfold State.scanPoint
  dsimp only
  split
  · exact h.movePoint (Point.observe_cfg ..)
  · exact h

/-- R166: the end of a scan. -/
theorem State.withMarks_relays (s : State) (m : Marks) (t : TimeBase) :
    ({ s with alarm := { s.alarm with marks := m }, time := t } : State).relays = s.relays := rfl

theorem State.relaysAt.scan (h : s.relaysAt c) : s.scan.relaysAt c := by
  unfold State.scan
  dsimp only
  split
  · exact h.of_relays (State.withMarks_relays ..)
  · exact (State.relaysAt.foldl (fun _ _ hu => hu.scanPoint) h _).of_relays (State.withMarks_relays ..)

theorem State.relaysAt.scanNow (h : s.relaysAt c) : s.scanNow.relaysAt c := by
  have hscan : s.scan.relaysAt c := h.scan
  unfold State.scanNow
  generalize s.scan = u at hscan
  exact hscan.of_relays rfl

theorem State.relaysAt.observeCard (h : s.relaysAt c) {i : Slot} {flags : BitVec 4} {codes : List Byte} :
    (s.observeCard i flags codes).relaysAt c := by
  refine State.relaysAt.foldl (fun u k hu => ?_) h _
  dsimp only
  split
  · exact hu.movePoint (Point.observe_cfg ..)
  · exact hu

theorem State.relaysAt.clearCardPoints (h : s.relaysAt c) {i : Slot} : (s.clearCardPoints i).relaysAt c := by
  refine State.relaysAt.foldl (fun u k hu => ?_) h _
  dsimp only
  split
  · exact hu.movePoint rfl
  · exact hu

theorem State.relaysAt.resetPoint (h : s.relaysAt c) {k : Fin 64} : (s.resetPoint k).relaysAt c := by
  unfold State.resetPoint
  dsimp only
  split
  · exact h.movePoint rfl
  · exact h

theorem State.relaysAt.alarmResetOp (h : s.relaysAt c) {v : Nat} (e : s.alarmResetOp v = some t) : t.relaysAt c := by
  unfold State.alarmResetOp at e
  split at e
  · obtain rfl := Option.some.inj e
    exact h.resetPoint
  · split at e
    · obtain rfl := Option.some.inj e
      exact State.relaysAt.foldl (fun _ _ hu => hu.resetPoint) h _
    · exact nomatch e

/-- A point moved to CLEAR is replaced by a point that is CLEAR. -/
theorem State.relaysAt.clearPoint (h : s.relaysAt c) {k : Fin 64} {p : Point} (hp : p.state = .clear) :
    ((s.movePoint k (s.point k).cleared).putPoint k p).relaysAt c := by
  have hmoved : (s.movePoint k (s.point k).cleared).relaysAt c := h.movePoint rfl
  refine hmoved.putPoint (.inl ?_) (.inl ?_)
  · rw [State.point_movePoint]
    exact PointState.noConfusion
  · rw [hp]
    exact PointState.noConfusion

theorem State.relaysAt.emptyPoints (h : s.relaysAt c) : s.emptyPoints.relaysAt c :=
  State.relaysAt.foldl (fun _ _ hu => hu.clearPoint rfl) h _

/-- R183: the relays are judged once the point is settled. -/
theorem State.relaysAt.applyPoint (h : s.relaysAt c) {k : Fin 64} {cfg : PointCfg} : (s.applyPoint k cfg).relaysAt c := by
  refine State.relaysAt_judgeRelays ?_
  split
  · exact h.1
  · exact (h.clearPoint rfl).1

/-! ## Polls (R145 to R149, R154) -/

/-- R77, R172: of what a change of a slot's entry brings, only the card points cleared speak to the relays. -/
theorem State.relaysAt.changeSlot (h : s.relaysAt c) {i : Slot} {new : SlotEntry} : (s.changeSlot i new).relaysAt c := by
  unfold State.changeSlot
  extract_lets old s1 s2 s3 s4 s5
  have h3 : s3.relays = s.relays := by
    unfold s3 s2 s1
    (repeat' split) <;> simp
  have h4 : s4.relaysAt c := by
    unfold s4
    split
    · exact (h.of_relays h3).clearCardPoints
    · exact h.of_relays h3
  have h5 : s5.relaysAt c := by
    unfold s5
    split
    · exact h4.of_relays (State.disqualifySlot_relays ..)
    · exact h4
  split
  · exact h5
  · exact h5.of_relays (State.kickSlot_relays ..)

theorem State.relaysAt.takePoll (h : s.relaysAt c) {i : Slot} {log : List AttemptRec} {final : AttemptOutcome} :
    (s.takePoll i log final).1.relaysAt c := State.relaysAt.changeSlot (h.of_relays (relays_with ..))

theorem State.relaysAt.pollFinish (h : s.relaysAt c) {a : Addr} {ws : List Word} {w : PollWork} {final : AttemptOutcome} :
    (s.pollFinish a ws w final).relaysAt c := by
  have ht : (s.takePoll w.slot w.log final).1.relaysAt c := h.takePoll
  cases final with
  | success x => exact ht.observeCard.of_relays (State.pollResult_relays ..)
  | noResponse | badResponse | absent => exact ht.of_relays (State.pollResult_relays ..)

theorem State.relaysAt.pollGo (fuel : Nat) (h : s.relaysAt c) {a : Addr} {ws : List Word} {w : PollWork} :
    (State.pollGo fuel s a ws w).relaysAt c := by
  induction fuel generalizing s w with
  | zero => exact h
  | succ k ih =>
    unfold State.pollGo
    split
    · exact h.of_relays (State.pollAbsent_relays ..)
    · extract_lets p n tag w1 counters cyc s1 r w2
      have hr : r.1.relaysAt c := h.of_relays (by simp [r, s1])
      split
      · exact hr
      · split
        · exact ih hr
        · exact hr.pollFinish

theorem State.relaysAt.attemptEnds (h : s.relaysAt c) {o : AttemptOutcome} : (s.attemptEnds o).relaysAt c := by
  unfold State.attemptEnds
  split
  · split
    · dsimp only
      split
      · exact h.pollGo _
      · exact h.pollFinish
    · exact h
  · exact h

theorem State.relaysAt.pollFailedFrame (h : s.relaysAt c) {i : Slot} {p : Plane} : (s.pollFailedFrame i p).relaysAt c := by
  unfold State.pollFailedFrame
  split
  · split
    · exact h.attemptEnds
    · exact h
  · exact h

theorem State.relaysAt.pollLaneDown (h : s.relaysAt c) {i : Slot} {p : Plane} : (s.pollLaneDown i p).relaysAt c := by
  unfold State.pollLaneDown
  split
  · split
    · exact h.attemptEnds
    · exact h
  · exact h

theorem State.relaysAt.takeStatus (h : s.relaysAt c) {i : Slot} {p : Plane} {payload : List Byte} {t4 : Stamp} :
    (s.takeStatus i p payload t4).relaysAt c := by
  unfold State.takeStatus
  dsimp only
  split
  · split
    · exact h.attemptEnds
    · exact h.of_relays (relays_with ..)
  · exact h.of_relays (relays_with ..)

theorem State.relaysAt.pollTimeout (h : s.relaysAt c) : s.pollTimeout.relaysAt c := by
  unfold State.pollTimeout
  split
  · split
    · split
      · exact h.attemptEnds
      · exact h
    · exact h
  · exact h

theorem State.relaysAt.reportControl (h : s.relaysAt c) {sent : Bool} {f : CtlFrame} :
    (s.reportControl sent f).relaysAt c := by
  unfold State.reportControl
  split
  · exact h
  · split
    · split -- POLL
      · split
        · split
          · exact h.of_relays (State.setPoll_relays ..)
          · exact h.attemptEnds
        · exact h
      · exact h
    · split -- TIME
      · refine h.of_relays ?_
        dsimp only
        split <;> simp
      · exact h
    · exact h

theorem State.relaysAt.reportUnsent (h : s.relaysAt c) {fs : List CtlFrame} : (s.reportUnsent fs).relaysAt c :=
  State.relaysAt.foldl (fun _ _ hu => hu.reportControl) h _

theorem State.relaysAt.cyclePoll (h : s.relaysAt c) {a : Addr} {ws : List Word} : (s.cyclePoll a ws).relaysAt c := by
  unfold State.cyclePoll
  dsimp only
  split
  · exact State.relaysAt.pollGo _ (h.of_relays (State.enterRun_relays ..))
  · exact h.of_relays (State.cycleFault_relays ..)

/-- R138: of the entries carried out only a POLL can move a point. -/
theorem State.relaysAt.cycleJudge (h : s.relaysAt c) {a : Addr} {ws : List Word} : (s.cycleJudge a ws).relaysAt c := by
  unfold State.cycleJudge
  dsimp only
  split
  case h_5 => exact h.of_relays (s.zeroTime_relays fun u => u.cycleGo_relays _) -- JUMP
  case h_6 => exact h.of_relays (s.zeroTime_relays fun u => u.cycleCall_relays a _) -- CALL
  case h_7 => exact h.of_relays (s.zeroTime_relays State.cycleReturn_relays) -- RETURN
  case h_8 => exact h.of_relays (s.zeroTime_relays fun u => u.cycleNotify_relays a _) -- NOTIFY
  case h_9 => exact h.cyclePoll -- POLL
  all_goals exact h.of_relays (by (repeat' split) <;> simp)

theorem State.relaysAt.cycleRead (h : s.relaysAt c) {v : Word} : (s.cycleRead v).relaysAt c := by
  unfold State.cycleRead
  split
  · split
    · exact h.of_relays (relays_with ..)
    · exact h.cycleJudge
  · exact h

end Sys2Proof.Machine
end

section
/-! SUPPORT. R178 through the slot manager and the working tables: slots that move clear their card points and end polls, and
the command unit stays at its stage. -/

namespace Sys2Proof.Machine

open Sys2Proof

variable {s t : State} {c : CmdStage}

/-! ## Slots that move (R39, R60, R77) -/

theorem State.relaysAt.laneOff (h : s.relaysAt c) {i : Slot} {p : Plane} : (State.laneOff i s p).relaysAt c := by
  unfold State.laneOff
  extract_lets l fs t port u
  have hu : u.relays = s.relays := by
    unfold u t
    split <;> simp
  exact (h.of_relays ((State.putSlot_relays ..).trans hu)).reportUnsent

@[simp] theorem State.laneOn_relays (i : Slot) (s : State) (p : Plane) : (State.laneOn i s p).relays = s.relays := by
  unfold State.laneOn
  dsimp only
  split <;> simp

theorem State.relaysAt.followEnable (h : s.relaysAt c) {i : Slot} {was : SlotState} :
    (s.followEnable i was).relaysAt c := by
  unfold State.followEnable
  dsimp only
  split
  · exact h
  · split
    · exact h.of_relays (foldl_relays _ (State.laneOn_relays i) _ _)
    · exact State.relaysAt.foldl (fun _ _ hu => hu.laneOff) h _

theorem State.relaysAt.moveSlot (h : s.relaysAt c) {i : Slot} {new : SlotEntry} : (s.moveSlot i new).relaysAt c := by
  unfold State.moveSlot
  dsimp only
  refine State.relaysAt.followEnable ?_
  split
  · exact h.changeSlot.of_relays (State.pollLeaves_relays ..)
  · exact h.changeSlot

theorem State.relaysAt.enterSlot (h : s.relaysAt c) {i : Slot} {st : SlotState} {f : SlotEntry → SlotEntry} :
    (s.enterSlot i st f).relaysAt c := h.moveSlot

theorem State.relaysAt.enterDraining (h : s.relaysAt c) {i : Slot} {cause : DrainCause} :
    (s.enterDraining i cause).relaysAt c := h.enterSlot

theorem State.relaysAt.enterPowering (h : s.relaysAt c) {i : Slot} {f : SlotEntry → SlotEntry} :
    (s.enterPowering i f).relaysAt c := by
  unfold State.enterPowering
  dsimp only
  split
  · exact h.enterSlot.enterSlot
  · exact h.enterSlot

theorem State.relaysAt.judgeSeated (h : s.relaysAt c) {i : Slot} : (s.judgeSeated i).relaysAt c := by
  unfold State.judgeSeated
  split
  · exact h.enterPowering
  · exact h

theorem State.relaysAt.judgeAllSeated (h : s.relaysAt c) : s.judgeAllSeated.relaysAt c :=
  State.relaysAt.foldl (fun _ _ hu => hu.judgeSeated) h _

theorem State.relaysAt.enterSeated (h : s.relaysAt c) {i : Slot} {f : SlotEntry → SlotEntry} :
    (s.enterSeated i f).relaysAt c := h.enterSlot.judgeSeated

theorem State.overtake_relays (s : State) (i : Slot) (t : State) (p : Plane) : (s.overtake i t p).relays = t.relays := by
  unfold State.overtake
  (repeat' split) <;> simp

theorem State.relaysAt.identExpired (h : s.relaysAt c) {i : Slot} : (s.identExpired i).relaysAt c :=
  h.enterSlot.of_relays (foldl_relays _ (s.overtake_relays i) _ _)

theorem State.relaysAt.endDrain (h : s.relaysAt c) {i : Slot} : (s.endDrain i).relaysAt c := by
  unfold State.endDrain
  split
  · exact h.enterSlot
  · exact h.enterSeated

/-! ## Pins and timers (R61 to R63, R68, R72, R73) -/

theorem State.relaysAt.setSlot (h : s.relaysAt c) {i : Slot} {e : SlotEntry} : (s.setSlot i e).relaysAt c :=
  h.of_relays (State.setSlot_relays ..)

theorem State.relaysAt.presenceOff (h : s.relaysAt c) {i : Slot} : (s.presenceOff i).relaysAt c := by
  unfold State.presenceOff
  dsimp only
  split
  · exact h.setSlot.setSlot
  · refine (show State.relaysAt _ c from ?_).enterSlot
    split
    · exact h.setSlot.of_relays (State.markSurprise_relays ..)
    · exact h.setSlot

theorem State.relaysAt.latchOn (h : s.relaysAt c) {i : Slot} : (s.latchOn i).relaysAt c := by
  unfold State.latchOn
  dsimp only
  split
  · exact h.setSlot.enterSeated
  · exact h.setSlot.judgeSeated
  · exact h.setSlot

theorem State.relaysAt.latchOff (h : s.relaysAt c) {i : Slot} : (s.latchOff i).relaysAt c := by
  unfold State.latchOff
  dsimp only
  split
  case h_8 => exact h.setSlot -- EMPTY, SEATED, DRAINING, RELEASED
  all_goals exact h.setSlot.enterSlot

theorem State.relaysAt.powerGoodOn (h : s.relaysAt c) {i : Slot} : (s.powerGoodOn i).relaysAt c := by
  unfold State.powerGoodOn
  dsimp only
  split
  · exact h.setSlot.enterSlot
  · exact h.setSlot

theorem State.relaysAt.powerGoodOff (h : s.relaysAt c) {i : Slot} : (s.powerGoodOff i).relaysAt c := by
  unfold State.powerGoodOff
  dsimp only
  split
  case h_4 => exact h.setSlot.endDrain -- DRAINING
  case h_5 => exact h.setSlot -- the states in which a loss is not judged
  all_goals exact h.setSlot.enterSlot

theorem State.relaysAt.backoffDone (h : s.relaysAt c) {i : Slot} : (s.backoffDone i).relaysAt c := by
  unfold State.backoffDone
  split
  · exact h.enterSlot
  · split
    · exact h.enterPowering
    · exact h.enterSeated

/-- R59: a slot timer's expiry. -/
theorem State.relaysAt.onSlotTimer (h : s.relaysAt c) {i : Slot} {st : SlotState} {f : State → State}
    (hf : ∀ {u : State}, u.relaysAt c → (f u).relaysAt c) : (s.onSlotTimer i st f).relaysAt c := by
  unfold State.onSlotTimer
  split
  · split
    · exact hf (h.of_relays (State.advanceTo_relays ..))
    · exact h
  · exact h

/-! ## The admission exchange and lane events (R64 to R69, R159, R161) -/

theorem State.requestIdent_relays (s : State) (i : Slot) (p : Plane) : (s.requestIdent i p).relays = s.relays :=
  State.submit_relays ..

theorem State.relaysAt.judgeIdent (h : s.relaysAt c) {i : Slot} {p : Plane} {bs : List Byte} :
    (s.judgeIdent i p bs).relaysAt c := by
  unfold State.judgeIdent
  dsimp only
  split
  · exact h.enterSlot
  · split
    · exact h.enterSlot
    · exact h.enterSlot.of_relays (State.submit_relays ..)

theorem State.relaysAt.takeIdent (h : s.relaysAt c) {i : Slot} {p : Plane} {bs : List Byte} :
    (s.takeIdent i p bs).relaysAt c := by
  unfold State.takeIdent
  split
  · exact h.judgeIdent
  · exact h.enterSlot.judgeIdent
  · exact h

theorem State.relaysAt.slotLane (h : s.relaysAt c) {i : Slot} {p : Plane} {st : LaneState} :
    (s.slotLane i p st).relaysAt c := by
  have hput (e : SlotEntry) : (s.putSlot i e).relaysAt c := h.of_relays (State.putSlot_relays ..)
  unfold State.slotLane
  dsimp only
  split
  · split
    · exact (hput _).enterSlot.of_relays (State.requestIdent_relays ..)
    · exact (hput _).of_relays (State.requestIdent_relays ..)
    · exact h.moveSlot
  · split <;> exact h.moveSlot

theorem State.relaysAt.laneTrained (h : s.relaysAt c) {i : Slot} {p : Plane} : (s.laneTrained i p).relaysAt c := by
  unfold State.laneTrained
  dsimp only
  split
  · exact State.relaysAt.slotLane (h.of_relays (by simp))
  · exact h

theorem State.relaysAt.laneLost (h : s.relaysAt c) {i : Slot} {p : Plane} : (s.laneLost i p).relaysAt c := by
  unfold State.laneLost
  dsimp only
  split
  · exact (h.of_relays (State.leaveUp_relays ..)).reportUnsent.slotLane.pollLaneDown
  · exact h

/-! ## Slot commands and shutdowns (R75, R76) -/

theorem State.relaysAt.slotReleaseOp (h : s.relaysAt c) {n : Nat} : (s.slotReleaseOp n).1.relaysAt c := by
  unfold State.slotReleaseOp
  split
  · exact h
  · split
    · exact h.enterDraining
    · exact h

theorem State.relaysAt.slotRetryOp (h : s.relaysAt c) {n : Nat} : (s.slotRetryOp n).1.relaysAt c := by
  unfold State.slotRetryOp
  split
  · exact h
  · split
    · exact h.enterSeated
    · exact h

theorem State.relaysAt.slotOverrideOp (h : s.relaysAt c) {n : Nat} : (s.slotOverrideOp n).1.relaysAt c := by
  unfold State.slotOverrideOp
  dsimp only
  split
  · exact h
  · split
    · exact h.enterPowering
    · exact h

theorem State.relaysAt.slotShutdown (h : s.relaysAt c) {i : Slot} : (s.slotShutdown i).relaysAt c := by
  unfold State.slotShutdown
  split
  case h_2 => exact h.of_relays (State.putSlot_relays ..) -- DRAINING stays, with a new cause
  case h_10 => exact h -- EMPTY, SEATED
  all_goals exact h.enterSlot

/-! ## Frames delivered (R45 to R48, R51) -/

theorem State.relaysAt.discardFrame (h : s.relaysAt c) {i : Slot} {p : Plane} {d : Discard} :
    (s.discardFrame i p d).relaysAt c := by
  unfold State.discardFrame
  dsimp only
  refine State.relaysAt.pollFailedFrame (h.of_relays ?_)
  split <;> simp

theorem State.relaysAt.deliverFrame (h : s.relaysAt c) {i : Slot} {p : Plane} {g : Staging} {k : FrameKind} :
    (s.deliverFrame i p g k).relaysAt c := by
  cases k with
  | ident => exact h.takeIdent
  | data => exact h.of_relays (State.takeCardFrame_relays ..)
  | status => exact h.takeStatus
  | ref =>
    unfold State.deliverFrame
    dsimp only
    split
    · exact h.of_relays (State.refArrival_relays ..)
    · exact h.of_relays (State.setLane_relays ..)
  | _ => exact h

theorem State.relaysAt.overtakenEnd (h : s.relaysAt c) {i : Slot} {p : Plane} {bs : List Byte} :
    (s.overtakenEnd i p bs).relaysAt c := by
  have hset (l : LanePort) : (s.setLane i p l).relaysAt c := h.of_relays (State.setLane_relays ..)
  unfold State.overtakenEnd
  dsimp only
  split
  · split
    · split
      · exact (hset _).discardFrame
      · exact hset _
    · exact h
  · exact h

theorem State.relaysAt.frameEnd (h : s.relaysAt c) {i : Slot} {p : Plane} {bs : List Byte} :
    (s.frameEnd i p bs).relaysAt c := by
  have hset (l : LanePort) : (s.setLane i p l).relaysAt c := h.of_relays (State.setLane_relays ..)
  unfold State.frameEnd
  dsimp only
  split
  · exact h.overtakenEnd
  · split
    · exact (hset _).discardFrame
    · exact (hset _).deliverFrame

theorem State.relaysAt.transmitEnd (h : s.relaysAt c) {i : Slot} {p : Plane} : (s.transmitEnd i p).relaysAt c := by
  have hset (l : LanePort) : (s.setLane i p l).relaysAt c := h.of_relays (State.setLane_relays ..)
  unfold State.transmitEnd
  dsimp only
  split
  · exact h
  · exact (hset _).reportControl.of_relays (State.kickSlot_relays ..)
  · exact ((hset _).of_relays (State.frameSent_relays ..)).of_relays (State.kickSlot_relays ..)

/-! ## Working tables (R33, R182, R183) -/

theorem State.relaysAt.provisionChanged (h : s.relaysAt c) {i : Slot} {was now : Bool} :
    (s.provisionChanged i was now).relaysAt c := by
  unfold State.provisionChanged
  split
  · split
    case h_4 => exact h.enterSlot -- ADMITTED
    case h_5 => exact h -- the states that keep a card not provisioned
    all_goals exact h.enterSeated
  · exact h

theorem State.relaysAt.applyPort (h : s.relaysAt c) {i : Slot} {cfg : PortCfg} : (s.applyPort i cfg).relaysAt c := by
  unfold State.applyPort
  extract_lets old e s0 shut s1 sp s2 s3
  have h1 : s1.relays = s.relays := by
    unfold s1 s0
    split <;> simp
  have hp : sp.relaysAt c := (h.of_relays h1).changeSlot
  have h3 : s3.relays = sp.relays := by
    unfold s3 s2
    (repeat' split) <;> simp
  exact (hp.of_relays h3).provisionChanged.judgeSeated

theorem State.relaysAt.applyRecord (h : s.relaysAt c) {table : Table} {index : Nat} {ws : List Word} :
    (s.applyRecord table index ws).relaysAt c := by
  cases table with
  | port =>
    unfold State.applyRecord
    dsimp only
    split
    · exact h.applyPort
    · refine h.of_relays ?_
      unfold State.applyPort0
      dsimp only
      split <;> simp
  | group =>
    unfold State.applyRecord
    dsimp only
    split
    · exact h.of_relays (relays_with ..)
    · exact h
  | alarmPoint =>
    unfold State.applyRecord
    dsimp only
    split
    · exact h.applyPoint
    · exact h
  | reference =>
    unfold State.applyRecord
    dsimp only
    split
    · exact h.of_relays (State.putTime_relays ..)
    · exact h

theorem State.relaysAt.emptyTables (h : s.relaysAt c) : s.emptyTables.relaysAt c := by
  unfold State.emptyTables
  dsimp only
  refine State.relaysAt.of_relays (State.relaysAt.emptyPoints (h.of_relays ?_)) (State.putTime_relays ..)
  exact relays_with ..

/-- In a hub state that energises no relay any point may be replaced. -/
theorem State.relaysAt.putPoint_off (h : s.relaysAt c) (off : c.hub.relaysOn = false) {k : Fin 64} {p : Point} :
    (s.putPoint k p).relaysAt c := by
  obtain ⟨rfl, hf⟩ := h
  refine ⟨rfl, ?_⟩
  rw [RelayView.follows, show s.relays.stage.hub.relaysOn = false from off, Bool.false_and, Bool.false_and] at hf
  rw [State.putPoint_relays, RelayView.follows, show s.relays.stage.hub.relaysOn = false from off, Bool.false_and,
    Bool.false_and]
  exact hf

/-- R30: a LOAD installs its points in LOADING of LOAD mode, which energises no relay. -/
theorem State.relaysAt.installTables (h : s.relaysAt c) (hc : c.hub = .loading .load) {all : List (List Word)} :
    (s.installTables all).relaysAt c := by
  have off : c.hub.relaysOn = false := by rw [hc]; rfl
  refine State.relaysAt.of_relays (State.relaysAt.foldl (fun _ _ hu => hu.putPoint_off off) ?_ _) (State.putTime_relays ..)
  exact h.of_relays (relays_with ..)

end Sys2Proof.Machine
end

section
/-! SUPPORT. R178 through the command unit, the memory port and the rows: the hub changes state only with both relays judged,
and the transfer of the command executing fits the hub state, so that a LOAD installs its points only in LOADING of LOAD
mode. -/

namespace Sys2Proof.Machine

open Sys2Proof

variable {s t : State} {c : CmdStage}

/-- What every step keeps: the transfer fits the stage of the command unit, and the relays follow the points. -/
def State.relaysSound (s : State) : Prop := s.transferFits ∧ s.relaysFollow

theorem State.relaysAt.sound (h : s.relaysAt c) (hc : c.fits) : s.relaysSound := by
  obtain ⟨rfl, hf⟩ := h
  exact ⟨s.transferFits_iff.mpr hc, s.relaysFollow_iff.mpr hf⟩

theorem State.relaysSound.relaysAt (h : s.relaysSound) : s.relaysAt s.stage := ⟨rfl, s.relaysFollow_iff.mp h.2⟩

theorem State.relaysSound.fits (h : s.relaysSound) : s.stage.fits := s.transferFits_iff.mp h.1

theorem State.relaysSound.of_relays (h : s.relaysSound) (e : t.relays = s.relays) : t.relaysSound :=
  (h.relaysAt.of_relays e).sound h.fits

/-- Work of a block that leaves the command unit at its stage. -/
theorem State.relaysSound.work (h : s.relaysSound) (ht : ∀ {c}, s.relaysAt c → t.relaysAt c) : t.relaysSound :=
  (ht h.relaysAt).sound h.fits

/-! ## Stages -/

theorem CmdStage.fits_none (h : c.transfer = none) : c.fits := by
  unfold CmdStage.fits
  simp [h]

/-- A command that is not executing has no transfer. -/
theorem CmdStage.fits.transfer_none (h : c.fits) (hc : ∀ o, c.collection ≠ .executing o) : c.transfer = none := by
  cases ht : c.transfer with
  | none => rfl
  | some x =>
    obtain ⟨o, ho⟩ := h.1 (by rw [ht]; rfl)
    exact absurd ho (hc o)

/-- Does the transfer go with every hub state? -/
def Transfer.anyHub : Transfer → Bool
  | .setup _ _ | .images _ _ => false
  | _ => true

theorem CmdStage.fits_anyHub {x : Transfer} {o : OpenCmd} (ht : c.transfer = some x) (hx : x.anyHub = true)
    (hc : c.collection = .executing o) : c.fits := by
  refine ⟨fun _ => ⟨o, hc⟩, fun addr got e => ?_, fun done got e => ?_⟩ <;>
  · obtain rfl := Option.some.inj (ht.symm.trans e)
    exact nomatch hx

theorem CmdStage.fits_setup {addr : Nat} {got : List Word} {o : OpenCmd} {m : LoadMode}
    (ht : c.transfer = some (.setup addr got)) (hc : c.collection = .executing o) (hm : c.hub = .loading m) : c.fits :=
  ⟨fun _ => ⟨o, hc⟩, fun _ _ _ => ⟨m, hm⟩, fun _ _ e => by cases ht.symm.trans e⟩

theorem CmdStage.fits_images {done : List (List Word)} {got : List Word} {o : OpenCmd}
    (ht : c.transfer = some (.images done got)) (hc : c.collection = .executing o) (hm : c.hub = .loading .load) : c.fits :=
  ⟨fun _ => ⟨o, hc⟩, fun _ _ e => (by cases ht.symm.trans e), fun _ _ _ => hm⟩

/-! ## Stages that change (R17 to R22, R27) -/

theorem State.relaysAt.setCollection (h : s.relaysAt c) (x : Collection) :
    ({ s with cmd := { s.cmd with collection := x } } : State).relaysAt { c with collection := x } := by
  obtain ⟨rfl, hf⟩ := h
  exact ⟨rfl, hf⟩

theorem State.relaysAt.startTransfer (h : s.relaysAt c) (x : Transfer) :
    (s.startTransfer x).relaysAt { c with transfer := some x } := by
  obtain ⟨rfl, hf⟩ := h
  exact ⟨rfl, hf⟩

/-- R22: a command that has finished has no transfer. -/
theorem State.relaysAt.finish (h : s.relaysAt c) {code : Nat} {r : CmdResult} {item : FailItem} {clamped : Bool} :
    (s.finish code r item clamped).relaysSound := by
  obtain ⟨rfl, hf⟩ := h
  exact State.relaysAt.sound ⟨rfl, hf⟩ (CmdStage.fits_none rfl)

theorem State.relaysAt.finishWith (h : s.relaysAt c) {cmd : Command} {r : CmdResult} : (s.finishWith cmd r).relaysSound :=
  h.finish

theorem State.relaysAt.finishAnswer (h : s.relaysAt c) {cmd : Command} {a : Answer} : (s.finishAnswer cmd a).relaysSound :=
  h.finish

theorem State.relaysSound.finishIf (h : s.relaysSound) {cmd : Command} : (s.finishIf cmd).relaysSound := by
  unfold State.finishIf
  split
  · split
    · exact h.relaysAt.finishWith
    · exact h
  · exact h

/-- R27, R178: the hub takes a new state with both relays judged. -/
theorem State.relaysAt_setHub (h : s.stage = c) {x : HubState} : (s.setHub x).relaysAt { c with hub := x } := by
  obtain rfl := h
  exact State.relaysAt.judgeAllSeated (State.relaysAt_judgeRelays rfl)

/-! ## Commands (R17 to R22, R28, R32) -/

theorem State.relaysAt.loadSetupOp (h : s.relaysAt c) {o : OpenCmd} (hc : c.collection = .executing o) {mode addr : Nat} :
    (s.loadSetupOp mode addr).relaysSound := by
  unfold State.loadSetupOp
  split
  · exact h.finishAnswer
  · split
    · exact h.finishAnswer
    · split
      · exact h.finishAnswer
      · exact ((State.relaysAt_setHub h.1).startTransfer _).sound (CmdStage.fits_setup rfl hc rfl)

theorem State.relaysAt.shutdownOp (h : s.relaysAt c) (hc : c.transfer = none) : s.shutdownOp.relaysSound := by
  have hleft : (s.setHub .shuttingDown).alarmLeaves.cycleLeaves.relaysAt { c with hub := .shuttingDown } :=
    (State.relaysAt_setHub h.1).of_relays ((State.cycleLeaves_relays _).trans (State.alarmLeaves_relays _))
  have hslots : (allSlots.foldl State.slotShutdown (s.setHub .shuttingDown).alarmLeaves.cycleLeaves).relaysAt
      { c with hub := .shuttingDown } := State.relaysAt.foldl (fun _ _ hu => hu.slotShutdown) hleft _
  exact (hslots.of_relays (State.ringHalt_relays _)).sound (CmdStage.fits_none hc)

theorem State.relaysAt.snapshotOp (h : s.relaysAt c) {o : OpenCmd} (hc : c.collection = .executing o) {addr : Nat}
    {clear : Bool} : (s.snapshotOp addr clear).relaysSound := by
  unfold State.snapshotOp
  split
  · exact (h.startTransfer _).sound (CmdStage.fits_anyHub rfl rfl hc)
  · exact h.finishAnswer

theorem State.relaysAt.tableUpdateOp (h : s.relaysAt c) {o : OpenCmd} (hc : c.collection = .executing o)
    {table index addr : Nat} : (s.tableUpdateOp table index addr).relaysSound := by
  unfold State.tableUpdateOp
  split
  · exact h.finishAnswer
  · split
    · exact h.finishAnswer
    · split
      · exact h.finishAnswer
      · exact (h.startTransfer _).sound (CmdStage.fits_anyHub rfl rfl hc)

theorem State.relaysAt.finishWhen {x : State × Bool} (h : x.1.relaysAt c) (hc : c.transfer = none) {cmd : Command} :
    (State.finishWhen x cmd).relaysSound := by
  unfold State.finishWhen
  split
  · exact h.finishWith
  · exact h.sound (CmdStage.fits_none hc)

/-- R21: whichever command its owner runs, from a stage in which it is executing with no transfer yet. -/
theorem State.relaysAt.runCommand {o p : OpenCmd} (h : s.relaysAt c) (hc : c.collection = .executing p)
    (hx : c.transfer = none) : (s.runCommand o).relaysSound := by
  obtain ⟨cmd, count, params⟩ := o
  cases cmd with
  | loadSetup => exact h.loadSetupOp hc
  | shutdown => exact h.shutdownOp hx
  | slotRelease => exact h.slotReleaseOp.finishAnswer
  | slotRetry => exact h.slotRetryOp.finishAnswer
  | slotOverride => exact h.slotOverrideOp.finishAnswer
  | counterSnapshot => exact h.snapshotOp hc
  | setDiscipline => exact (h.of_relays (s.setDisciplineOp_relays params)).finish
  | setTime => exact (h.of_relays (State.setTimeOp_relays ..)).finishWith
  | ringStart => exact (h.of_relays s.ringStartOp_relays).finishAnswer
  | ringStop => exact State.relaysAt.finishWhen (h.of_relays s.ringStopOp_relays) hx
  | cycleStart => exact (h.of_relays (State.cycleStartOp_relays ..)).finishAnswer
  | cycleStop => exact State.relaysAt.finishWhen (h.of_relays s.cycleStopOp_relays) hx
  | tableUpdate => exact h.tableUpdateOp hc
  | alarmReset =>
    unfold State.runCommand
    dsimp only
    split
    · next hv => exact (h.alarmResetOp hv).finishWith
    · exact h.finishAnswer

theorem State.relaysAt.execute (h : s.relaysAt c) (hx : c.transfer = none) {o : OpenCmd} : (s.execute o).relaysSound := by
  unfold State.execute
  split
  · exact (h.setCollection _).runCommand rfl hx
  · exact h.finishWith

theorem State.relaysAt.openCommand (h : s.relaysAt c) (hx : c.transfer = none) {code count : Nat} :
    (s.openCommand code count).relaysSound := by
  unfold State.openCommand
  extract_lets record t
  have ht : t.relaysAt c := h.of_relays (State.setRecord_relays ..)
  split
  · exact ht.finish
  · split
    · exact ht.finishAnswer
    · split
      · exact ht.execute hx
      · exact (ht.setCollection _).sound (CmdStage.fits_none hx)

/-- R20: the command cut short has finished. -/
theorem State.relaysAt.cutShort (h : s.relaysAt c) {o : OpenCmd} : (s.cutShort o).relaysSound := by
  unfold State.cutShort
  dsimp only
  split
  · exact State.relaysAt.finish (h.of_relays (State.setDisciplineOp_relays ..))
  · exact h.finishWith

theorem State.cutShort_transfer (s : State) (o : OpenCmd) : (s.cutShort o).stage.transfer = none := by
  unfold State.cutShort
  dsimp only
  split <;> rfl

theorem State.relaysSound.commandWord (h : s.relaysSound) {w : Word} : (s.commandWord w).relaysSound := by
  have idle {x : Collection} (hc : s.cmd.collection = x) (hx : ∀ o, x ≠ .executing o) : s.stage.transfer = none :=
    h.fits.transfer_none fun o e => hx o (hc.symm.trans e)
  unfold State.commandWord
  dsimp only
  split
  · exact h.of_relays (State.refuse_relays ..)
  · split
    · exact h.of_relays (State.refuse_relays ..)
    · exact h.relaysAt.cutShort.relaysAt.openCommand (State.cutShort_transfer ..)
    · next hc => exact h.relaysAt.openCommand (idle hc fun _ => Collection.noConfusion)

theorem State.relaysSound.parameterWord (h : s.relaysSound) {k : Nat} {v : Word} : (s.parameterWord k v).relaysSound := by
  unfold State.parameterWord
  dsimp only
  split
  · next o hc =>
    have hx : s.stage.transfer = none :=
      h.fits.transfer_none fun p e => Collection.noConfusion (hc.symm.trans e)
    split
    · split
      · exact h.relaysAt.execute hx
      · exact (h.relaysAt.setCollection _).sound (CmdStage.fits_none hx)
    · exact h.of_relays (State.refuse_relays ..)
  · exact h.of_relays (State.refuse_relays ..)

theorem State.relaysSound.handControl (h : s.relaysSound) {offset : Nat} {v : Word} :
    (s.handControl offset v).relaysSound := by
  unfold State.handControl
  split
  · exact h.commandWord
  · split
    · exact h.parameterWord
    · refine h.of_relays ?_
      (repeat' split) <;> rfl

/-! ## Transfers and the shutdown's completion (R28 to R33, R36, R180 to R184) -/

theorem State.relaysSound.enterService (h : s.relaysSound) : s.enterService.relaysSound := by
  unfold State.enterService
  split
  · exact h
  · extract_lets cmd ring cyc s1
    have hhub : (s1.setHub .inService).relaysAt { s.stage with hub := .inService } := State.relaysAt_setHub rfl
    exact (hhub.of_relays (State.alarmEnters_relays ..)).finishWith

theorem State.loadFails_relaysSound (s : State) (mode : LoadMode) (item : FailItem) : (s.loadFails mode item).relaysSound :=
  (State.relaysAt_setHub rfl).finish

/-- R29: the images are read next in LOAD mode only. -/
theorem State.relaysAt.setupRead (h : s.relaysAt c) {o : OpenCmd} {m : LoadMode} (hc : c.collection = .executing o)
    (hm : c.hub = .loading m) {got : List Word} : (s.setupRead got).relaysSound := by
  obtain ⟨rfl, hf⟩ := h
  unfold State.setupRead
  rw [show s.cmd.hub = .loading m from hm]
  dsimp only
  split
  · exact State.loadFails_relaysSound ..
  · cases m with
    | load =>
      refine State.relaysAt.sound (c := { s.stage with transfer := some (.images [] []) }) ?_
        (CmdStage.fits_images rfl hc hm)
      exact ⟨rfl, hf⟩
    | adopt =>
      refine State.relaysAt.sound (c := { s.stage with transfer := some (.writeout 0) }) ?_
        (CmdStage.fits_anyHub rfl rfl hc)
      exact ⟨rfl, hf⟩

/-- R30: with the last entry read, the tables are installed in LOADING of LOAD mode. -/
theorem State.relaysAt.imagesRead (h : s.relaysAt c) {o : OpenCmd} (hc : c.collection = .executing o)
    (hm : c.hub = .loading .load) (hs : s.relaysSound) {done : List (List Word)} {got : List Word} :
    (s.imagesRead done got).relaysSound := by
  have images (d : List (List Word)) (g : List Word) : (s.startTransfer (.images d g)).relaysSound :=
    (h.startTransfer _).sound (CmdStage.fits_images rfl hc hm)
  unfold State.imagesRead
  dsimp only
  split
  · exact hs
  · split
    · exact images _ _
    · split
      · exact State.loadFails_relaysSound ..
      · split
        · exact images _ _
        · exact ((h.installTables hm).startTransfer _).sound (CmdStage.fits_anyHub rfl rfl hc)

theorem State.relaysAt.stagingRead (h : s.relaysAt c) {o : OpenCmd} (hc : c.collection = .executing o) {table : Table}
    {i addr : Nat} {got : List Word} : (s.stagingRead table i addr got).relaysSound := by
  unfold State.stagingRead
  split
  · exact (h.startTransfer _).sound (CmdStage.fits_anyHub rfl rfl hc)
  · split
    · exact h.finish
    · exact (h.applyRecord.startTransfer _).sound (CmdStage.fits_anyHub rfl rfl hc)

/-- A word of the transfer of the command executing has completed. -/
theorem State.relaysSound.transferDone (h : s.relaysSound) {v : Word} : (s.transferDone v).relaysSound := by
  obtain ⟨executing, setup, images⟩ := h.1
  unfold State.transferDone
  cases hx : s.cmd.transfer with
  | none => exact h
  | some x =>
    obtain ⟨o, hc⟩ := executing (by rw [hx]; rfl)
    have started (y : Transfer) (hy : y.anyHub = true) : (s.startTransfer y).relaysSound :=
      (h.relaysAt.startTransfer y).sound (CmdStage.fits_anyHub rfl hy hc)
    cases x with
    | setup addr got =>
      obtain ⟨m, hm⟩ := setup addr got hx
      dsimp only
      split
      · exact (h.relaysAt.startTransfer _).sound (CmdStage.fits_setup rfl hc hm)
      · exact h.relaysAt.setupRead hc hm
    | images done got => exact h.relaysAt.imagesRead hc (images done got hx) h
    | writeback k | writeout k =>
      dsimp only
      split
      · exact started _ rfl
      · exact h.enterService
    | snapshot addr clear k =>
      dsimp only
      split
      · exact started _ rfl
      · refine State.relaysAt.finishWith (h.relaysAt.of_relays ?_)
        split
        · exact State.clearCounters_relays s
        · rfl
    | staging table i addr got => exact h.relaysAt.stagingRead hc
    | entryRewrite table i k =>
      dsimp only
      split
      · exact started _ rfl
      · exact h.relaysAt.finishWith

/-- R33: in SHUTTING_DOWN no setup block and no images are being read. -/
theorem State.relaysSound.completeShutdown (h : s.relaysSound) (hs : s.cmd.hub = .shuttingDown) :
    s.completeShutdown.relaysSound := by
  obtain ⟨executing, setup, images⟩ := h.1
  have hempty : s.emptyTables.emptyZones.relaysAt s.stage := h.relaysAt.emptyTables.of_relays (State.emptyZones_relays _)
  have hhub : (s.emptyTables.emptyZones.setHub .unconfigured).relaysAt { s.stage with hub := .unconfigured } :=
    State.relaysAt_setHub hempty.1
  refine State.relaysSound.finishIf (hhub.sound ⟨executing, fun a g e => ?_, fun d g e => ?_⟩)
  · obtain ⟨m, hm⟩ := setup a g e
    exact HubState.noConfusion (hs.symm.trans hm)
  · exact HubState.noConfusion (hs.symm.trans (images d g e))

/-! ## The memory port at work (R11) -/

theorem State.relaysSound.handOver (h : s.relaysSound) {a : Classed} : (s.handOver a).relaysSound := by
  unfold State.handOver
  split
  · exact h.handControl
  · exact h.of_relays (State.consumerWrite_relays ..)
  · exact h.of_relays (State.snooped_relays ..)
  all_goals exact h

/-- R136, R139: with its last result word written a halting engine finishes CYCLE_STOP. -/
theorem State.relaysSound.cycleWritten (h : s.relaysSound) : s.cycleWritten.relaysSound := by
  unfold State.cycleWritten
  split
  · split
    · exact h.of_relays (relays_with ..)
    · unfold State.cycleMovesOn
      split
      · exact State.relaysSound.finishIf (h.of_relays (State.cycleEnds_relays _))
      · exact h.of_relays (State.cycleGo_relays ..)
  · exact h

theorem State.relaysSound.completed (h : s.relaysSound) {x : Held} {v : Word} : (s.completed x v).relaysSound := by
  obtain ⟨who, purpose, op⟩ := x
  cases purpose with
  | transfer => exact h.transferDone
  | image | dropped => exact h
  | status offset fin =>
    refine h.of_relays ?_
    unfold State.completed
    dsimp only
    split <;> rfl
  | log => exact h.of_relays s.logWordDone_relays
  | rx | tx =>
    refine h.of_relays ?_
    unfold State.completed
    dsimp only
    split <;> simp
  | cycle =>
    unfold State.completed
    dsimp only
    split
    · exact h.work fun hc => hc.cycleRead
    · exact h.cycleWritten

theorem State.relaysSound.complete (h : s.relaysSound) : s.complete.relaysSound := by
  unfold State.complete
  split
  · exact h
  · exact State.relaysSound.handOver (h.of_relays (by simp))
  · exact State.relaysSound.completed (h.of_relays (by simp))

theorem State.relaysSound.settle (h : s.relaysSound) : s.settle.relaysSound := h.of_relays (State.settle_relays s)

theorem State.relaysSound.portComplete (h : s.relaysSound) : s.portComplete.relaysSound := h.complete.settle

theorem State.relaysSound.engaged (h : s.relaysSound) : s.engaged.relaysSound := by
  unfold State.engaged
  split
  · exact h
  · exact h.settle

theorem State.relaysSound.runPort {p : State → Held → Bool} (fuel : Nat) (h : s.relaysSound)
    (ht : State.runPort p fuel s = some t) : t.relaysSound := by
  induction fuel generalizing s with
  | zero => exact nomatch ht
  | succ k ih =>
    unfold State.runPort at ht
    split at ht
    · exact nomatch ht
    · exact ih h.portComplete ht
    · split at ht
      · obtain rfl := Option.some.inj ht
        exact h.portComplete
      · exact ih h.portComplete ht

theorem State.relaysSound.awaitPort (h : s.relaysSound) {p : State → Held → Bool} : (s.awaitPort p).relaysSound := by
  unfold State.awaitPort
  split
  · next ht => exact h.engaged.runPort _ ht
  · exact h.engaged

theorem State.relaysSound.serve (h : s.relaysSound) {fuel : Nat} : (s.serve fuel).relaysSound := by
  induction fuel generalizing s with
  | zero => exact h
  | succ k ih =>
    unfold State.serve
    split
    · exact ih h.portComplete
    · exact h

theorem State.relaysSound.busAccesses (h : s.relaysSound) {accs : List BusAccess} : (s.busAccesses accs).relaysSound := by
  unfold State.busAccesses
  extract_lets path t
  have ht : t.relaysSound := State.relaysSound.settle (h.of_relays (relays_with ..))
  split
  · exact ht
  · exact ht.serve

/-! ## Resets (R15, R16, R37, R38) -/

/-- R37: the command unit's controller-reset values keep the hub state and hold no transfer. -/
theorem State.relaysAt.resetCommand (h : s.relaysAt c) : ({ s with cmd := s.cmd.reset } : State).relaysSound := by
  obtain ⟨rfl, hf⟩ := h
  have hreset : ({ s with cmd := s.cmd.reset } : State).relaysAt ⟨s.cmd.hub, .idle, none⟩ := ⟨rfl, hf⟩
  exact hreset.sound (CmdStage.fits_none rfl)

/-- R37: the hub state after a controller reset is entered with the relays judged. -/
theorem State.controllerResets_relaysSound (s : State) : s.controllerResets.relaysSound :=
  (State.relaysAt_setHub rfl).resetCommand

/-- R38: PORST leaves the hub UNCONFIGURED and both relays de-energised. -/
theorem State.coldResets_relaysSound (s : State) : s.coldResets.relaysSound := by
  have hcold : s.coldResets.relaysAt ⟨.unconfigured, .idle, none⟩ := ⟨rfl, rfl, rfl⟩
  exact hcold.sound (CmdStage.fits_none rfl)

/-! ## Rows -/

/-- Work of a block with the arbiter's decision after it (`settled`). -/
theorem State.relaysSound.next_settle (h : s.relaysSound) (e : Host.Outcome.next s.settle = (.next t : Out)) :
    t.relaysSound := by
  obtain rfl := Host.Outcome.next.inj e
  exact h.settle

/-- Every row keeps R178, and the transfer of the command executing in step with the hub state. -/
theorem exec_relaysSound {i : Instr} (h : s.relaysSound) (e : exec i s = .next t) : t.relaysSound := by
  have bus {accs : List BusAccess} (e : Host.Outcome.next (s.busAccesses accs) = (.next t : Out)) : t.relaysSound := by
    obtain rfl := Host.Outcome.next.inj e
    exact h.busAccesses
  have await {p : State → Held → Bool} (e : Host.Outcome.next (s.awaitPort p) = (.next t : Out)) : t.relaysSound := by
    obtain rfl := Host.Outcome.next.inj e
    exact h.awaitPort
  have work {u : State} (hu : ∀ {c}, s.relaysAt c → u.relaysAt c) (e : Host.Outcome.next u.settle = (.next t : Out)) :
      t.relaysSound := (h.work hu).next_settle e
  have still {u : State} (hu : u.relays = s.relays) (e : Host.Outcome.next u.settle = (.next t : Out)) : t.relaysSound :=
    (h.of_relays hu).next_settle e
  cases i with
  | controllerRead | plainWrite | partialControlWrite | guardedWrite | snoopedRingWrite | parameterWrite
  | attentionMaskWrite | attentionAcknowledge | consumerIndexWrite | unknownCommand | loadSetup | shutdown
  | counterSnapshot | setDiscipline | setTime | ringStart | ringStop | cycleStart | cycleStop | slotRelease | slotRetry
  | slotOverride | tableUpdate | alarmReset => exact bus e
  | setupBlockReadDone | loadImagesReadDone | loadWritebackDone | adoptWriteoutDone | statusRewriteDone
  | counterSnapshotDone | stagingRecordReadDone | imageEntryRewriteDone | imageWordRewriteDone | rxWalkEnd
  | rxPlacementDone | rxFrameDelivered | rxMissMarkerDone | txExamineDone | txChainJudge | txLoadComplete | txReturnDone
  | cycleEntryFetchDone | cycleWriteBackDone | logEntryWritten => exact await e
  | portAccessComplete =>
    obtain rfl := Host.Outcome.next.inj e
    exact h.engaged.portComplete
  | controllerReset => exact s.controllerResets_relaysSound.next_settle e
  | coldReset =>
    obtain rfl := Host.Outcome.next.inj e
    exact s.coldResets_relaysSound
  | shutdownComplete =>
    refine State.relaysSound.next_settle ?_ e
    split
    · next hready =>
      simp only [State.shutdownReady, Bool.and_eq_true, beq_iff_eq] at hready
      obtain ⟨⟨⟨hhub, -⟩, -⟩, -⟩ := hready
      exact h.completeShutdown hhub
    · exact h
  | trainingComplete => exact work (fun hc => hc.laneTrained) e
  | lossOfSignal => exact work (fun hc => hc.laneLost) e
  | frameEndReceived => exact work (fun hc => hc.frameEnd) e
  | frameTransmitEnd => exact work (fun hc => hc.transmitEnd) e
  | presenceLoss => exact work (fun hc => hc.presenceOff) e
  | latchClosed => exact work (fun hc => hc.latchOn) e
  | latchOpened => exact work (fun hc => hc.latchOff) e
  | powerGoodArrival => exact work (fun hc => hc.powerGoodOn) e
  | powerGoodLoss => exact work (fun hc => hc.powerGoodOff) e
  | presenceDebounceExpiry => exact work (fun hc => hc.onSlotTimer fun hu => hu.enterSeated) e
  | powerGoodWaitExpiry => exact work (fun hc => hc.onSlotTimer fun hu => hu.enterSlot) e
  | trainingTimerExpiry => exact work (fun hc => hc.onSlotTimer fun hu => hu.enterSlot) e
  | identWaitExpiry => exact work (fun hc => hc.onSlotTimer fun hu => hu.identExpired) e
  | drainTimerExpiry => exact work (fun hc => hc.onSlotTimer fun hu => hu.endDrain) e
  | backoffExpiry => exact work (fun hc => hc.onSlotTimer fun hu => hu.backoffDone) e
  | drainEnd =>
    refine work (fun hc => ?_) e
    split
    · exact hc.endDrain
    · exact hc
  | pollResponseTimeout =>
    refine work (fun hc => ?_) e
    split
    · exact State.relaysAt.pollTimeout (hc.of_relays (State.advanceTo_relays ..))
    · exact hc
  | alarmScan => exact work (fun hc => State.relaysAt.scanNow (hc.of_relays (State.advanceTo_relays ..))) e
  | ringHaltComplete =>
    refine State.relaysSound.next_settle ?_ e
    split
    · exact State.relaysSound.finishIf (h.of_relays (State.ringStopped_relays s))
    · exact h
  | presenceArrival => exact still (State.setSlot_relays ..) e
  | frameStartReceived => exact still (State.frameStart_relays ..) e
  | heldFrameReoffer => exact still (State.txReoffer_relays s) e
  | rxMovementStart => exact still (by split <;> simp) e
  | rxHoldExpiry => exact still (State.onHold_relays s) e
  | rollover => exact still (State.advance_relays ..) e
  | ppsOutPulseEnd => exact still (by split <;> simp) e
  | ppsInEdge => exact still (State.ppsEdge_relays s) e
  | referenceWatchExpiry => exact still (by split <;> simp) e
  | waitGapExpiry => exact still (by split <;> simp) e
  | waitBoundaryReached => exact still (by split <;> simp) e
  | oscillatorPeriod => exact still (State.advance_relays ..) e
  | contactLevelChange =>
    refine still ?_ e
    rfl

/-- Settles O11: every row keeps R178 (`exec_relaysSound`), and an idle step changes nothing. -/
theorem relaysFollowPoints : Obligations.RelaysFollowPoints := by
  unfold Obligations.RelaysFollowPoints
  intro s t hfits hfollow e
  have h : s.relaysSound := ⟨hfits, hfollow⟩
  unfold step at e
  split at e
  · obtain rfl := Host.Outcome.next.inj e
    exact hfollow
  · exact (exec_relaysSound (h.of_relays (relays_with ..)) e).2

end Sys2Proof.Machine
end

section
/-! SUPPORT. O1 to O5: the form of a step, the state after reset, and what follows from the shape of a row (`RowShape`):
memory in canonical form, a port that is never left idle, and a next state for every row. -/

namespace Sys2Proof.Machine

open Sys2Proof

/-- A step keeps what idling keeps and every row keeps: the queue it is taken from counts for nothing. -/
theorem step_keeps {P : State → Prop} (hq : ∀ (s : State) (q : List Instr), P s → P { s with pending := q })
    (hx : ∀ (c : Instr) (s t : State), P s → exec c s = .next t → P t) {s t : State} (h : P s) (e : step s = .next t) :
    P t := by
  unfold step at e
  split at e
  · exact Host.Outcome.next.inj e ▸ h
  · exact hx _ _ _ (hq _ _ h) e

/-- The next state of a row has one of the shapes of `RowShape`. -/
theorem exec_rowShape {c : Instr} {s t : State} (e : exec c s = .next t) : RowShape c s t := by
  obtain ⟨t', he, hs⟩ := exec_shape c s
  rw [he] at e
  exact Host.Outcome.next.inj e ▸ hs

/-- Settles O1: `step` looks at the front of the queue only. -/
theorem stepTakesFront : Obligations.StepTakesFront := by
  unfold Obligations.StepTakesFront
  refine ⟨fun c rest s h => ?_, fun s h => ?_⟩ <;>
    · unfold step
      rw [h]

/-- Settles O3: each shape of a row keeps the canonical form. -/
theorem memoryStaysCanonical : Obligations.MemoryStaysCanonical := by
  unfold Obligations.MemoryStaysCanonical
  intro s t h e
  refine step_keeps (P := fun s => Memory.WF s.mem) (fun _ _ h => h) (fun c s t h e => ?_) h e
  have hs := exec_rowShape e
  obtain ⟨accs, rfl⟩ | ⟨p, rfl⟩ | ⟨u, hu, rfl⟩ | h' | h' | ⟨-, h'⟩ := hs
  · exact State.busAccesses_wf h
  · exact State.awaitPort_wf h
  · exact State.settle_wf (outside_mem hu ▸ h)
  · exact h' ▸ State.portComplete_wf (State.engaged_wf h)
  · exact h' ▸ State.settle_wf (State.controllerResets_wf h)
  · exact h' ▸ State.coldResets_wf h

/-! ## The port at the end of a row (R11) -/

/-- The port is held or there is no work for it. -/
def State.portBusy (s : State) : Prop := s.path.holder = none → s.portWork = false

theorem State.settle_portBusy (s : State) : s.settle.portBusy := State.settle_done s

theorem State.engaged_portBusy (s : State) : s.engaged.portBusy := by
  unfold State.engaged
  split
  · rename_i h
    intro hn
    rw [hn] at h
    cases h
  · exact State.settle_portBusy s

theorem State.serve_portBusy (k : Nat) {s : State} (h : s.portBusy) : (s.serve k).portBusy := by
  induction k generalizing s with
  | zero => exact h
  | succ k ih =>
    unfold State.serve
    split
    · exact ih (State.settle_portBusy _)
    · exact h

theorem State.runPort_portBusy {p : State → Held → Bool} (k : Nat) {s t : State} (h : State.runPort p k s = some t) :
    t.portBusy := by
  induction k generalizing s with
  | zero => cases h
  | succ k ih =>
    unfold State.runPort at h
    split at h
    · cases h
    · exact ih h
    · split at h
      · exact Option.some.inj h ▸ State.settle_portBusy _
      · exact ih h

theorem State.awaitPort_portBusy (s : State) (p : State → Held → Bool) : (s.awaitPort p).portBusy := by
  unfold State.awaitPort
  split
  · rename_i t h
    exact State.runPort_portBusy _ h
  · exact State.engaged_portBusy s

theorem State.busAccesses_portBusy (s : State) (accs : List BusAccess) : (s.busAccesses accs).portBusy := by
  unfold State.busAccesses
  split
  · exact State.settle_portBusy _
  · exact State.serve_portBusy _ (State.settle_portBusy _)

/-- Settles O4: every shape of a row but a cold reset ends with the arbiter's decision taken. -/
theorem portNeverIdle : Obligations.PortNeverIdle := by
  unfold Obligations.PortNeverIdle
  intro c s t hc e
  have hs := exec_rowShape e
  obtain ⟨accs, rfl⟩ | ⟨p, rfl⟩ | ⟨u, -, rfl⟩ | h' | h' | ⟨hcold, -⟩ := hs
  · exact State.busAccesses_portBusy s accs
  · exact State.awaitPort_portBusy s p
  · exact State.settle_portBusy u
  · exact h' ▸ State.settle_portBusy _
  · exact h' ▸ State.settle_portBusy _
  · exact absurd hcold hc

/-! ## The queue of commands and events -/

theorem State.pending_of_apart {s t : State} (h : s.apart = t.apart) : s.pending = t.pending := congrArg (·.pending) h

theorem State.nextAccess_pending (l : List BusAccess) (s : State) : (State.nextAccess l s).pending = s.pending := by
  induction l generalizing s with
  | nil => rfl
  | cons acc rest ih =>
    by_cases hg : (s.classed acc).cls = .guarded
    · cases acc with
      | read a => cases hg
      | write a d be => rw [State.nextAccess_guarded hg, ih]; rfl
    · obtain ⟨m, hm⟩ := s.arrived_eq (s.classed acc)
      rw [State.nextAccess_cons hg, hm]

theorem State.settle_pending (s : State) : s.settle.pending = s.pending := by
  have hb : s.bringAccess.pending = s.pending := by
    unfold State.bringAccess
    split
    · rfl
    · exact State.nextAccess_pending _ s
  have ha (u : State) : u.arbitrate.pending = u.pending := by
    unfold State.arbitrate
    repeat' split
    all_goals first | rfl | exact State.pending_of_apart (State.grant_apart _ _)
  unfold State.settle
  rw [State.pending_of_apart (State.fill_apart _), ha, State.pending_of_apart (State.fill_apart _), hb]

theorem State.complete_pending (s : State) : s.complete.pending = s.pending := by
  unfold State.complete
  split
  · rfl
  · rename_i c _
    rw [outside_pending (State.handOver_outside _ _)]
    cases c.acc <;> rfl
  · rename_i h _
    dsimp only
    rw [outside_pending (State.completed_outside _ _ _)]
    cases h.op <;> rfl

theorem State.portComplete_pending (s : State) : s.portComplete.pending = s.pending :=
  (State.settle_pending _).trans s.complete_pending

theorem State.engaged_pending (s : State) : s.engaged.pending = s.pending := by
  unfold State.engaged
  split
  · rfl
  · exact s.settle_pending

theorem State.runPort_pending {p : State → Held → Bool} (k : Nat) {s t : State} (h : State.runPort p k s = some t) :
    t.pending = s.pending := by
  induction k generalizing s with
  | zero => cases h
  | succ k ih =>
    unfold State.runPort at h
    split at h
    · cases h
    · rw [ih h, State.portComplete_pending]
    · split at h
      · rw [← Option.some.inj h, State.portComplete_pending]
      · rw [ih h, State.portComplete_pending]

theorem State.awaitPort_pending (s : State) (p : State → Held → Bool) : (s.awaitPort p).pending = s.pending := by
  unfold State.awaitPort
  split
  · rename_i t h
    rw [State.runPort_pending _ h, State.engaged_pending]
  · exact s.engaged_pending

theorem State.serve_pending (k : Nat) (s : State) : (s.serve k).pending = s.pending := by
  induction k generalizing s with
  | zero => rfl
  | succ k ih =>
    unfold State.serve
    split
    · rw [ih, State.portComplete_pending]
    · rfl

theorem State.busAccesses_pending (s : State) (accs : List BusAccess) : (s.busAccesses accs).pending = s.pending := by
  unfold State.busAccesses
  split
  · exact State.settle_pending _
  · rw [State.serve_pending, State.settle_pending]

theorem State.controllerResets_pending (s : State) : s.controllerResets.pending = s.pending := by
  have hp : s.resetPort.pending = s.pending := by
    unfold State.resetPort
    exact (State.complete_pending _).trans (outside_pending (State.dropHeld_outside s _))
  unfold State.controllerResets
  dsimp only
  rw [outside_pending (State.setHub_outside _ _), outside_pending (State.emptyZones_outside _),
    outside_pending (State.setCyc_outside _ _), outside_pending (State.ringReset_outside _)]
  unfold State.resetLog State.resetTables
  rw [← hp]
  (repeat' split) <;> simp [outside_pending (State.alarmLeaves_outside _), outside_pending (State.emptyTables_outside _)]

/-- Settles O5: a row of any shape answers a next state and leaves the queue alone. -/
theorem everyRowAnswers : Obligations.EveryRowAnswers := by
  unfold Obligations.EveryRowAnswers
  intro c s
  obtain ⟨t, he, hs⟩ := exec_shape c s
  refine ⟨t, he, ?_⟩
  obtain ⟨accs, rfl⟩ | ⟨p, rfl⟩ | ⟨u, hu, rfl⟩ | h' | h' | ⟨-, h'⟩ := hs
  · exact State.busAccesses_pending s accs
  · exact State.awaitPort_pending s p
  · exact (State.settle_pending u).trans (outside_pending hu)
  · exact h' ▸ (State.portComplete_pending _).trans (State.engaged_pending s)
  · exact h' ▸ (State.settle_pending _).trans (State.controllerResets_pending s)
  · exact h' ▸ rfl

/-! ## The state after reset (R16, R38, R57, R78, R97, R112, R133, R153, R179) -/

theorem vget_replicate {α : Type} {n : Nat} (x : α) (i : Fin n) : vget (Vector.replicate n x) i = x := by
  simp [vget]

theorem State.reset_slot (i : Slot) : State.reset.slot i = SlotEntry.cold := vget_replicate _ i

theorem State.reset_lane (i : Slot) (p : Plane) : State.reset.lane i p = LanePort.cold := by
  cases p <;> exact congrArg (Lanes.get · _) (vget_replicate _ i)

theorem State.reset_point (k : Fin 64) : State.reset.point k = Point.cold := vget_replicate _ k

theorem State.reset_queue (i : Slot) (c : Cls) : State.reset.sw.queue i c = EgressQueue.nil := by
  cases c <;> exact congrArg (SlotQueues.get · _) (vget_replicate _ i)

/-- Settles O2: every table of the state after reset repeats one cold entry. -/
theorem resetMeetsInvariants : Obligations.ResetMeetsInvariants := by
  unfold Obligations.ResetMeetsInvariants
  refine ⟨Memory.wf_nil, ?_, ⟨rfl, List.nodup_nil, fun _ h => nomatch h⟩, fun i => ?_, ?_, ⟨fun i => ?_, fun i _ => ?_,
    fun _ i => ?_⟩, fun k => ⟨fun _ => ?_, fun i hc => ?_⟩, fun i h => ?_, ?_⟩
  · exact ⟨by decide, by decide, by decide, by decide, by decide, by decide, fun v h => nomatch h⟩
  · refine ⟨by rw [State.reset_slot]; rfl, fun p => ?_⟩
    rw [State.reset_lane, State.reset_slot]
    exact ⟨rfl, iff_of_true rfl rfl⟩
  · exact ⟨fun h => (nomatch h), fun _ _ h => (nomatch h), fun _ _ h => (nomatch h)⟩
  · exact .inr (.inr (State.reset_queue i))
  · exact State.reset_queue i .timed
  · exact .inl (congrArg (·.state) (State.reset_slot i))
  · rw [State.reset_point]
    exact ⟨rfl, rfl, rfl⟩
  · rw [State.reset_point] at hc
    cases hc
  · cases h
  · have hoff : ¬ (State.reset.cmd.hub = .inService ∨ State.reset.cmd.hub = .carrying
        ∨ State.reset.cmd.hub = .loading .adopt) := by decide
    exact ⟨iff_of_false (by decide) (fun h => hoff h.1), iff_of_false (by decide) (fun h => hoff h.1)⟩

end Sys2Proof.Machine
end

section
/-! SUPPORT. O12 to O16, O19, O20 and O60: what an access of the controller and the completion of an access at the port do. -/

namespace Sys2Proof.Machine

open Sys2Proof

variable {s u : State}

/-! ## Rows that end in a decision of the arbiter, or in a completion -/

/-- A row that is work of the blocks: apart from the arbiter's bookkeeping its next state is the work's. -/
theorem settled_apart {x : State} (hq : u.busQuiet) (hx : u.apart = x) : ∃ t, settled u = .next t ∧ t.apart = x :=
  ⟨u.settle, rfl, (State.settle_apart hq).trans hx⟩

theorem State.release_performDma_busQuiet (op : DmaOp) (h : s.busQuiet) : (s.release.performDma op).1.busQuiet := by
  cases op <;> exact h

theorem State.complete_busQuiet (h : s.busQuiet) : s.complete.busQuiet := by
  unfold State.complete
  split
  · exact h
  · rename_i c _
    refine outside_busQuiet (State.handOver_outside _ c) ?_
    cases c.acc <;> exact h
  · rename_i x _
    exact outside_busQuiet (State.completed_outside _ x _) (State.release_performDma_busQuiet x.op h)

theorem exec_portAccessComplete_held (hh : s.path.holder.isSome) : exec .portAccessComplete s = .next s.portComplete := by
  change Host.Outcome.next s.engaged.portComplete = _
  rw [State.engaged_held hh]

/-- R11: with a quiet bus the completion of an access leaves what `State.complete` gives. -/
theorem State.portComplete_apart (h : s.busQuiet) : s.portComplete.apart = s.complete.apart :=
  State.settle_apart (State.complete_busQuiet h)

theorem exec_portAccessComplete_apart (h : s.busQuiet) (hh : s.path.holder.isSome) :
    ∃ t, exec .portAccessComplete s = .next t ∧ t.apart = s.complete.apart :=
  ⟨_, exec_portAccessComplete_held hh, State.portComplete_apart h⟩

theorem State.complete_word {h : Held} (hh : s.path.holder = some (.word h)) :
    s.complete = (s.release.performDma h.op).1.completed h (s.release.performDma h.op).2 := by
  unfold State.complete
  rw [hh]

theorem State.complete_controller {c : Classed} (hh : s.path.holder = some (.controller c)) :
    s.complete = (s.release.perform c.acc).handOver c := by
  unfold State.complete
  rw [hh]

/-- R23: a cause delivered, apart from the rewrite set. -/
theorem State.deliver_apart (s : State) (c : Cause) : (s.deliver c).apart = (s.withCauses c.bits).apart := rfl

/-! ## The classes of R2 from the addresses -/

theorem State.classify_plain {a : Addr} {be : ByteEnables}
    (h : (a.toNat < Config.controlPage ∧
        (s.guard = false ∨ s.path.zones = none ∨ ∃ z, s.path.zones = some z ∧ ∀ x ∈ z.toList, x.has a.toNat = false)) ∨
      (Config.controlPage ≤ a.toNat ∧ controlWordOffset (a.toNat - Config.controlPage) = false ∧
        (s.guard = false ∨ a.toNat < Config.controlPage + 0x20 ∨ Config.controlPage + 0x5B < a.toNat))) :
    s.classify a be = .plain := by
  obtain ⟨ha, hz⟩ | ⟨ha, hc, hg⟩ := h
  · have hp := pageOffset_of_lt ha
    by_cases hg : s.guard = true
    · obtain hn | hn | ⟨z, hz, hx⟩ := hz
      · rw [hg] at hn
        cases hn
      · exact State.classify_off hp (.inr hn)
      · rw [State.classify_zones hp hg hz]
        simp only [ZoneSet.toList, List.mem_cons, List.not_mem_nil, or_false, forall_eq_or_imp, forall_eq] at hx
        simp [ZoneSet.toList, hx]
    · exact State.classify_off hp (.inl (Bool.eq_false_iff.mpr hg))
  · rw [State.classify_page (pageOffset_of_le ha), show isControlOffset _ = false from hc, if_neg Bool.false_ne_true]
    have hrange : ¬ ((0x20 ≤ a.toNat - Config.controlPage && a.toNat - Config.controlPage ≤ 0x5B && s.guard) = true) := by
      intro hr
      simp only [Bool.and_eq_true, decide_eq_true_eq] at hr
      obtain ⟨⟨h1, h2⟩, h3⟩ := hr
      obtain hg | hg | hg := hg
      · rw [h3] at hg
        cases hg
      · omega
      · omega
    rw [if_neg hrange]

theorem State.classify_guarded {a : Addr} {be : ByteEnables} (hg : s.guard = true)
    (h : Config.controlPage + 0x20 ≤ a.toNat ∧ a.toNat ≤ Config.controlPage + 0x5B ∨
      a.toNat < Config.controlPage ∧ ∃ z, s.path.zones = some z ∧ z.rx.has a.toNat = false ∧ z.tx.has a.toNat = false ∧
        ∃ x ∈ [z.log, z.portImage, z.groupImage, z.pointImage, z.referenceImage], x.has a.toNat = true) :
    s.classify a be = .guarded := by
  obtain ⟨h1, h2⟩ | ⟨ha, z, hz, hr, ht, hx⟩ := h
  · rw [State.classify_page (pageOffset_of_le (by omega))]
    have hc : isControlOffset (a.toNat - Config.controlPage) = false := by
      simp only [isControlOffset, Bool.or_eq_false_iff, Bool.and_eq_false_iff, decide_eq_false_iff_not]
      omega
    rw [hc, if_neg Bool.false_ne_true, if_pos]
    simp only [Bool.and_eq_true, decide_eq_true_eq]
    exact ⟨by omega, hg⟩
  · rw [State.classify_zones (pageOffset_of_lt ha) hg hz, hr, ht, if_neg Bool.false_ne_true, if_neg Bool.false_ne_true, if_pos]
    exact List.any_eq_true.mpr hx

/-! ## Accesses of the controller (O12 to O15) -/

/-- A write that is handed to no block, on a free port. -/
theorem State.busAccess_plain {a : Addr} {d : Word} {be : ByteEnables} (h : s.portFree) (hc : s.classify a be = .plain) :
    (s.busAccess (.write a d be)).apart = ({ s with mem := Memory.writeWord s.mem a d be } : State).apart := by
  obtain ⟨n, p, l, rp, rl, he⟩ := State.busAccess_free (acc := .write a d be) h (by
    rw [State.classed_write, hc]
    exact fun h => nomatch h)
  rw [State.classed_write, hc] at he
  rw [he]
  obtain ⟨⟨hw, hl⟩, -, -⟩ := h
  simp only [State.apart, State.handOver, State.arrived, State.perform, State.granting, hw, hl]

theorem State.busAccess_read {a : Addr} (h : s.portFree) :
    (s.busAccess (.read a)).apart
      = ({ s with path := { s.path with cdata := Memory.readWord s.mem a } } : State).apart := by
  obtain ⟨n, p, l, rp, rl, he⟩ := State.busAccess_free (acc := .read a) h (fun h => nomatch h)
  rw [he]
  obtain ⟨⟨hw, hl⟩, -, -⟩ := h
  simp only [State.apart, State.handOver, State.arrived, State.perform, State.granting, State.classed_read, hw, hl]

theorem State.busAccess_partial {o : Nat} {d : Word} {be : ByteEnables} (h : s.portFree) (ho : o < 256)
    (hc : controlWordOffset o = true) (hb : be ≠ 0xF) :
    (s.busAccess (.write (pageAddr o) d be)).apart = ({ s with
      mem := Memory.writeWord s.mem (pageAddr o) d be
      path := { s.path with partialCount := min (s.path.partialCount + 1) 4294967295 } } : State).apart := by
  have hk : s.classify (pageAddr o) be = .partialControl := by
    rw [State.classify_page (pageOffset_pageAddr ho), show isControlOffset o = true from hc, if_pos rfl, if_neg (show be ≠ allBytes from hb)]
  obtain ⟨n, p, l, rp, rl, he⟩ := State.busAccess_free (acc := .write (pageAddr o) d be) h (by
    rw [State.classed_write, hk]
    exact fun h => nomatch h)
  rw [State.classed_write, hk] at he
  rw [he]
  obtain ⟨⟨hw, hl⟩, -, -⟩ := h
  simp only [State.apart, State.handOver, State.arrived, State.countPartial, State.perform, State.granting, hw, hl]
  rfl

/-- Settles O13: a write that no block owns goes to memory, byte by byte as `Memory.read_writeWord` says. -/
theorem plainAndPartialWritesStore : Obligations.PlainAndPartialWritesStore := by
  unfold Obligations.PlainAndPartialWritesStore
  refine ⟨fun a d be s h hm ha => ?_, fun o d be s h ho hb => ?_⟩
  · have he := State.busAccess_plain (d := d) h (State.classify_plain (be := be) ha)
    have hmem := State.mem_eq_of_apart he
    refine ⟨_, rfl, ?_, fun b => ?_⟩
    · rw [he, hmem]
    · rw [hmem]
      exact Memory.read_writeWord hm
  · exact ⟨_, rfl, State.busAccess_partial h o.isLt ho hb⟩

/-- Settles O14: a guarded write is counted where it stands on the bus (`State.busAccess_guarded`). -/
theorem guardedWriteDiscarded : Obligations.GuardedWriteDiscarded := by
  unfold Obligations.GuardedWriteDiscarded
  intro a d be s hq hh hg ha
  refine ⟨_, rfl, (State.busAccess_guarded hq hh ?_).trans rfl⟩
  exact State.classify_guarded hg ha

theorem State.busAccess_snooped {a : Addr} {d : Word} {be : ByteEnables} {side : RingSide} {w : Nat} (h : s.portFree)
    (hc : s.classify a be = .snooped side w) :
    ∃ n p l rp rl, (s.busAccess (.write a d be)).apart =
      (({ s.granting [] n p l rp rl with mem := Memory.writeWord s.mem a d be } : State).snooped side).apart := by
  obtain ⟨n, p, l, rp, rl, he⟩ := State.busAccess_free (acc := .write a d be) h (by
    rw [State.classed_write, hc]
    exact fun h => nomatch h)
  rw [State.classed_write, hc] at he
  exact ⟨n, p, l, rp, rl, he⟩

/-- Settles O15: the write is performed, and the ring engine takes it as `State.snooped` says for its state. -/
theorem snoopedWriteHandedOver : Obligations.SnoopedWriteHandedOver := by
  unfold Obligations.SnoopedWriteHandedOver
  intro a d be s z h hg hz ha
  have hcls := State.classify_zones (be := be) (pageOffset_of_lt ha) hg hz
  have hpath : s.path.waiting = none ∧ s.path.line = [] := h.1
  refine ⟨fun hstop hx => ⟨_, rfl, ?_⟩, fun hr hx hrun hnone hexam => ⟨_, rfl, ?_⟩, fun m hx hrun hm hp => ⟨_, rfl, ?_⟩⟩
  · have hside : ∃ side w, s.classify a be = .snooped side w := by
      rw [hcls]
      by_cases hr : z.rx.has a.toNat = true
      · exact ⟨_, _, if_pos hr⟩
      · rw [if_neg hr, if_pos (hx.resolve_left hr)]
        exact ⟨_, _, rfl⟩
    obtain ⟨side, w, hc⟩ := hside
    obtain ⟨n, p, l, rp, rl, he⟩ := State.busAccess_snooped (d := d) h hc
    refine he.trans ?_
    unfold State.snooped
    rw [if_pos (by simp [State.granting, hstop])]
    simp only [State.apart, State.granting, hpath]
  · rw [hr, hx, if_neg Bool.false_ne_true, if_pos rfl] at hcls
    obtain ⟨n, p, l, rp, rl, he⟩ := State.busAccess_snooped (d := d) h hcls
    refine he.trans ?_
    unfold State.snooped
    rw [if_neg (by simp [State.granting, hrun])]
    simp only [State.apart, State.granting, hpath, hnone, hexam, Option.isSome_none]
  · rw [hx, if_pos rfl] at hcls
    obtain ⟨n, p, l, rp, rl, he⟩ := State.busAccess_snooped (d := d) h hcls
    refine he.trans ?_
    unfold State.snooped
    rw [if_neg (by simp [State.granting, hrun])]
    simp only [State.apart, State.granting, hpath, hm, hp, State.setRx]

/-! ## Completions (O16, O60) -/

/-- Settles O16: a completed word is in memory, and only the done-sequence word of a finished command brings a cause. -/
theorem portWordPerformed : Obligations.PortWordPerformed := by
  unfold Obligations.PortWordPerformed
  refine ⟨fun s o fin a d hq hh => ?_, fun s a d hq hh => ?_⟩
  · refine ⟨s.portComplete, exec_portAccessComplete_held (by rw [hh]; rfl), ?_, ?_⟩
    · exact congrArg Host.Outcome.next (State.awaitPort_held hh rfl)
    · rw [State.portComplete_apart hq, State.complete_word hh]
      cases fin <;> rfl
  · refine ⟨s.portComplete, exec_portAccessComplete_held (by rw [hh]; rfl), ?_, ?_⟩
    · exact congrArg Host.Outcome.next (State.awaitPort_held hh rfl)
    · rw [State.portComplete_apart hq, State.complete_word hh]
      rfl

/-- Settles O60: `State.logWordDone` on the fourth word of an entry of the present service period. -/
theorem logEntryWritten : Obligations.LogEntryWritten := by
  unfold Obligations.LogEntryWritten
  intro e rest a d s hq hh hqueue hdone hstale
  have hlast : logLast s ⟨.alarm, .log, .write a d⟩ = true := by
    unfold logLast
    rw [hdone]
    rfl
  refine ⟨_, congrArg Host.Outcome.next (State.awaitPort_held hh hlast), ?_⟩
  rw [State.portComplete_apart hq, State.complete_word hh]
  simp only [State.completed, State.release, State.performDma]
  unfold State.logWordDone
  simp only [hqueue, hdone, hstale, Nat.lt_irrefl, if_false, Bool.false_eq_true]
  rfl

/-! ## Control page words (O19, O20) -/

/-- On a quiet bus the state in which a granted access is performed shadows the one before. -/
theorem State.granting_shadows {n : Nat} {p : Option CmdWord} {l : Source} {rp : Option RingSide} {rl : RingSide}
    (h : s.busQuiet) (m : Memory) :
    ({ s.granting [] n p l rp rl with mem := m } : State).Shadows { s with mem := m } := by
  obtain ⟨hw, hl⟩ := h
  refine ⟨n, p, l, rp, rl, s.cmd.rewrite, ?_⟩
  simp only [State.granting, hw, hl]

theorem State.pageWrite_shadow {o : Nat} {d : Word} (h : s.portFree) (hc : isControlOffset o = true) (ho : o ≠ 0x12)
    (ho2 : o < 256) :
    ∃ g : State, g.Shadows { s with mem := Memory.writeWord s.mem (pageAddr o) d allBytes } ∧
      (s.busAccess (pageWrite o d)).apart = (g.handControl o d).apart := by
  obtain ⟨n, p, l, rp, rl, he⟩ := State.pageWrite_free (d := d) h hc ho ho2
  exact ⟨_, State.granting_shadows h.1 _, he⟩

theorem State.consumerWrite_shadow {d : Word} (h : s.portFree) :
    ∃ g : State, g.Shadows { s with mem := Memory.writeWord s.mem (pageAddr 0x12) d allBytes } ∧
      (s.busAccess (pageWrite 0x12 d)).apart = (g.consumerWrite d).apart := by
  obtain ⟨n, p, l, rp, rl, he⟩ := State.busAccess_free (acc := pageWrite 0x12 d) h (by
    rw [State.classed_consumer]
    exact fun h => nomatch h)
  rw [State.classed_consumer] at he
  exact ⟨_, State.granting_shadows h.1 _, he⟩

/-- R26: what is left of a set of causes after an acknowledge is empty exactly if every cause was listed. -/
theorem and_not_ne_zero_iff (p : BitVec 12) (d : Word) :
    ((p &&& ~~~(d.extractLsb' 0 12)) != 0) = true ↔ ∃ k : Fin 12, p.getLsbD k.val = true ∧ d.getLsbD k.val = false := by
  have hbit (k : Fin 12) : (p &&& ~~~(d.extractLsb' 0 12)).getLsbD k.val = (p.getLsbD k.val && !d.getLsbD k.val) := by
    have hk := k.isLt
    simp [hk]
  rw [bne_iff_ne]
  constructor
  · intro hne
    by_contra hno
    refine hne (BitVec.eq_of_getLsbD_eq fun k hk => ?_)
    rw [hbit ⟨k, hk⟩]
    simp only [BitVec.ofNat_eq_ofNat, BitVec.getLsbD_zero, Bool.and_eq_false_iff, Bool.not_eq_false']
    by_contra hc
    simp only [not_or, Bool.not_eq_false, Bool.not_eq_true] at hc
    exact hno ⟨⟨k, hk⟩, hc⟩
  · rintro ⟨k, hp, hd⟩ hz
    have := hbit k
    rw [hz, hp, hd] at this
    simp at this

/-- R176: what a write of the consumer index makes of the alarm unit. -/
theorem State.consumerWrite_eq (s : State) (d : Word) : s.consumerWrite d = { s with
    alarm :=
      if s.cmd.hub = .inService then
        if d.toNat < s.alarm.logSize ∧
          (d.toNat + s.alarm.logSize - s.alarm.consumer) % s.alarm.logSize
            ≤ (s.alarm.producer + s.alarm.logSize - s.alarm.consumer) % s.alarm.logSize
        then { s.alarm with consumer := d.toNat }
        else { s.alarm with ignored := min (s.alarm.ignored + 1) 4294967295 }
      else s.alarm } := by
  unfold State.consumerWrite
  dsimp only
  split
  · simp only [Bool.and_eq_true, decide_eq_true_eq]
    split <;> rfl
  · rfl

/-- Settles O19: the owner of each control word, at work on the state the write has left. -/
theorem controlWordsTaken : Obligations.ControlWordsTaken := by
  unfold Obligations.ControlWordsTaken
  refine ⟨fun d s h => ⟨_, rfl, ?_⟩, fun d s h => ⟨_, rfl, ?_⟩, fun d s h => ⟨_, rfl, ?_⟩⟩
  · obtain ⟨g, ⟨n, p, l, rp, rl, rw, rfl⟩, he⟩ := State.pageWrite_shadow (d := d) (o := 0x10) h rfl (by decide) (by decide)
    exact he
  · obtain ⟨g, ⟨n, p, l, rp, rl, rw, rfl⟩, he⟩ := State.pageWrite_shadow (d := d) (o := 0x11) h rfl (by decide) (by decide)
    refine ⟨he, ?_⟩
    have hp : (s.busAccess (pageWrite 0x11 d)).cmd.pending = s.cmd.pending &&& ~~~(d.extractLsb' 0 12) :=
      congrArg (·.cmd.pending) he
    unfold State.attn
    rw [hp]
    exact and_not_ne_zero_iff _ _
  · obtain ⟨g, ⟨n, p, l, rp, rl, rw, rfl⟩, he⟩ := State.consumerWrite_shadow (d := d) h
    rw [State.consumerWrite_eq] at he
    exact he

/-- R19: with no parameter expected at its offset a parameter write is refused. -/
theorem State.parameterWord_refused {k : Nat} {v : Word}
    (h : ∀ o : OpenCmd, s.cmd.collection = .collecting o → k ≠ o.params.length) :
    s.parameterWord (k + 1) v = s.refuse .parameterIgnored (k + 1) 0 := by
  unfold State.parameterWord
  split
  · rename_i o ho
    exact if_neg (fun hk => h o ho (Nat.succ.inj hk))
  · rfl

/-- R18: a parameter at the expected offset, with more to come, is latched. -/
theorem State.parameterWord_latched {o : OpenCmd} {v : Word} (ho : s.cmd.collection = .collecting o)
    (hn : o.params.length + 1 ≠ o.count) :
    s.parameterWord (o.params.length + 1) v
      = { s with cmd := { s.cmd with collection := .collecting { o with params := o.params ++ [v] } } } := by
  unfold State.parameterWord
  simp only [ho, List.length_append, List.length_singleton, if_true, if_neg hn]

/-- Settles O20: R18 latches at the next expected offset, R19 refuses everything else. -/
theorem parameterLatchedOrIgnored : Obligations.ParameterLatchedOrIgnored := by
  unfold Obligations.ParameterLatchedOrIgnored
  intro k v s h
  obtain ⟨g, hg, he⟩ := State.pageWrite_shadow (d := v) (o := k.val + 1) h (isControlOffset_parameter k.isLt)
    (by omega) (by omega)
  rw [State.handControl_parameter k.isLt] at he
  refine ⟨fun o ho hk hcount => ⟨_, rfl, he.trans ?_⟩, fun hno => ⟨_, rfl, he.trans ?_⟩⟩
  · have hl := State.parameterWord_latched (v := v) (hg.collection.trans ho) hcount
    rw [← hk] at hl
    rw [hl]
    obtain ⟨n, p, l, rp, rl, rw, rfl⟩ := hg
    rfl
  · rw [State.parameterWord_refused fun o ho => hno o (hg.collection.symm.trans ho)]
    obtain ⟨n, p, l, rp, rl, rw, rfl⟩ := hg
    rfl

end Sys2Proof.Machine
end

section
/-! SUPPORT. O21 to O23 and O25 to O28: the command word, and the commands that one block owns. A command run on a state that
shadows the one before is followed apart from the arbiter's bookkeeping and the words still to be rewritten. -/

namespace Sys2Proof.Machine

open Sys2Proof

variable {s g u v : State}

/-! ## Command rows -/

/-- Every command row is its command word with the parameters after it. -/
theorem exec_commandOf {c : Instr} {code : BitVec 8} {count : BitVec 4} {unread : BitVec 20} {ps : List Word}
    (h : commandOf c = some (code, count, unread, ps)) (s : State) :
    exec c s = .next (s.writeCommand code count unread ps) := by
  cases c <;> simp only [commandOf, Option.some.injEq, Prod.mk.injEq, reduceCtorEq] at h <;>
    · obtain ⟨rfl, rfl, rfl, rfl⟩ := h
      rfl

theorem Command.ofCode_code (k : Command) : Command.ofCode k.code = some k := by cases k <;> rfl

theorem Command.allowsCount_le {k : Command} {n : Nat} (h : k.allowsCount n = true) : n ≤ 14 := by
  cases k <;> simp only [Command.allowsCount, decide_eq_true_eq] at h <;> omega

theorem Command.ofCode_uncatalogued {code : BitVec 8} (h : catalogued code = false) : Command.ofCode code.toNat = none := by
  unfold catalogued at h
  simp only [Bool.and_eq_false_iff, decide_eq_false_iff_not] at h
  unfold Command.ofCode
  split <;> first | rfl | omega

/-- A command word without parameters, on a free port. -/
theorem State.writeCommand_bare {code : BitVec 8} {count : BitVec 4} {unread : BitVec 20} (h : s.portFree) :
    ∃ g : State, g.Shadows { s with mem := commandMem s.mem code count unread [] } ∧
      (s.writeCommand code count unread []).apart = (g.commandWord (commandWordOf code count unread)).apart := by
  obtain ⟨n, p, l, rp, rl, -, he⟩ := State.writeCommand_opens (code := code) (count := count) (unread := unread) [] h
  refine ⟨_, State.granting_shadows (n := n) (p := p) (l := l) (rp := rp) (rl := rl) h.1 _, ?_⟩
  rw [he]
  have hq : (({ s.granting (parameterAccesses []) n p l rp rl with
      mem := Memory.writeWord s.mem (pageAddr 0) (commandWordOf code count unread) allBytes } : State).commandWord
        (commandWordOf code count unread)).outside = _ := State.commandWord_outside _ _
  have hquiet := outside_busQuiet hq ⟨rfl, rfl⟩
  exact (congrArg State.apart (State.settle_serve hquiet (outside_none hq h.2.1))).trans (State.settle_apart hquiet)

/-- A command with all its parameters, taken at once: what is left is the command run by its owner. -/
theorem exec_runs {c : Instr} {k : Command} {code : BitVec 8} {count : BitVec 4} {unread : BitVec 20} {ps : List Word}
    {x : State} (hx : commandOf c = some (code, count, unread, ps)) (h : s.takesCommand) (hk : k.code = code.toNat)
    (hn : k.allowsCount count.toNat = true) (hp : ps.length = count.toNat) (hall : k.allowedIn s.cmd.hub = true)
    (hrun : ∀ g : State, g.Shadows (s.begun ⟨k, count.toNat, ps⟩ (commandMem s.mem code count unread ps)) →
      (g.runCommand ⟨k, count.toNat, ps⟩).apart = x) :
    ∃ t, exec c s = .next t ∧ t.apart = x := by
  obtain ⟨g, hg, he⟩ := State.writeCommand_runs (unread := unread) h (hk ▸ k.ofCode_code) hn hp
    (Command.allowsCount_le hn) hall
  exact ⟨_, exec_commandOf hx s, he.trans (hrun g hg)⟩

/-! ## Results, apart from the rewrite set -/

/-- R22: what a finished command leaves. -/
theorem State.finish_apart (u : State) (code : Nat) (r : CmdResult) (item : FailItem) (clamped : Bool) :
    (u.finish code r item clamped).apart = ({ u.apart with
      cmd := { u.apart.cmd with
        collection := .idle, transfer := none
        record := { u.apart.cmd.record with lastCode := code, result := r, fail := item, clamped := clamped,
                                            done := u.apart.cmd.record.accepted } } } : State).apart := rfl

/-- A state that takes a command, the command finished: it is idle again. -/
theorem State.takesCommand.after_eq (h : s.takesCommand) (m : Memory) (r : CmdRecord) :
    s.afterCommand m r
      = { s with mem := m, cmd := { s.cmd with record := r, collection := .idle, transfer := none } } := by
  obtain ⟨-, -, hc, ht, -⟩ := h
  simp only [State.afterCommand, ← hc, ← ht]

/-- The command is run on a state of its own that shadows `s`, and nothing else has changed. -/
theorem State.Shadows.begun_apart {o : OpenCmd} {m : Memory} (hg : g.Shadows (s.begun o m)) :
    g.apart = ({ s with mem := m, cmd := { s.cmd with record := s.cmd.record.opened, collection := .executing o } } :
      State).apart := hg.apart_eq

/-- A command that its owner answers without doing anything. -/
theorem State.Shadows.answered {o : OpenCmd} {m : Memory} {k : Command} {r : CmdResult} {item : Nat} {cl : Bool}
    (h : s.takesCommand) (hg : g.Shadows (s.begun o m)) :
    (g.finish k.code r ⟨item, 0⟩ cl).apart = (s.afterCommand m (s.cmd.record.opened.finished k r item cl)).apart := by
  rw [State.finish_apart, hg.begun_apart, h.after_eq]
  rfl

/-! ## O21, O22: command words that open no execution -/

/-- R21: a refusal, apart from the rewrite set. -/
theorem State.refuse_apart (u : State) (why : RefusalReason) (offset code : Nat) :
    (u.refuse why offset code).apart = ({ u.apart with
      cmd := { u.apart.cmd with
        record := { u.apart.cmd.record with refusals := min (u.apart.cmd.record.refusals + 1) 65535, lastReason := why,
                                            lastOffset := offset, lastRefusedCode := code }
        pending := u.apart.cmd.pending ||| (0x002 &&& u.apart.cmd.mask) } } : State).apart := rfl

theorem HubState.refusal_eq (h : HubState) : h.refusal = if h = .shuttingDown then .state else .busy := by cases h <;> rfl

/-- R21: while a command executes, or in LOADING or SHUTTING_DOWN, a command word is refused. -/
theorem State.commandWord_refused {w : Word}
    (h : (∃ o, s.cmd.collection = .executing o) ∨ s.cmd.hub.refusesAll = true) :
    s.commandWord w = s.refuse s.cmd.hub.refusal 0 (field w 0 8) := by
  unfold State.commandWord
  dsimp only
  split
  · rfl
  · rename_i hno
    obtain ⟨o, ho⟩ := h.resolve_right hno
    rw [ho]

theorem State.commandWord_idle {w : Word} (h : s.cmd.hub.refusesAll = false) (hc : s.cmd.collection = .idle) :
    s.commandWord w = s.openCommand (field w 0 8) (field w 8 4) := by
  unfold State.commandWord
  rw [h, hc]
  rfl

theorem State.commandWord_cuts {w : Word} {o : OpenCmd} (h : s.cmd.hub.refusesAll = false)
    (hc : s.cmd.collection = .collecting o) :
    s.commandWord w = (s.cutShort o).openCommand (field w 0 8) (field w 8 4) := by
  unfold State.commandWord
  rw [h, hc]
  rfl

/-- R17: a code outside the catalogue. -/
theorem State.openCommand_unknown {code count : Nat} (h : Command.ofCode code = none) (s : State) :
    (s.openCommand code count).apart = ({ s.apart with
      cmd := { s.apart.cmd with
        collection := .idle, transfer := none
        record := { s.apart.cmd.record.opened with
          done := (s.apart.cmd.record.accepted + 1) % 65536, lastCode := code, result := .refusedUnknown
          fail := ⟨0, 0⟩, clamped := false } } } : State).apart := by
  unfold State.openCommand
  rw [h]
  rfl

/-- R17: a count that the command does not allow. -/
theorem State.openCommand_badCount {code count : Nat} {k : Command} (h : Command.ofCode code = some k)
    (hn : k.allowsCount count = false) (s : State) :
    (s.openCommand code count).apart = ({ s.apart with
      cmd := { s.apart.cmd with
        collection := .idle, transfer := none
        record := s.apart.cmd.record.opened.finished k .refusedParameter 0 false } } : State).apart := by
  unfold State.openCommand
  simp only [h, hn, Bool.not_false, if_true]
  rfl

/-- R17, R18: a command with parameters to come collects them. -/
theorem State.openCommand_collects {code count : Nat} {k : Command} (h : Command.ofCode code = some k)
    (hn : k.allowsCount count = true) (hz : count ≠ 0) (s : State) :
    (s.openCommand code count).apart = ({ s.apart with
      cmd := { s.apart.cmd with collection := .collecting ⟨k, count, []⟩
                                record := s.apart.cmd.record.opened } } : State).apart := by
  unfold State.openCommand
  simp only [h, hn, Bool.not_true, Bool.false_eq_true, if_false, if_neg hz]
  rfl

/-- Settles O21: R21 refuses, R17 answers a code or a count that it does not know. -/
theorem commandWordsRefused : Obligations.CommandWordsRefused := by
  unfold Obligations.CommandWordsRefused
  intro c code count unread s hx
  refine ⟨fun h hbusy => ⟨_, exec_commandOf hx s, ?_⟩, fun h hcode => ⟨_, exec_commandOf hx s, ?_⟩,
    fun k h hk hn => ⟨_, exec_commandOf hx s, ?_⟩⟩
  · obtain ⟨g, hg, he⟩ := State.writeCommand_bare (code := code) (count := count) (unread := unread) h
    rw [he, State.commandWord_refused (by rw [hg.collection, hg.hub]; exact hbusy), State.refuse_apart, hg.apart_eq,
      hg.hub, HubState.refusal_eq, commandWordOf_code]
    rfl
  · obtain ⟨hfree, -, hidle, htr, hall⟩ := id h
    obtain ⟨g, hg, he⟩ := State.writeCommand_bare (code := code) (count := count) (unread := unread) hfree
    rw [he, State.commandWord_idle (by rw [hg.hub]; exact hall) (by rw [hg.collection]; exact hidle), commandWordOf_code,
      State.openCommand_unknown (Command.ofCode_uncatalogued hcode), hg.apart_eq, h.after_eq]
    rfl
  · obtain ⟨hfree, -, hidle, htr, hall⟩ := id h
    obtain ⟨g, hg, he⟩ := State.writeCommand_bare (code := code) (count := count) (unread := unread) hfree
    rw [he, State.commandWord_idle (by rw [hg.hub]; exact hall) (by rw [hg.collection]; exact hidle), commandWordOf_code,
      commandWordOf_count, State.openCommand_badCount (hk ▸ k.ofCode_code) hn, hg.apart_eq, h.after_eq]
    rfl

/-! ## The time base as SET_DISCIPLINE and SET_TIME use it -/

/-- R129: the time base replaced, its state and beyond-limit flag as before. -/
theorem State.putTime_same {t : TimeBase} (h : t.state = u.time.state) (hb : t.beyond = u.time.beyond) :
    (u.putTime t).apart = ({ u.apart with time := t } : State) := by
  unfold State.putTime
  simp only [h, hb, if_true]
  rfl

theorem clampTo_eq {lo hi v : Nat} (h : lo ≤ hi) :
    clampTo lo hi v = (max lo (min hi v), decide (v < lo) || decide (hi < v)) := by
  unfold clampTo
  split
  · simp only [Prod.mk.injEq, *, decide_true, Bool.true_or, and_true]
    omega
  · split <;> simp only [Prod.mk.injEq, decide_true, decide_false, Bool.or_true, Bool.or_false, and_true, *] <;> omega

/-- R130: parameters past the sixth place are not read. -/
theorem Discipline.applyAll_past {k : Nat} (h : 6 ≤ k) (d : Discipline) (ps : List Word) :
    Discipline.applyAll k d ps = (d, false) := by
  induction ps generalizing k with
  | nil => rfl
  | cons w ps ih =>
    have hk : d.apply k w.toNat = (d, false) := by
      unfold Discipline.apply
      split <;> first | rfl | omega
    simp only [Discipline.applyAll, hk, ih (by omega : 6 ≤ k + 1), Bool.or_false]

/-- R130: the parameters carried replace theirs, clamped, and the flag says whether one was. -/
theorem Discipline.applyAll_eq (d : Discipline) (ps : List Word) :
    Discipline.applyAll 0 d ps = (d.replaced ps, disciplineClamped ps) := by
  match ps with
  | [] => rfl
  | [a] => simp [applyAll, apply, clampTo_eq, replaced, disciplineClamped]
  | [a, b] => simp [applyAll, apply, clampTo_eq, replaced, disciplineClamped]
  | [a, b, c] => simp [applyAll, apply, clampTo_eq, replaced, disciplineClamped, Bool.or_assoc]
  | [a, b, c, e] => simp [applyAll, apply, clampTo_eq, replaced, disciplineClamped, Bool.or_assoc]
  | [a, b, c, e, f] => simp [applyAll, apply, clampTo_eq, replaced, disciplineClamped, Bool.or_assoc]
  | a :: b :: c :: e :: f :: x :: rest =>
    simp [applyAll, apply, clampTo_eq, replaced, disciplineClamped, Bool.or_assoc, applyAll_past]

/-- R130: outside HOLDOVER, SET_DISCIPLINE changes nothing but the parameters. -/
theorem State.setDisciplineOp_free {ps : List Word} (h : u.time.state ≠ .holdover) :
    (u.setDisciplineOp ps).1.apart = ({ u.apart with time := { u.time with disc := u.time.disc.replaced ps } } : State) ∧
      (u.setDisciplineOp ps).2 = disciplineClamped ps := by
  unfold State.setDisciplineOp
  simp only [Discipline.applyAll_eq, if_neg h, and_true, Bool.decide_eq_true]
  exact State.putTime_same rfl rfl

/-- Settles O22. R20: `State.cutShort` before R17 opens the next command. -/
theorem commandOpeningRules : Obligations.CommandOpeningRules := by
  unfold Obligations.CommandOpeningRules
  refine ⟨fun c k code count unread ps s hx h hk hn hp hno => ⟨_, exec_commandOf hx s, ?_⟩,
    fun c k o code count unread s hx h hall htr hcol hset hk hn hz => ⟨_, exec_commandOf hx s, ?_⟩,
    fun c k o code count unread s hx h hall htr hcol hset hk hn hz hst => ⟨_, exec_commandOf hx s, ?_⟩⟩
  · obtain ⟨g, hg, he⟩ := State.writeCommand_executes (unread := unread) h (hk ▸ k.ofCode_code) hn hp
      (Command.allowsCount_le hn)
    have hrun : g.execute ⟨k, count.toNat, ps⟩ = g.finishWith k .refusedState := by
      unfold State.execute
      rw [if_neg (by rw [hg.hub]; exact Bool.eq_false_iff.mp hno)]
    rw [he, hrun]
    exact hg.answered h
  · obtain ⟨g, hg, he⟩ := State.writeCommand_bare (code := code) (count := count) (unread := unread) h
    have hz' : count.toNat ≠ 0 := fun h0 => hz (BitVec.eq_of_toNat_eq h0)
    have hcut : g.cutShort o = g.finishWith o.cmd .cutShort := by
      unfold State.cutShort
      split
      · exact absurd ‹_› hset
      · rfl
    rw [he, State.commandWord_cuts (by rw [hg.hub]; exact hall) (by rw [hg.collection]; exact hcol), commandWordOf_code,
      commandWordOf_count, State.openCommand_collects (hk ▸ k.ofCode_code) hn hz', hcut, State.finishWith,
      State.finish_apart, hg.apart_eq]
    simp only [State.apart, htr]
    rfl
  · obtain ⟨g, hg, he⟩ := State.writeCommand_bare (code := code) (count := count) (unread := unread) h
    have hz' : count.toNat ≠ 0 := fun h0 => hz (BitVec.eq_of_toNat_eq h0)
    have hcut : g.cutShort o
        = (g.setDisciplineOp o.params).1.finish o.cmd.code .donePartial ⟨0, 0⟩ (g.setDisciplineOp o.params).2 := by
      unfold State.cutShort
      rw [hset]
    obtain ⟨h1, h2⟩ := State.setDisciplineOp_free (u := g) (ps := o.params) (by rw [hg.time]; exact hst)
    rw [he, State.commandWord_cuts (by rw [hg.hub]; exact hall) (by rw [hg.collection]; exact hcol), commandWordOf_code,
      commandWordOf_count, State.openCommand_collects (hk ▸ k.ofCode_code) hn hz', hcut, State.finish_apart, h1, h2,
      hg.apart_eq, hg.time, hset]
    simp only [State.apart, htr]
    rfl

end Sys2Proof.Machine
end

section
/-! SUPPORT. O23, O25 to O28 and O30: the commands of the command unit, the time base, the rings, the cycle engine and the alarm
unit, each run on a state that shadows the one before. -/

namespace Sys2Proof.Machine

open Sys2Proof

variable {s g u v : State}

/-! ## The hub takes a state (R27, R62, R178) -/

/-- R62: a slot that is not SEATED, or that may not be powered, stays as it is. -/
theorem State.judgeSeated_still {i : Slot} (h : (u.slot i).state ≠ .seated ∨ u.mayPower i = false) :
    u.judgeSeated i = u := by
  unfold State.judgeSeated
  refine if_neg fun hc => ?_
  simp only [Bool.and_eq_true, decide_eq_true_eq] at hc
  obtain ⟨hseated, hmay⟩ := hc
  obtain h | h := h
  · exact h hseated
  · rw [h] at hmay
    cases hmay

/-- A fold of operations each of which leaves the state as it is. -/
theorem foldl_still {α : Type} {f : State → α → State} {u : State} (h : ∀ x, f u x = u) (l : List α) : l.foldl f u = u := by
  induction l with
  | nil => rfl
  | cons x l ih => rw [List.foldl_cons, h, ih]

theorem State.judgeAllSeated_still (h : ∀ i, (u.slot i).state ≠ .seated ∨ u.mayPower i = false) : u.judgeAllSeated = u :=
  foldl_still (fun i => State.judgeSeated_still (h i)) allSlots

/-- R27, R178: the hub's new state with the relays judged. -/
def State.withHub (u : State) (h : HubState) : State :=
  { u with cmd := { u.cmd with hub := h }, alarm := u.alarm.judged h.relaysOn }

/-- R27: a change of hub state that powers no slot. -/
theorem State.setHub_still {h : HubState}
    (hs : ∀ i, (u.slot i).state ≠ .seated ∨ h.allowsPowering = false ∨ (u.slot i).cfg.provisioned = false ∨
      (u.slot i).latch = false) :
    (u.setHub h).apart = (u.apart.withHub h).apart := by
  have hj (w : State) (hsm : w.sm = u.sm) (hh : w.cmd.hub = h) : w.judgeAllSeated = w := by
    refine State.judgeAllSeated_still fun i => ?_
    have hslot : w.slot i = u.slot i := congrArg (fun m : SlotManager => vget m.slots i) hsm
    unfold State.mayPower
    rw [hslot, hh]
    refine (hs i).imp_right fun hp => ?_
    obtain hp | hp | hp := hp <;> simp [hp]
  unfold State.setHub
  generalize hw : State.judgeRelays _ = w
  rw [hj w (by rw [← hw]; rfl) (by rw [← hw]; rfl), ← hw]
  rfl

/-! ## O23: LOAD_SETUP (R28) -/

theorem BitVec.toNat_ne_of_ne {w : Nat} {x : BitVec w} {n : Nat} (h : x ≠ BitVec.ofNat w n) : x.toNat ≠ n := by
  rintro rfl
  exact h (by simp)

/-- R28: what LOAD_SETUP answers without taking the setup block. -/
theorem State.loadSetupOp_refused {mode addr : Word} {r : CmdResult} {item : Nat}
    (h : mode ≠ 1 ∧ mode ≠ 2 ∧ r = .refusedParameter ∧ item = 1 ∨
      (mode = 1 ∧ g.cmd.hub ≠ .unconfigured ∨ mode = 2 ∧ g.cmd.hub ≠ .carrying) ∧ r = .refusedState ∧ item = 0 ∨
      (mode = 1 ∧ g.cmd.hub = .unconfigured ∨ mode = 2 ∧ g.cmd.hub = .carrying) ∧ 0xFFEE0 < addr.toNat ∧
        r = .refusedParameter ∧ item = 2) :
    g.loadSetupOp mode.toNat addr.toNat = g.finish Command.loadSetup.code r ⟨item, 0⟩ false := by
  obtain ⟨h1, h2, rfl, rfl⟩ | ⟨h, rfl, rfl⟩ | ⟨h, ha, rfl, rfl⟩ := h
  · have hno : LoadMode.ofCode mode.toNat = none := by
      unfold LoadMode.ofCode
      split
      · exact absurd ‹_› (BitVec.toNat_ne_of_ne h1)
      · exact absurd ‹_› (BitVec.toNat_ne_of_ne h2)
      · rfl
    unfold State.loadSetupOp
    rw [hno]
    rfl
  · obtain ⟨rfl, hh⟩ | ⟨rfl, hh⟩ := h <;> exact if_pos hh
  · obtain ⟨rfl, hh⟩ | ⟨rfl, hh⟩ := h <;>
      exact (if_neg (not_not.mpr hh)).trans (if_pos ha)

/-- R28: a LOAD_SETUP taken. -/
theorem State.loadSetupOp_taken {m : LoadMode} {mode addr : Nat} (hm : LoadMode.ofCode mode = some m)
    (hh : g.cmd.hub = m.from) (ha : addr ≤ 0xFFEE0) :
    g.loadSetupOp mode addr = (g.setHub (.loading m)).startTransfer (.setup addr []) := by
  unfold State.loadSetupOp
  rw [hm]
  exact (if_neg (not_not.mpr hh)).trans (if_neg (Nat.not_lt.mpr ha))

/-- The state apart from the bookkeeping, after a transfer has started. -/
theorem State.startTransfer_apart (u : State) (x : Transfer) :
    (u.startTransfer x).apart = ({ u.apart with cmd := { u.apart.cmd with transfer := some x } } : State) := rfl

/-- LOAD_SETUP with both parameters is run by `State.loadSetupOp`. -/
theorem exec_loadSetup {unread : BitVec 20} {mode addr : Word} {x : State} (h : s.takesCommand)
    (hrun : ∀ g : State,
      g.Shadows (s.begun ⟨.loadSetup, 2, [mode, addr]⟩ (commandMem s.mem 0x01 2 unread [mode, addr])) →
      (g.loadSetupOp mode.toNat addr.toNat).apart = x) :
    ∃ t, exec (.loadSetup 2 unread [mode, addr]) s = .next t ∧ t.apart = x :=
  exec_runs (k := .loadSetup) rfl h rfl rfl rfl rfl hrun

/-- Settles O23: the three checks of R28 in order, then R27. -/
theorem loadSetupTaken : Obligations.LoadSetupTaken := by
  unfold Obligations.LoadSetupTaken
  intro unread mode addr s h
  refine ⟨?_, ?_, fun r item hr => ?_⟩
  · rintro rfl hh ha
    apply exec_loadSetup h
    intro g hg
    rw [State.loadSetupOp_taken (m := .load) rfl (hg.hub.trans hh) ha, State.startTransfer_apart,
      State.setHub_still (fun _ => .inr (.inl rfl)), hg.begun_apart]
    rfl
  · rintro rfl hh ha hs
    apply exec_loadSetup h
    intro g hg
    have hsg (i : Slot) : (g.slot i).state ≠ .seated := by
      rw [State.slot, hg.sm]
      exact hs i
    rw [State.loadSetupOp_taken (m := .adopt) rfl (hg.hub.trans hh) ha, State.startTransfer_apart,
      State.setHub_still (fun i => .inl (hsg i)), hg.begun_apart]
    rfl
  · apply exec_loadSetup h
    intro g hg
    rw [State.loadSetupOp_refused (by rw [hg.hub]; exact hr)]
    exact hg.answered h

/-! ## O25: COUNTER_SNAPSHOT and TABLE_UPDATE (R36, R180) -/

theorem Table.ofCode_code (t : Table) : Table.ofCode t.code = some t := by cases t <;> rfl

theorem Table.ofCode_none {n : Nat} (h : ∀ t : Table, t.code ≠ n) : Table.ofCode n = none := by
  unfold Table.ofCode
  split
  · exact absurd rfl (h .port)
  · exact absurd rfl (h .group)
  · exact absurd rfl (h .alarmPoint)
  · exact absurd rfl (h .reference)
  · rfl

theorem State.areaOk_iff {addr n : Nat} :
    u.areaOk addr n = true ↔ addr + n ≤ 0x100000 ∧ u.path.touchesKept addr n = false := by
  unfold State.areaOk
  simp only [Bool.and_eq_true, decide_eq_true_eq, Bool.not_eq_true']
  rfl

theorem State.areaOk_false {addr n : Nat} (h : 0x100000 < addr + n ∨ u.path.touchesKept addr n = true) :
    u.areaOk addr n = false := by
  rw [Bool.eq_false_iff, Ne, State.areaOk_iff]
  rintro ⟨h1, h2⟩
  obtain h | h := h
  · omega
  · rw [h2] at h
    cases h

/-- Whether words lie clear of the kept zones depends on the zone set only, which no command word has touched yet. -/
theorem State.Shadows.begun_touchesKept {o : OpenCmd} {m : Memory} (hg : g.Shadows (s.begun o m)) (a n : Nat) :
    g.path.touchesKept a n = s.path.touchesKept a n := by
  unfold MemoryPath.touchesKept
  rw [hg.zones]
  rfl

/-- R180: what TABLE_UPDATE answers without taking the record. -/
theorem State.tableUpdateOp_refused {code index addr item : Nat}
    (h : item = 1 ∧ (∀ k : Table, k.code ≠ code) ∨
      (∃ k : Table, k.code = code ∧
        (item = 2 ∧ k.entries ≤ index ∨
          item = 3 ∧ index < k.entries ∧ (0x100000 < addr + k.words ∨ g.path.touchesKept addr k.words = true)))) :
    g.tableUpdateOp code index addr = g.finish Command.tableUpdate.code .refusedParameter ⟨item, 0⟩ false := by
  unfold State.tableUpdateOp
  obtain ⟨rfl, hno⟩ | ⟨k, rfl, ⟨rfl, hi⟩ | ⟨rfl, hi, ha⟩⟩ := h
  · rw [Table.ofCode_none hno]
    rfl
  · rw [Table.ofCode_code]
    exact if_pos hi
  · rw [Table.ofCode_code]
    refine (if_neg (Nat.not_le.mpr hi)).trans (if_pos ?_)
    rw [State.areaOk_false ha]
    rfl

theorem State.tableUpdateOp_taken {k : Table} {index addr : Nat} (hi : index < k.entries) (ha : addr + k.words ≤ 0x100000)
    (hk : g.path.touchesKept addr k.words = false) :
    g.tableUpdateOp k.code index addr = g.startTransfer (.staging k index addr []) := by
  unfold State.tableUpdateOp
  rw [Table.ofCode_code]
  refine (if_neg (Nat.not_le.mpr hi)).trans (if_neg ?_)
  rw [State.areaOk_iff.mpr ⟨ha, hk⟩]
  exact Bool.noConfusion

/-- COUNTER_SNAPSHOT with both parameters is run by `State.snapshotOp`. -/
theorem exec_counterSnapshot {unread : BitVec 20} {addr clear : Word} {x : State} (h : s.takesCommand)
    (hh : s.cmd.hub = .inService)
    (hrun : ∀ g : State,
      g.Shadows (s.begun ⟨.counterSnapshot, 2, [addr, clear]⟩ (commandMem s.mem 0x03 2 unread [addr, clear])) →
      (g.snapshotOp addr.toNat (clear.toNat ≠ 0)).apart = x) :
    ∃ t, exec (.counterSnapshot 2 unread [addr, clear]) s = .next t ∧ t.apart = x :=
  exec_runs (k := .counterSnapshot) rfl h rfl rfl rfl (by rw [hh]; rfl) hrun

/-- TABLE_UPDATE with its three parameters is run by `State.tableUpdateOp`. -/
theorem exec_tableUpdate {unread : BitVec 20} {code index addr : Word} {x : State} (h : s.takesCommand)
    (hh : s.cmd.hub = .inService)
    (hrun : ∀ g : State,
      g.Shadows (s.begun ⟨.tableUpdate, 3, [code, index, addr]⟩ (commandMem s.mem 0x0D 3 unread [code, index, addr])) →
      (g.tableUpdateOp code.toNat index.toNat addr.toNat).apart = x) :
    ∃ t, exec (.tableUpdate 3 unread [code, index, addr]) s = .next t ∧ t.apart = x :=
  exec_runs (k := .tableUpdate) rfl h rfl rfl rfl (by rw [hh]; rfl) hrun

theorem Word.toNat_ne_zero (w : Word) : decide (w.toNat ≠ 0) = decide (w ≠ 0) :=
  decide_eq_decide.mpr (not_congr ⟨fun h => BitVec.eq_of_toNat_eq h, fun h => by rw [h]; rfl⟩)

/-- Settles O25: the checks of R36 and R180 in order, each with its failing item. -/
theorem snapshotAndUpdateBegin : Obligations.SnapshotAndUpdateBegin := by
  unfold Obligations.SnapshotAndUpdateBegin
  intro unread s h hh
  refine ⟨fun addr clear => ⟨fun ha hk => ?_, fun ha => ?_⟩, fun code index addr => ⟨fun k hk hi ha hkept => ?_,
    fun item hitem => ?_⟩⟩
  · apply exec_counterSnapshot h hh
    intro g hg
    have hz : g.path.touchesKept addr.toNat 192 = s.path.touchesKept addr.toNat 192 := hg.begun_touchesKept ..
    unfold State.snapshotOp
    rw [if_pos (State.areaOk_iff.mpr ⟨ha, hz.trans hk⟩), State.startTransfer_apart, hg.begun_apart, Word.toNat_ne_zero]
    rfl
  · apply exec_counterSnapshot h hh
    intro g hg
    have hz : g.path.touchesKept addr.toNat 192 = s.path.touchesKept addr.toNat 192 := hg.begun_touchesKept ..
    have hno : g.areaOk addr.toNat 192 = false := State.areaOk_false (by rw [hz]; exact ha)
    unfold State.snapshotOp
    rw [hno]
    exact hg.answered h
  · apply exec_tableUpdate h hh
    intro g hg
    have hz : g.path.touchesKept addr.toNat k.words = s.path.touchesKept addr.toNat k.words := hg.begun_touchesKept ..
    rw [← hk, State.tableUpdateOp_taken hi ha (hz.trans hkept), State.startTransfer_apart, hg.begun_apart]
    rfl
  · apply exec_tableUpdate h hh
    intro g hg
    have hz (n : Nat) : g.path.touchesKept addr.toNat n = s.path.touchesKept addr.toNat n := hg.begun_touchesKept ..
    rw [State.tableUpdateOp_refused (code := code.toNat) (index := index.toNat) (addr := addr.toNat) (item := item)
      (by simp only [hz]; exact hitem)]
    exact hg.answered h

/-! ## O26: SET_TIME and SET_DISCIPLINE (R116, R128 to R130) -/

/-- R92: a quality that shuts no slot's time gate. -/
theorem State.takeQuality_open {q : Nat} (h : ∀ i, q ≤ (u.slot i).cfg.gate) :
    u.takeQuality q = { u with sw := { u.sw with quality := q } } :=
  foldl_still (fun i => if_neg (Nat.not_lt.mpr (h i))) allSlots

/-- R129: the time base replaced with a change of its state or its beyond-limit flag, no slot's time gate shut. -/
theorem State.putTime_moves {t : TimeBase} (h : (u.time.state, u.time.beyond) ≠ (t.state, t.beyond))
    (hg : ∀ i, t.quality ≤ (u.slot i).cfg.gate) :
    (u.putTime t).apart = (State.withCauses { u.apart with
      time := t, sw := { u.apart.sw with quality := t.quality } } 0x400).apart := by
  unfold State.putTime
  simp only [if_neg h]
  rw [State.takeQuality_open (by exact hg)]
  rfl

/-- R130, R128: SET_DISCIPLINE, with the beyond-limit flag judged again in HOLDOVER. -/
theorem State.setDisciplineOp_eq (u : State) (ps : List Word) :
    u.setDisciplineOp ps = (u.putTime { u.time with
      disc := u.time.disc.replaced ps
      beyond := if u.time.state = .holdover then decide ((u.time.disc.replaced ps).holdoverLimit < u.time.holdover)
                else u.time.beyond }, disciplineClamped ps) := by
  unfold State.setDisciplineOp
  simp only [Discipline.applyAll_eq]
  congr 2
  split <;> simp

/-- SET_TIME and SET_DISCIPLINE are taken wherever the hub refuses no command word (2.3, R21). -/
theorem HubState.setTime_allowed {h : HubState} (hall : h.refusesAll = false) :
    Command.setTime.allowedIn h = true ∧ Command.setDiscipline.allowedIn h = true := by
  cases h <;> first | exact ⟨rfl, rfl⟩ | cases hall

/-- SET_DISCIPLINE with its parameters is run by `State.setDisciplineOp`. -/
theorem exec_setDiscipline {unread : BitVec 20} {count : BitVec 4} {ps : List Word} {x : State} (h : s.takesCommand)
    (hlen : ps.length = count.toNat) (hcount : count.toNat ≤ 6)
    (hrun : ∀ g : State,
      g.Shadows (s.begun ⟨.setDiscipline, count.toNat, ps⟩ (commandMem s.mem 0x04 count unread ps)) →
      ((g.setDisciplineOp ps).1.finish Command.setDiscipline.code .done ⟨0, 0⟩ (g.setDisciplineOp ps).2).apart = x) :
    ∃ t, exec (.setDiscipline count unread ps) s = .next t ∧ t.apart = x := by
  obtain ⟨-, -, -, -, hall⟩ := id h
  exact exec_runs (k := .setDiscipline) rfl h rfl (decide_eq_true hcount) hlen (HubState.setTime_allowed hall).2 hrun

theorem exec_setTime {unread : BitVec 20} {v : Word} {x : State} (h : s.takesCommand)
    (hrun : ∀ g : State, g.Shadows (s.begun ⟨.setTime, 1, [v]⟩ (commandMem s.mem 0x05 1 unread [v])) →
      ((g.setTimeOp v).finish Command.setTime.code .done ⟨0, 0⟩ false).apart = x) :
    ∃ t, exec (.setTime 1 unread [v]) s = .next t ∧ t.apart = x := by
  obtain ⟨-, -, -, -, hall⟩ := id h
  exact exec_runs (k := .setTime) rfl h rfl rfl rfl (HubState.setTime_allowed hall).1 hrun

/-- Settles O26: R116 for SET_TIME; R130 for SET_DISCIPLINE, which in HOLDOVER may move the quality. -/
theorem timeCommandsTaken : Obligations.TimeCommandsTaken := by
  unfold Obligations.TimeCommandsTaken
  intro unread s h
  refine ⟨fun v => ?_, fun count ps hlen hcount => ⟨fun hsame => ?_, fun hst hne hgate => ?_⟩⟩
  · apply exec_setTime h
    intro g hg
    have hset : (g.setTimeOp v).apart = ({ g.apart with time := { g.apart.time with pendingSet := some v.toNat } } : State) :=
      rfl
    rw [State.finish_apart, hset, hg.begun_apart, h.after_eq]
    rfl
  · apply exec_setDiscipline h hlen hcount
    intro g hg
    have htime : g.time = s.time := hg.time
    have hb : (if s.time.state = .holdover then decide ((s.time.disc.replaced ps).holdoverLimit < s.time.holdover)
        else s.time.beyond) = s.time.beyond := by
      split
      · rename_i hst
        exact hsame.resolve_left (not_not.mpr hst)
      · rfl
    rw [State.setDisciplineOp_eq, State.finish_apart, htime, hb, State.putTime_same (by rw [htime]) (by rw [htime]),
      hg.begun_apart, h.after_eq]
    rfl
  · apply exec_setDiscipline h hlen hcount
    intro g hg
    have htime : g.time = s.time := hg.time
    have hgg (i : Slot) : g.slot i = s.slot i := by
      rw [State.slot, hg.sm]
      rfl
    have hq : TimeBase.quality { s.time with
        disc := s.time.disc.replaced ps
        beyond := decide ((s.time.disc.replaced ps).holdoverLimit < s.time.holdover) }
        = if decide ((s.time.disc.replaced ps).holdoverLimit < s.time.holdover) = true then 3 else 1 := by
      unfold TimeBase.quality
      simp only [hst]
    rw [State.setDisciplineOp_eq, State.finish_apart, htime, if_pos hst,
      State.putTime_moves (by rw [htime]; exact fun he => hne (Prod.mk.inj he).2.symm)
        (fun i => by rw [hq, hgg]; exact hgate i), hg.begun_apart, h.after_eq, hq]
    rfl

end Sys2Proof.Machine
end

section
/-! SUPPORT. O27, O28 and O30: the commands of the ring engine, the cycle engine and the alarm unit. -/

namespace Sys2Proof.Machine

open Sys2Proof

variable {s g u v : State}

/-! ## Abandoned words (R11) -/

theorem State.dropHeld_apart (u : State) (p : Purpose → Bool) : (u.dropHeld p).apart = u.apart := by
  unfold State.dropHeld
  split
  · split <;> rfl
  · rfl

theorem State.withdrawRing_apart (u : State) (side : RingSide) : (u.withdrawRing side).apart = u.apart := by
  unfold State.withdrawRing
  dsimp only
  rw [State.dropHeld_apart]
  split <;> rfl

/-! ## The head of queue 0 leaves (R85, R89) -/

theorem SwitchCore.find_id {w : SwitchCore} {id : Nat} {f : Stored} (h : w.find id = some f) : f.id = id := by
  unfold SwitchCore.find at h
  simpa using List.find?_some h

theorem Stored.find_map {l : List Stored} {id : Nat} {f : Stored} {k : Stored → Stored} (hk : ∀ x, (k x).id = x.id)
    (h : l.find? (fun f => f.id = id) = some f) :
    (l.map (fun x => if x.id = id then k x else x)).find? (fun f => f.id = id) = some (k f) := by
  induction l with
  | nil => cases h
  | cons x l ih =>
    by_cases hx : x.id = id
    · have hf : x = f := by simpa [hx] using h
      simp [← hf, hx, hk]
    · simpa [hx] using ih (by simpa [hx] using h)

theorem Stored.filter_map (l : List Stored) (id : Nat) {k : Stored → Stored} (hk : ∀ x, (k x).id = x.id) :
    (l.map (fun x => if x.id = id then k x else x)).filter (fun y => y.id ≠ id) = l.filter (fun y => y.id ≠ id) := by
  induction l with
  | nil => rfl
  | cons x l ih =>
    by_cases hx : x.id = id
    · simpa [hx, hk] using ih
    · simpa [hx] using ih

/-- R85: a frame with one reference left goes, and its blocks are free. -/
theorem SwitchCore.dropRef_last {w : SwitchCore} {id : Nat} {f : Stored} (h : w.find id = some f) (hr : f.refs ≤ 1) :
    w.dropRef id = { w with stored := w.stored.filter (fun y => y.id ≠ id), free := w.free + f.blocks } := by
  unfold SwitchCore.dropRef
  simp only [h, if_pos hr]

/-- R85: a frame with two references dropped both goes, and its blocks are free. -/
theorem SwitchCore.dropRef_dropRef {w : SwitchCore} {id : Nat} {f : Stored} (h : w.find id = some f) (hr : f.refs = 2) :
    (w.dropRef id).dropRef id
      = { w with stored := w.stored.filter (fun y => y.id ≠ id), free := w.free + f.blocks } := by
  have h1 : w.dropRef id = w.modify id (fun y => { y with refs := y.refs - 1 }) := by
    unfold SwitchCore.dropRef
    simp only [h, hr, if_neg (by decide : ¬ 2 ≤ 1)]
  have h2 : (w.modify id (fun y => { y with refs := y.refs - 1 })).find id = some { f with refs := f.refs - 1 } :=
    Stored.find_map (k := fun y => { y with refs := y.refs - 1 }) (fun _ => rfl) h
  rw [h1, SwitchCore.dropRef_last h2 (by simp [hr])]
  exact congrArg (fun l => { w with stored := l, free := w.free + f.blocks })
    (Stored.filter_map w.stored id (k := fun y => { y with refs := y.refs - 1 }) fun _ => rfl)

/-- R85, R89: the head of queue 0 leaves with the ring engine's claim, its last reference but the queue's. -/
theorem State.leaveQueue0_head {id : Nat} {f : Stored} {c : PortCounters → PortCounters}
    (hq : u.sw.queue0.frames.contains id = true) (hf : u.sw.find id = some f) (hr : f.refs = 2) :
    (u.leaveQueue0 id c).apart = ({ u.apart with
      sw := u.sw.headGone id f.blocks c, ring := { u.apart.ring with tx := u.ring.tx.map TxMove.roomSeen } } : State) := by
  unfold State.leaveQueue0
  rw [if_pos hq]
  have hd := SwitchCore.dropRef_dropRef (w := ({ u.sw with queue0 := u.sw.queue0.remove id }).bump 0 c) hf hr
  dsimp only
  rw [hd]
  rfl

/-- R105: the frame in movement, the head of queue 0, is missed. -/
theorem State.rxMiss_head {m : RxMove} {f : Stored} (hq : u.sw.queue0.frames.contains m.id = true)
    (hf : u.sw.find m.id = some f) (hr : f.refs = 2) :
    (u.rxMiss m).apart = (State.withCauses { u.apart with
      sw := u.sw.headGone m.id f.blocks (fun c => { c with flushed := min (c.flushed + 1) 4294967295 })
      ring := { u.apart.ring with
        tx := u.ring.tx.map TxMove.roomSeen
        rx := some { m with phase := .marking 0, hold := none, rewalk := false }
        counters := { u.ring.counters with missed := min (u.ring.counters.missed + 1) 4294967295 } }
      alarm := { u.alarm with marks := { u.alarm.marks with rxMissed := true } } } 0x020).apart := by
  have hl := State.leaveQueue0_head (u := u) (c := fun c => c.countFlushed 1) hq hf hr
  unfold State.rxMiss
  generalize u.leaveQueue0 m.id _ = w at hl ⊢
  change (State.withCauses { w.apart with
    ring := { w.apart.ring with
      rx := some { m with phase := .marking 0, hold := none, rewalk := false }
      counters := { w.apart.ring.counters with missed := min (w.apart.ring.counters.missed + 1) 4294967295 } }
    alarm := { w.apart.alarm with marks := { w.apart.alarm.marks with rxMissed := true } } } 0x020).apart = _
  rw [hl]
  rfl

/-! ## O27: RING_START and RING_STOP (R98, R99) -/

theorem State.ringStartOp_taken (h : u.ring.state = .stopped) :
    u.ringStartOp.2 = .done ∧ u.ringStartOp.1.apart = ({ u.apart with
      ring := { u.apart.ring with state := .running, rxIdx := 0, txIdx := 0, exam := some false } } : State) := by
  unfold State.ringStartOp
  rw [if_pos h]
  exact ⟨rfl, rfl⟩

/-- R99: a receive movement past its look-ahead takes no notice of its hold timer. -/
theorem State.rxHoldEnds_past (h : ∀ m, u.ring.rx = some m → m.phase ≠ .held ∧ ∀ ds b, m.phase ≠ .looking ds b) :
    u.rxHoldEnds = u := by
  unfold State.rxHoldEnds
  split
  · rfl
  · rename_i m hm
    obtain ⟨h1, h2⟩ := h m hm
    split
    · exact absurd ‹_› h1
    · exact absurd ‹_› (h2 _ _)
    · rfl

/-- R102, R99: a frame held, or in a walk that is abandoned, is missed. -/
theorem State.rxHoldEnds_misses {m : RxMove} {f : Stored} (hm : u.ring.rx = some m)
    (hp : m.phase = .held ∨ ∃ ds b, m.phase = .looking ds b) (hq : u.sw.queue0.frames.contains m.id = true)
    (hf : u.sw.find m.id = some f) (hr : f.refs = 2) :
    u.rxHoldEnds.apart = (u.rxMiss m).apart := by
  unfold State.rxHoldEnds
  rw [hm]
  obtain hp | ⟨ds, b, hp⟩ := hp
  · simp only [hp]
  · simp only [hp]
    have ha := u.withdrawRing_apart .rx
    have hsw : (u.withdrawRing .rx).sw = u.sw := (congrArg State.sw ha :)
    rw [State.rxMiss_head (u := u.withdrawRing .rx) (by rw [hsw]; exact hq) (by rw [hsw]; exact hf) hr,
      State.rxMiss_head hq hf hr]
    generalize u.withdrawRing .rx = w at ha
    change (State.withCauses { w.apart with
      sw := w.apart.sw.headGone m.id f.blocks (fun c => { c with flushed := min (c.flushed + 1) 4294967295 })
      ring := { w.apart.ring with
        tx := w.apart.ring.tx.map TxMove.roomSeen
        rx := some { m with phase := .marking 0, hold := none, rewalk := false }
        counters := { w.apart.ring.counters with missed := min (w.apart.ring.counters.missed + 1) 4294967295 } }
      alarm := { w.apart.alarm with marks := { w.apart.alarm.marks with rxMissed := true } } } 0x020).apart = _
    rw [ha]
    rfl

/-- R99: what a halt makes of a transmit movement. -/
def TxMove.halted (m : TxMove) : TxMove :=
  match m.phase with
  | .fetching _ | .held _ => { m.readSoFar with phase := .returning .undeliverable 0 }
  | _ => m

/-- R99: the transmit side at a halt. -/
theorem State.txHalt_apart (u : State) :
    u.txHalt.apart = ({ u.apart with
      ring := { u.apart.ring with tx := u.ring.tx.map TxMove.halted
                                  exam := if u.ring.tx = none then none else u.ring.exam } } : State) := by
  unfold State.txHalt
  split
  · rename_i h
    have ha := u.withdrawRing_apart .tx
    dsimp only
    generalize u.withdrawRing .tx = w at ha
    change ({ w.apart with ring := { w.apart.ring with exam := none } } : State) = _
    rw [ha, h]
    simp only [State.apart, h, Option.map_none, if_true]
  · rename_i m h
    rw [h]
    have hpast (t : State) (ht : t.apart = ({ u.apart with ring := { u.apart.ring with tx := some m.halted } } : State)) :
        t.apart = ({ u.apart with ring := { u.apart.ring with
          tx := (some m).map TxMove.halted, exam := if some m = none then none else u.ring.exam } } : State) := by
      rw [ht, if_neg (by exact Option.some_ne_none m)]
      rfl
    refine hpast _ ?_
    unfold TxMove.halted
    split
    · rename_i x hp
      have ha := u.withdrawRing_apart .tx
      generalize u.withdrawRing .tx = w at ha
      change ({ w.apart with ring := { w.apart.ring with tx := _ } } : State) = _
      rw [ha]
      simp only [hp]
      rfl
    · rename_i b hp
      simp only [TxMove.readSoFar, hp]
      rfl
    · simp only [State.apart, h]

theorem exec_ringStart {unread : BitVec 20} {x : State} (h : s.takesCommand) (hh : s.cmd.hub = .inService)
    (hrun : ∀ g : State, g.Shadows (s.begun ⟨.ringStart, 0, []⟩ (commandMem s.mem 0x06 0 unread [])) →
      (g.ringStartOp.1.finishAnswer .ringStart g.ringStartOp.2).apart = x) :
    ∃ t, exec (.ringStart 0 unread []) s = .next t ∧ t.apart = x :=
  exec_runs (k := .ringStart) rfl h rfl rfl rfl (by rw [hh]; rfl) hrun

theorem exec_ringStop {unread : BitVec 20} {x : State} (h : s.takesCommand) (hh : s.cmd.hub = .inService)
    (hrun : ∀ g : State, g.Shadows (s.begun ⟨.ringStop, 0, []⟩ (commandMem s.mem 0x07 0 unread [])) →
      (State.finishWhen g.ringStopOp .ringStop).apart = x) :
    ∃ t, exec (.ringStop 0 unread []) s = .next t ∧ t.apart = x :=
  exec_runs (k := .ringStop) rfl h rfl rfl rfl (by rw [hh]; rfl) hrun

/-- R99: RING_STOP in RING_RUNNING leaves the command executing. -/
theorem State.ringStopOp_running (h : u.ring.state = .running) :
    (State.finishWhen u.ringStopOp .ringStop).apart = ({ (u.setRing { u.ring with state := .halting }).rxHoldEnds.apart with
      ring := { (u.setRing { u.ring with state := .halting }).rxHoldEnds.apart.ring with
        tx := (u.setRing { u.ring with state := .halting }).rxHoldEnds.ring.tx.map TxMove.halted
        exam := if (u.setRing { u.ring with state := .halting }).rxHoldEnds.ring.tx = none then none
          else (u.setRing { u.ring with state := .halting }).rxHoldEnds.ring.exam } } : State) := by
  rw [← State.txHalt_apart]
  unfold State.ringStopOp State.finishWhen State.ringHalt
  simp only [h, if_true]
  rfl

/-- R99: RING_STOP with no look-ahead in progress. -/
theorem State.ringStopOp_halts (h : u.ring.state = .running)
    (hrx : ∀ m, u.ring.rx = some m → m.phase ≠ .held ∧ ∀ ds b, m.phase ≠ .looking ds b) :
    (State.finishWhen u.ringStopOp .ringStop).apart = ({ u.apart with
      ring := { u.apart.ring with state := .halting, tx := u.ring.tx.map TxMove.halted
                                  exam := if u.ring.tx = none then none else u.ring.exam } } : State) := by
  rw [State.ringStopOp_running h, State.rxHoldEnds_past (by exact hrx)]
  rfl

/-- R99, R105: RING_STOP with a frame in look-ahead, which is missed. -/
theorem State.ringStopOp_misses {m : RxMove} {f : Stored} (h : u.ring.state = .running) (htx : u.ring.tx = none)
    (hm : u.ring.rx = some m) (hp : m.phase = .held ∨ ∃ ds b, m.phase = .looking ds b)
    (hq : u.sw.queue0.frames.contains m.id = true) (hf : u.sw.find m.id = some f) (hr : f.refs = 2) :
    (State.finishWhen u.ringStopOp .ringStop).apart = (State.withCauses { u.apart with
      sw := u.apart.sw.headGone m.id f.blocks (fun c => { c with flushed := min (c.flushed + 1) 4294967295 })
      ring := { u.apart.ring with
        state := .halting, exam := none
        rx := some { m with phase := .marking 0, hold := none, rewalk := false }
        counters := { u.apart.ring.counters with missed := min (u.apart.ring.counters.missed + 1) 4294967295 } }
      alarm := { u.apart.alarm with marks := { u.apart.alarm.marks with rxMissed := true } } } 0x020).apart := by
  have hmiss := (State.rxHoldEnds_misses (u := u.setRing { u.ring with state := .halting }) hm hp hq hf hr).trans
    (State.rxMiss_head hq hf hr)
  have hno : (u.setRing { u.ring with state := .halting }).rxHoldEnds.ring.tx = none := by
    refine (congrArg (·.ring.tx) hmiss).trans ?_
    change u.ring.tx.map _ = none
    rw [htx]
    rfl
  rw [State.ringStopOp_running h, hno, hmiss]
  simp only [State.apart, htx]
  rfl

/-- Settles O27: R98 and R99 by ring state. A halt follows R102 on the receive side and R99 on the transmit side. -/
theorem ringCommandsTaken : Obligations.RingCommandsTaken := by
  unfold Obligations.RingCommandsTaken
  intro unread s h hh
  refine ⟨fun hst => ?_, fun hst => ?_, fun hst => ?_, fun hst hrx => ?_, fun m f hst htx hrx hp hf hr hq => ?_⟩
  · apply exec_ringStart h hh
    intro g hg
    obtain ⟨h2, h1⟩ := State.ringStartOp_taken (u := g) (hg.ringState.trans hst)
    rw [h2, State.finishAnswer, State.finish_apart, h1, hg.begun_apart, h.after_eq]
    rfl
  · apply exec_ringStart h hh
    intro g hg
    have hop : g.ringStartOp = (g, .refused) := if_neg (by rw [hg.ringState]; exact hst)
    rw [hop]
    exact hg.answered h
  · apply exec_ringStop h hh
    intro g hg
    have hop : g.ringStopOp = (g, true) := by
      unfold State.ringStopOp
      rw [hg.ringState.trans hst]
    rw [hop]
    exact hg.answered h
  · intro halted
    have ht : s.ring.tx.map TxMove.halted = halted := by
      simp only [halted]
      obtain _ | ⟨d, p⟩ := s.ring.tx
      · rfl
      · cases p <;> rfl
    apply exec_ringStop h hh
    intro g hg
    rw [State.ringStopOp_halts (hg.ringState.trans hst) (by exact hg.rx.symm ▸ hrx), hg.tx, hg.exam, hg.begun_apart, ← ht]
    rfl
  · apply exec_ringStop h hh
    intro g hg
    have hsw : g.sw = s.sw := hg.sw
    rw [State.ringStopOp_misses (hg.ringState.trans hst) (hg.tx.trans htx) (hg.rx.trans hrx) hp (by rw [hsw]; exact hq)
      (by rw [hsw]; exact hf) hr, hg.begun_apart]
    rfl

/-! ## O28: CYCLE_START and CYCLE_STOP (R135, R136) -/

theorem addrOf_toNat {n : Nat} (h : n < 0x100000) : (addrOf n).toNat = n := by
  unfold addrOf
  rw [BitVec.toNat_ofNat]
  omega

/-- R142: what a fault leaves. -/
theorem State.cycleFault_apart (u : State) (k : CycleFaultKind) :
    (u.cycleFault k).apart = (State.withCauses { u.apart with
      cyc := { u.apart.cyc with
        state := .faulted, fault := k, entry := none
        counters := { u.apart.cyc.counters with faults := min (u.apart.cyc.counters.faults + 1) 4294967295 } } }
          0x100).apart := rfl

/-- R136, R141: what the end of a cycle leaves. -/
theorem State.cycleEnds_apart (u : State) :
    u.cycleEnds.apart = (State.withCauses { u.apart with
      cyc := { u.apart.cyc with state := .idle, stack := [], zeroRun := 0, entry := none } } 0x080).apart := rfl

theorem State.entryAddrOk_iff {a : Addr} :
    u.entryAddrOk a = true ↔ a.toNat % 8 = 0 ∧ u.path.touchesKept a.toNat 8 = false := by
  unfold State.entryAddrOk
  simp

/-- R137: the engine moves to an entry that may stand at its address. -/
theorem State.cycleGo_fetches {a : Addr} (h : u.entryAddrOk a = true) :
    (u.cycleGo a).apart
      = ({ u.apart with cyc := { u.apart.cyc with cur := a, entry := some ⟨a, .fetch []⟩ } } : State) := by
  unfold State.cycleGo
  rw [if_pos h]
  rfl

/-- R137, R142: no entry may stand at the address. -/
theorem State.cycleGo_faults {a : Addr} (h : u.entryAddrOk a = false) :
    (u.cycleGo a).apart = (({ u.apart with cyc := { u.apart.cyc with cur := a, entry := none } } : State).cycleFault
      .illegalAddress).apart := by
  unfold State.cycleGo
  rw [h]
  rfl

/-- R135: CYCLE_START at an address where an entry may stand. -/
theorem State.cycleStartOp_starts {v : Word} (hst : u.cyc.state = .idle ∨ u.cyc.state = .faulted) (hv : v.toNat < 0x100000)
    (h8 : v.toNat % 8 = 0) (hk : u.path.touchesKept v.toNat 8 = false) :
    (u.cycleStartOp v).2 = .done ∧ (u.cycleStartOp v).1.apart = ({ u.apart with
      cyc := { u.apart.cyc with state := .running, fault := .none, stack := [], zeroRun := 0, cur := addrOf v.toNat,
                                entry := some ⟨addrOf v.toNat, .fetch []⟩ } } : State) := by
  unfold State.cycleStartOp
  rw [if_pos (by simpa using hst)]
  refine ⟨rfl, ?_⟩
  dsimp only
  rw [if_pos (by exact hv), State.cycleGo_fetches (State.entryAddrOk_iff.mpr (by rw [addrOf_toNat hv]; exact ⟨h8, hk⟩))]
  rfl

/-- R135, R137: CYCLE_START at any other value. -/
theorem State.cycleStartOp_faults {v : Word} (hst : u.cyc.state = .idle ∨ u.cyc.state = .faulted)
    (hv : 0x100000 ≤ v.toNat ∨ v.toNat % 8 ≠ 0 ∨ u.path.touchesKept v.toNat 8 = true) :
    (u.cycleStartOp v).2 = .done ∧ (u.cycleStartOp v).1.apart = (State.withCauses { u.apart with
      cyc := { u.apart.cyc with
        state := .faulted, fault := .illegalAddress, stack := [], zeroRun := 0, cur := addrOf v.toNat, entry := none
        counters := { u.apart.cyc.counters with faults := min (u.apart.cyc.counters.faults + 1) 4294967295 } } }
          0x100).apart := by
  unfold State.cycleStartOp
  rw [if_pos (by simpa using hst)]
  refine ⟨rfl, ?_⟩
  dsimp only
  split
  · rename_i hlt
    rw [State.cycleGo_faults, State.cycleFault_apart]
    · rfl
    · rw [Bool.eq_false_iff, Ne, State.entryAddrOk_iff, addrOf_toNat hlt]
      rintro ⟨h8, hk⟩
      obtain hv | hv | hv := hv
      · exact absurd hlt (Nat.not_lt.mpr hv)
      · exact hv h8
      · rw [show u.path.touchesKept v.toNat 8 = false from hk] at hv
        cases hv
  · rw [State.cycleFault_apart]
    rfl

theorem State.cycleStartOp_refused {v : Word} (hst : u.cyc.state = .running ∨ u.cyc.state = .halting) :
    u.cycleStartOp v = (u, .refused) := by
  unfold State.cycleStartOp
  exact if_neg (by rcases hst with h | h <;> simp [h])

/-- R136: CYCLE_STOP in CYCLE_FAULTED, and while an entry is being fetched. -/
theorem State.cycleStopOp_ends (h : u.cyc.state = .faulted ∨
    (u.cyc.state = .running ∧ ∃ a got, u.cyc.entry = some ⟨a, .fetch got⟩)) :
    u.cycleStopOp.2 = true ∧ u.cycleStopOp.1.apart = u.cycleEnds.apart := by
  unfold State.cycleStopOp
  obtain h | ⟨h, a, got, he⟩ := h
  · simp only [h, and_self]
  · simp only [h, he, true_and]
    rw [State.cycleEnds_apart, State.dropHeld_apart, State.cycleEnds_apart]

/-- R136, R143, R144: CYCLE_STOP ends a wait at once. -/
theorem State.cycleStopOp_stops {a : Addr} {ws : List Word} (h : u.cyc.state = .running)
    (he : (∃ x, u.cyc.entry = some ⟨a, .run ws (.gap x)⟩) ∨ ∃ d, u.cyc.entry = some ⟨a, .run ws (.boundary d)⟩) :
    u.cycleStopOp.2 = false ∧ u.cycleStopOp.1.apart = ({ u.apart with
      draws := u.apart.draws + 1
      cyc := { u.apart.cyc with
        state := .halting
        entry := some ⟨a, .writeBack ws
          { w4 := wordOf (3 + 2 ^ 12 * (if Config.freePlane u.apart.draws then 1 else 0)
                    + 2 ^ 24 * (Config.freeCodes u.apart.draws).val)
            w5 := wordOf (Config.freeRtt u.apart.draws).toNat, w6 := wordOf u.apart.time.sec
            w7 := wordOf u.apart.time.ns, n := 0, next := a + 8 }⟩ } } : State) := by
  have hend : ((u.setCyc { u.cyc with state := .halting }).endWait .stopped).apart
      = ((u.setCyc { u.cyc with state := .halting }).endEntry a ws (waitResult .stopped a)).apart := by
    unfold State.endWait
    obtain ⟨x, he⟩ | ⟨d, he⟩ := he
    · have he' : (u.setCyc { u.cyc with state := .halting }).cyc.entry = some ⟨a, .run ws (.gap x)⟩ := he
      rw [he']
      rfl
    · have he' : (u.setCyc { u.cyc with state := .halting }).cyc.entry = some ⟨a, .run ws (.boundary d)⟩ := he
      rw [he']
      rfl
  have hop : u.cycleStopOp = ((u.setCyc { u.cyc with state := .halting }).endWait .stopped, false) := by
    unfold State.cycleStopOp
    obtain ⟨x, he⟩ | ⟨d, he⟩ := he <;> simp only [h, he]
  rw [hop]
  refine ⟨rfl, hend.trans ?_⟩
  have hw4 : (u.setCyc { u.cyc with state := .halting }).resultWord4 (waitResult .stopped a)
      = wordOf (3 + 2 ^ 12 * (if Config.freePlane u.draws then 1 else 0) + 2 ^ 24 * (Config.freeCodes u.draws).val) := by
    unfold State.resultWord4 resultWord waitResult State.planeBit flag
    simp only [EntryOutcome.code, Option.getD_some, Option.getD_none]
    congr 1
  have hw5 : (u.setCyc { u.cyc with state := .halting }).resultWord5 .noSample = wordOf (Config.freeRtt u.draws).toNat := by
    unfold State.resultWord5 rttWord flag
    simp
  unfold State.endEntry
  rw [hw4]
  unfold waitResult
  dsimp only
  rw [hw5]
  rfl

/-- R136: CYCLE_STOP lets a poll, a TIME send and a write-back go on. -/
theorem State.cycleStopOp_halts {a : Addr} {ws : List Word} (h : u.cyc.state = .running)
    (he : (∃ w, u.cyc.entry = some ⟨a, .run ws (.poll w)⟩) ∨ (∃ w, u.cyc.entry = some ⟨a, .run ws (.time w)⟩) ∨
      ∃ b, u.cyc.entry = some ⟨a, .writeBack ws b⟩) :
    u.cycleStopOp = (u.setCyc { u.cyc with state := .halting }, false) := by
  unfold State.cycleStopOp
  obtain ⟨w, he⟩ | ⟨w, he⟩ | ⟨b, he⟩ := he <;> simp only [h, he]

theorem exec_cycleStart {unread : BitVec 20} {v : Word} {x : State} (h : s.takesCommand) (hh : s.cmd.hub = .inService)
    (hrun : ∀ g : State, g.Shadows (s.begun ⟨.cycleStart, 1, [v]⟩ (commandMem s.mem 0x08 1 unread [v])) →
      ((g.cycleStartOp v).1.finishAnswer .cycleStart (g.cycleStartOp v).2).apart = x) :
    ∃ t, exec (.cycleStart 1 unread [v]) s = .next t ∧ t.apart = x :=
  exec_runs (k := .cycleStart) rfl h rfl rfl rfl (by rw [hh]; rfl) hrun

theorem exec_cycleStop {unread : BitVec 20} {x : State} (h : s.takesCommand) (hh : s.cmd.hub = .inService)
    (hrun : ∀ g : State, g.Shadows (s.begun ⟨.cycleStop, 0, []⟩ (commandMem s.mem 0x09 0 unread [])) →
      (State.finishWhen g.cycleStopOp .cycleStop).apart = x) :
    ∃ t, exec (.cycleStop 0 unread []) s = .next t ∧ t.apart = x :=
  exec_runs (k := .cycleStop) rfl h rfl rfl rfl (by rw [hh]; rfl) hrun

/-- Settles O28: R135 and R136 by the state of the engine and the phase of its entry. -/
theorem cycleCommandsTaken : Obligations.CycleCommandsTaken := by
  unfold Obligations.CycleCommandsTaken
  intro unread s h hh
  refine ⟨fun v hst => ⟨fun hv h8 hk => ?_, fun hv => ?_⟩, fun v hst => ?_, fun hst => ?_, fun hst => ?_,
    fun a ws hst he => ?_, fun a ws hst he => ?_⟩
  · apply exec_cycleStart h hh
    intro g hg
    obtain ⟨h2, h1⟩ := State.cycleStartOp_starts (u := g) (v := v) (by rw [hg.cyc]; exact hst) hv h8
      (by rw [hg.begun_touchesKept]; exact hk)
    rw [h2, State.finishAnswer, State.finish_apart, h1, hg.begun_apart, h.after_eq]
    rfl
  · apply exec_cycleStart h hh
    intro g hg
    obtain ⟨h2, h1⟩ := State.cycleStartOp_faults (u := g) (v := v) (by rw [hg.cyc]; exact hst)
      (by rw [hg.begun_touchesKept]; exact hv)
    rw [h2, State.finishAnswer, State.finish_apart, h1, hg.begun_apart, h.after_eq]
    rfl
  · apply exec_cycleStart h hh
    intro g hg
    rw [State.cycleStartOp_refused (by rw [hg.cyc]; exact hst)]
    exact hg.answered h
  · apply exec_cycleStop h hh
    intro g hg
    have hop : g.cycleStopOp = (g, true) := by
      unfold State.cycleStopOp
      dsimp only
      rw [hg.cyc, show (s.begun _ _).cyc.state = .idle from hst]
    rw [hop]
    exact hg.answered h
  · apply exec_cycleStop h hh
    intro g hg
    obtain ⟨h2, h1⟩ := State.cycleStopOp_ends (u := g) (by rw [hg.cyc]; exact hst)
    rw [State.finishWhen, h2, if_pos rfl, State.finishWith, State.finish_apart, h1, State.cycleEnds_apart, hg.begun_apart,
      h.after_eq]
    rfl
  · apply exec_cycleStop h hh
    intro g hg
    obtain ⟨h2, h1⟩ := State.cycleStopOp_stops (u := g) (a := a) (ws := ws) (by rw [hg.cyc]; exact hst)
      (by rw [hg.cyc]; exact he)
    rw [State.finishWhen, h2, if_neg Bool.false_ne_true, h1, hg.begun_apart]
    rfl
  · apply exec_cycleStop h hh
    intro g hg
    rw [State.cycleStopOp_halts (u := g) (a := a) (ws := ws) (by rw [hg.cyc]; exact hst) (by rw [hg.cyc]; exact he)]
    have hset : (g.setCyc { g.cyc with state := .halting }).apart
        = ({ g.apart with cyc := { g.apart.cyc with state := .halting } } : State) := rfl
    rw [State.finishWhen, if_neg Bool.false_ne_true, hset, hg.begun_apart]
    rfl

/-! ## O30: ALARM_RESET (R171, R173, R174) -/

/-- R173: a masked point moves unreported. -/
theorem State.movePoint_masked {k : Fin 64} {p : Point} (h : p.cfg.masked = true) :
    (u.movePoint k p).apart
      = ({ u.apart with alarm := { u.apart.alarm with points := vset u.apart.alarm.points k p } } : State) := by
  unfold State.movePoint
  rw [if_pos h]
  rfl

/-- R174: the log entry of a change of a point, in the alarm unit that takes it. -/
def AlarmUnit.withEntry (a : AlarmUnit) (b : LogBody) (sec ns : Nat) : AlarmUnit :=
  { a with
    queue := a.queue ++ [{ addr := addrOf (a.logBase + 4 * a.writeIdx), pos := a.writeIdx, seq := a.seq, body := b
                           sec := sec, ns := ns, stale := false }]
    writeIdx := (a.writeIdx + 1) % a.logSize
    seq := (a.seq + 1) % 65536 }

/-- R174: in IN_SERVICE, with nothing counted and room in the log, a change takes an entry of its own. -/
theorem State.placeChange_assigns {b : LogBody} (hh : u.cmd.hub = .inService) (ho : u.alarm.overflow = 0)
    (hf : 1 ≤ u.alarm.freePositions) :
    u.placeChange b = { u with alarm := u.alarm.withEntry b u.time.sec u.time.ns } := by
  unfold State.placeChange
  rw [if_pos hh, if_pos ho, if_pos hf]
  rfl

/-- R173, R174, R178: an unmasked point that stood leaves for CLEAR, with room in the log and nothing counted. -/
theorem State.movePoint_clears {k : Fin 64} {p : Point} (hm : p.cfg.masked = false)
    (hold : (u.point k).state.standing = true) (hp : p.state = .clear) (hh : u.cmd.hub = .inService)
    (ho : u.alarm.overflow = 0) (hf : 1 ≤ u.alarm.freePositions) :
    (u.movePoint k p).apart = ({ u.apart with
      alarm := (AlarmUnit.withEntry { u.apart.alarm with points := vset u.apart.alarm.points k p }
        (.change k.val false p.cfg.severity p.cfg.logSlot) u.apart.time.sec u.apart.time.ns).judged true } : State) := by
  unfold State.movePoint
  simp only [hm, Bool.false_eq_true, if_false, hold, hp, Bool.not_true, Bool.false_and, beq_self_eq_true, Bool.and_self,
    if_true]
  rw [State.placeChange_assigns (u := u.putPoint k p) hh ho hf]
  unfold State.judgeRelays
  dsimp only
  rw [show (u.putPoint k p).cmd.hub.relaysOn = true from congrArg HubState.relaysOn hh]
  rfl

theorem exec_alarmReset {unread : BitVec 20} {v : Word} {x : State} (h : s.takesCommand) (hh : s.cmd.hub = .inService)
    (hrun : ∀ g : State, g.Shadows (s.begun ⟨.alarmReset, 1, [v]⟩ (commandMem s.mem 0x0E 1 unread [v])) →
      (match g.alarmResetOp v.toNat with
       | some t => t.finishWith .alarmReset .done
       | none => g.finishAnswer .alarmReset (.parameter 1)).apart = x) :
    ∃ t, exec (.alarmReset 1 unread [v]) s = .next t ∧ t.apart = x :=
  exec_runs (k := .alarmReset) rfl h rfl rfl rfl (by rw [hh]; rfl) hrun

/-- R171: ALARM_RESET of the point named. -/
theorem State.alarmResetOp_point (u : State) (k : Fin 64) :
    u.alarmResetOp (BitVec.ofNat 32 k.val).toNat = some (u.resetPoint k) := by
  have hk : (BitVec.ofNat 32 k.val).toNat = k.val := by
    rw [BitVec.toNat_ofNat]
    have := k.isLt
    omega
  unfold State.alarmResetOp
  simp [hk]

/-- R171: a latched point whose source has cleared moves to CLEAR. -/
theorem State.resetPoint_moves {k : Fin 64} (hl : (u.point k).cfg.latching = true) (hr : (u.point k).state = .raised)
    (hc : (u.point k).sourceCleared = true) : u.resetPoint k = u.movePoint k (u.point k).cleared := by
  unfold State.resetPoint
  simp [hl, hr, hc]

theorem State.resetPoint_passes {k : Fin 64} (h : (u.point k).cfg.latching = false ∨ (u.point k).state ≠ .raised ∨
    (u.point k).sourceCleared = false) : u.resetPoint k = u := by
  unfold State.resetPoint
  refine if_neg fun hc => ?_
  simp only [Bool.and_eq_true, beq_iff_eq] at hc
  obtain ⟨⟨hl, hr⟩, hs⟩ := hc
  obtain h | h | h := h
  · rw [hl] at h
    cases h
  · exact h hr
  · rw [hs] at h
    cases h

/-- Settles O30: R171 moves the point named to CLEAR, R173 and R174 report it. -/
theorem alarmResetTaken : Obligations.AlarmResetTaken := by
  unfold Obligations.AlarmResetTaken
  intro unread s h hh
  refine ⟨fun v h64 h255 => ?_, fun k => ⟨fun hno => ?_, fun hl hr hc => ⟨fun hm => ?_, fun hm ho hf => ?_⟩⟩⟩
  · apply exec_alarmReset h hh
    intro g hg
    have hop : g.alarmResetOp v.toNat = none := by
      unfold State.alarmResetOp
      rw [dif_neg (Nat.not_lt.mpr h64), if_neg h255]
    rw [hop]
    exact hg.answered h
  · apply exec_alarmReset h hh
    intro g hg
    have hk : g.point k = s.point k := by
      rw [State.point, hg.alarm]
      rfl
    rw [State.alarmResetOp_point, State.resetPoint_passes (by rw [hk]; exact hno)]
    exact hg.answered h
  · apply exec_alarmReset h hh
    intro g hg
    have hk : g.point k = s.point k := by
      rw [State.point, hg.alarm]
      rfl
    rw [State.alarmResetOp_point, State.resetPoint_moves (by rw [hk]; exact hl) (by rw [hk]; exact hr) (by rw [hk]; exact hc),
      hk]
    dsimp only
    rw [State.finishWith, State.finish_apart, State.movePoint_masked (by exact hm), hg.begun_apart, h.after_eq]
    rfl
  · apply exec_alarmReset h hh
    intro g hg
    have hk : g.point k = s.point k := by
      rw [State.point, hg.alarm]
      rfl
    rw [State.alarmResetOp_point, State.resetPoint_moves (by rw [hk]; exact hl) (by rw [hk]; exact hr) (by rw [hk]; exact hc),
      hk]
    dsimp only
    rw [State.finishWith, State.finish_apart, State.movePoint_clears (by exact hm) (by rw [hk]; exact congrArg _ hr) rfl
      (hg.hub.trans hh) (by rw [hg.alarm]; exact ho) (by rw [hg.alarm]; exact hf), hg.begun_apart, h.after_eq]
    rfl

end Sys2Proof.Machine
end

section
/-! SUPPORT. What the blocks' work is made of. `Calm` lists the changes of state that leave the service of the slots, the alarm
points and the stage of the command unit alone; every operation of a block is a chain of them and of the few others that
`Work` (below) adds. Invariants are then proved change by change. -/

namespace Sys2Proof.Machine

open Sys2Proof

variable {s t u : State}

/-! ## Changes of the switch core -/

/-- A change of the switch core that keeps the pool whole, the quality as it is and empty queues empty. -/
structure SwitchCore.Keeps (w x : SwitchCore) : Prop where
  pool : w.poolKept → x.poolKept
  quality : x.quality = w.quality
  queues : ∀ i c, w.queue i c = EgressQueue.nil → x.queue i c = EgressQueue.nil

theorem SwitchCore.Keeps.refl (w : SwitchCore) : w.Keeps w := ⟨id, rfl, fun _ _ => id⟩

theorem SwitchCore.Keeps.trans {w x y : SwitchCore} (h : w.Keeps x) (k : x.Keeps y) : w.Keeps y :=
  ⟨k.pool ∘ h.pool, k.quality.trans h.quality, fun i c => k.queues i c ∘ h.queues i c⟩

/-- R91, R92: may a queue of the slot take a frame? -/
def State.queueOpen (s : State) (i : Slot) (c : Cls) : Prop :=
  (s.slot i).serving = true ∧ (c = .timed → s.sw.quality ≤ (s.slot i).cfg.gate)

/-- A change of the switch core as the blocks make it: the pool stays whole, the quality stays, and an empty queue stays empty
unless it is open. -/
def State.admits (s : State) (w : SwitchCore) : Prop :=
  (s.sw.poolKept → w.poolKept) ∧ w.quality = s.sw.quality ∧
    ∀ i c, s.sw.queue i c = EgressQueue.nil → w.queue i c = EgressQueue.nil ∨ s.queueOpen i c

theorem SwitchCore.Keeps.admits {w : SwitchCore} (h : s.sw.Keeps w) : s.admits w :=
  ⟨h.pool, h.quality, fun i c hn => .inl (h.queues i c hn)⟩

/-! ## The calm changes -/

/-- The fields of the time base that status words show (R34). -/
def TimeBase.shown (t : TimeBase) : TimeState × Bool × Option (Fin 4) × Int × Int × Nat :=
  (t.state, t.beyond, t.selected, t.lastError, t.trim, t.holdover)

/-- The fields of the cycle engine that status words show. -/
def CycleEngine.shown (c : CycleEngine) : CycleState × CycleFaultKind × Addr × Word := (c.state, c.fault, c.cur, c.notify)

/-- The fields of the command unit that calm changes leave alone. -/
def CommandUnit.still (c : CommandUnit) : (HubState × Collection × Option Transfer) × CmdRecord × BitVec 12 × List Nat × Nat × Nat :=
  ((c.hub, c.collection, c.transfer), c.record, c.pending, c.rewrite, c.snapSec, c.snapNs)

/-- What the queues and the points follow in a slot's entry. -/
def SlotEntry.service (e : SlotEntry) : SlotState × Bool × PortCfg := (e.state, e.fenced, e.cfg)

/-- The cycle engine's attempt in progress, when it is one of the slot. -/
def CycleEngine.attempt? (c : CycleEngine) (i : Slot) : Option Attempt :=
  match c.entry with
  | some ⟨_, .run _ (.poll w)⟩ => if w.slot = i then w.cur else none
  | _ => none

theorem State.attemptOf_eq (s : State) (i : Slot) : s.attemptOf i = s.cyc.attempt? i := by
  unfold State.attemptOf State.pollRun CycleEngine.attempt?
  generalize s.cyc.entry = x
  cases x with
  | none => rfl
  | some e =>
    obtain ⟨a, ph⟩ := e
    cases ph with
    | run ws w => cases w <;> rfl
    | _ => rfl

/-- A calm change of the state. -/
inductive Calm (s : State) : State → Prop
  | pending (p : BitVec 12) : Calm s (s.setPending p)
  | record (r : CmdRecord) : Calm s (s.setRecord r)
  | snapshot (sec ns : Nat) : Calm s (s.snapshot sec ns)
  | command (c : CommandUnit) (h : c.still = s.cmd.still) (hi : c.images = s.cmd.images ∨ c.images = []) :
      Calm s { s with cmd := c }
  | lanes (l : Vector Lanes 12) : Calm s { s with lanes := l }
  | entry (i : Slot) (e : SlotEntry) (h : e.service = (s.slot i).service) : Calm s (s.putSlot i e)
  | pins (i : Slot) (e : SlotEntry) (h : e.service = (s.slot i).service) (ha : e.active = (s.slot i).active) :
      Calm s (s.setSlot i e)
  | manager (q d : Nat) : Calm s { s with sm := { s.sm with q0Limit := q, discarded := d } }
  | sw (w : SwitchCore) (h : s.admits w) : Calm s (s.setSw w)
  | ring (r : RingEngine) : Calm s (s.setRing r)
  | cyc (c : CycleEngine) (h : ∀ i, (c.attempt? i).isSome → (s.cyc.attempt? i).isSome) : Calm s (s.setCyc c)
  | draws (n : Nat) : Calm s { s with draws := n }
  | glide (o : Nat) (x : TimeBase) (d : Int) (h : s.time.inRange → x.inRange) (hs : x.shown = s.time.shown) :
      Calm s { s with osc := o, time := x, cyc := s.cyc.shift d }
  | clock (x : TimeBase) (h : s.time.inRange → x.inRange) (hs : x.shown = s.time.shown) : Calm s { s with time := x }
  | time (x : TimeBase) (h : s.time.inRange → x.inRange) :
      Calm s (reimage refImageWords s (retouch [0x34, 0x35, 0x36, 0x37] s { s with time := x }))
  | alarm (a : AlarmUnit) (h : a.points = s.alarm.points) : Calm s (s.setAlarm a)
  | guarded (n : Nat) (a : Addr) :
      Calm s (retouch [0x3D, 0x3E] s { s with path := { s.path with guardedCount := n, lastGuarded := a } })
  | uncounted : Calm s (retouch [0x3D] s { s with path := { s.path with guardedCount := 0, partialCount := 0 } })
  | zones (z : Option ZoneSet) : Calm s { s with path := { s.path with zones := z } }
  | dropHeld (p : Purpose → Bool) : Calm s (s.dropHeld p)

/-- A chain of calm changes. -/
abbrev Calms : State → State → Prop := Relation.ReflTransGen Calm

theorem Calm.one (h : Calm s t) : Calms s t := .single h

/-- A fold of operations, each of them a chain of changes, is a chain of changes. -/
theorem foldl_chain {α : Type} {r : State → State → Prop} {f : State → α → State}
    (h : ∀ s x, Relation.ReflTransGen r s (f s x)) (l : List α) (s : State) : Relation.ReflTransGen r s (l.foldl f s) := by
  induction l generalizing s with
  | nil => exact .refl
  | cons x l ih => exact (h s x).trans (ih (f s x))

/-! ## Rewrites that change nothing -/

theorem retouch_same {offs : List Nat} (h : ∀ o ∈ offs, s.statusWord o = t.statusWord o) : retouch offs s t = t := by
  have hf : ∀ l : List Nat, offs.foldl (fun l o => if s.statusWord o = t.statusWord o then l else insertOrd o l) l = l := by
    intro l
    induction offs with
    | nil => rfl
    | cons o offs ih =>
      rw [List.foldl_cons, if_pos (h o (List.mem_cons_self ..))]
      exact ih fun x hx => h x (List.mem_cons_of_mem o hx)
  unfold retouch
  rw [hf]

theorem State.setSw_quiet {w : SwitchCore} (h : w.free = s.sw.free) : s.setSw w = { s with sw := w } := by
  refine retouch_same fun o ho => ?_
  obtain rfl := List.mem_singleton.mp ho
  exact congrArg wordOf h.symm

theorem State.setRing_quiet {r : RingEngine} (h : r.state = s.ring.state) : s.setRing r = { s with ring := r } := by
  refine retouch_same fun o ho => ?_
  obtain rfl := List.mem_singleton.mp ho
  simp only [State.statusWord, h]

theorem State.setCyc_quiet {c : CycleEngine} (h : c.shown = s.cyc.shown) : s.setCyc c = { s with cyc := c } := by
  simp only [CycleEngine.shown, Prod.mk.injEq] at h
  obtain ⟨h1, h2, h3, h4⟩ := h
  refine retouch_same fun o ho => ?_
  simp only [List.mem_cons, List.not_mem_nil, or_false] at ho
  obtain rfl | rfl | rfl := ho <;> simp only [State.statusWord, h1, h2, h3, h4]

theorem State.setAlarm_quiet {a : AlarmUnit} (hp : a.producer = s.alarm.producer) (ho : a.overflow = s.alarm.overflow) :
    s.setAlarm a = { s with alarm := a } := by
  refine retouch_same fun o h => ?_
  obtain rfl := List.mem_singleton.mp h
  simp only [State.statusWord, hp, ho]

/-! ## Calm changes without a rewrite -/

theorem Calm.quietSw (w : SwitchCore) (h : s.admits w) (hf : w.free = s.sw.free) : Calm s { s with sw := w } :=
  State.setSw_quiet hf ▸ .sw w h

theorem Calm.quietRing (r : RingEngine) (h : r.state = s.ring.state) : Calm s { s with ring := r } :=
  State.setRing_quiet h ▸ .ring r

theorem Calm.quietCyc (c : CycleEngine) (hs : c.shown = s.cyc.shown)
    (h : ∀ i, (c.attempt? i).isSome → (s.cyc.attempt? i).isSome) : Calm s { s with cyc := c } :=
  State.setCyc_quiet hs ▸ .cyc c h

theorem Calm.quietAlarm (a : AlarmUnit) (h : a.points = s.alarm.points) (hp : a.producer = s.alarm.producer)
    (ho : a.overflow = s.alarm.overflow) : Calm s { s with alarm := a } :=
  State.setAlarm_quiet hp ho ▸ .alarm a h

theorem Calm.lane (i : Slot) (p : Plane) (l : LanePort) : Calm s (s.setLane i p l) := .lanes _

theorem Calm.deliver (c : Cause) : Calm s (s.deliver c) := .pending _

/-! ## The switch core's own operations -/

theorem SwitchCore.Keeps.of_stored {w x : SwitchCore} (hf : x.free = w.free) (hn : x.nextId = w.nextId)
    (hs : x.stored.map (fun f => (f.id, f.blocks)) = w.stored.map (fun f => (f.id, f.blocks))) (hq : x.quality = w.quality)
    (hqs : ∀ i c, w.queue i c = EgressQueue.nil → x.queue i c = EgressQueue.nil) : w.Keeps x := by
  refine ⟨fun ⟨h1, h2, h3⟩ => ?_, hq, hqs⟩
  have hids : x.stored.map (·.id) = w.stored.map (·.id) := by
    simpa [Function.comp_def] using congrArg (List.map Prod.fst) hs
  have hblocks : x.stored.map (·.blocks) = w.stored.map (·.blocks) := by
    simpa [Function.comp_def] using congrArg (List.map Prod.snd) hs
  refine ⟨by rw [hf, hblocks]; exact h1, by rw [hids]; exact h2, fun f hf' => ?_⟩
  have : f.id ∈ w.stored.map (·.id) := hids ▸ List.mem_map_of_mem hf'
  obtain ⟨y, hy, he⟩ := List.mem_map.mp this
  rw [hn, ← he]
  exact h3 y hy

theorem SwitchCore.keeps_bump (w : SwitchCore) (p : Fin 13) (f : PortCounters → PortCounters) : w.Keeps (w.bump p f) :=
  .of_stored rfl rfl rfl rfl fun _ _ => id

theorem SwitchCore.keeps_modify (w : SwitchCore) (id : Nat) {f : Stored → Stored}
    (hf : ∀ x, (f x).id = x.id ∧ (f x).blocks = x.blocks) : w.Keeps (w.modify id f) := by
  refine .of_stored rfl rfl ?_ rfl fun _ _ h => h
  unfold SwitchCore.modify
  simp only [List.map_map]
  refine List.map_congr_left fun x _ => ?_
  simp only [Function.comp_apply]
  split
  · rw [(hf x).1, (hf x).2]
  · rfl

theorem SwitchCore.keeps_addRef (w : SwitchCore) (id : Nat) : w.Keeps (w.addRef id) := w.keeps_modify id fun _ => ⟨rfl, rfl⟩

/-- R85: the blocks of a stored frame that goes return to the pool. -/
theorem Stored.blocks_filter {l : List Stored} {id : Nat} {f : Stored} (hn : (l.map (·.id)).Nodup)
    (h : l.find? (fun f => f.id = id) = some f) :
    ((l.filter (fun y => y.id ≠ id)).map (·.blocks)).sum + f.blocks = (l.map (·.blocks)).sum := by
  induction l with
  | nil => cases h
  | cons x l ih =>
    rw [List.map_cons, List.nodup_cons] at hn
    obtain ⟨hx, hn⟩ := hn
    by_cases he : x.id = id
    · obtain rfl : x = f := by simpa [he] using h
      have hl : l.filter (fun y => y.id ≠ id) = l := by
        refine List.filter_eq_self.mpr fun y hy => ?_
        have : y.id ≠ id := fun hy' => hx (he ▸ hy' ▸ List.mem_map_of_mem hy)
        simpa using this
      rw [List.filter_cons_of_neg (by simpa using he), hl, List.map_cons, List.sum_cons, Nat.add_comm]
    · have := ih hn (by simpa [he] using h)
      rw [List.filter_cons_of_pos (by simpa using he)]
      simp only [List.map_cons, List.sum_cons]
      omega

theorem SwitchCore.keeps_dropRef (w : SwitchCore) (id : Nat) : w.Keeps (w.dropRef id) := by
  unfold SwitchCore.dropRef
  split
  · exact .refl w
  · rename_i f hf
    split
    · refine ⟨fun ⟨h1, h2, h3⟩ => ⟨?_, ?_, fun g hg => h3 g (List.mem_of_mem_filter hg)⟩, rfl, fun _ _ h => h⟩
      · have := Stored.blocks_filter h2 hf
        dsimp only
        omega
      · exact h2.sublist ((List.filter_sublist ..).map _)
    · exact w.keeps_modify id fun _ => ⟨rfl, rfl⟩

theorem SwitchCore.keeps_dropRefs (w : SwitchCore) (ids : List Nat) : w.Keeps (w.dropRefs ids) := by
  unfold SwitchCore.dropRefs
  induction ids generalizing w with
  | nil => exact .refl w
  | cons id ids ih => exact (w.keeps_dropRef id).trans (ih _)

theorem SlotQueues.get_set_self (q : SlotQueues) (c : Cls) (x : EgressQueue) : (q.set c x).get c = x := by cases c <;> rfl

theorem SlotQueues.get_set_ne (q : SlotQueues) {c d : Cls} (x : EgressQueue) (h : d ≠ c) : (q.set c x).get d = q.get d := by
  cases c <;> cases d <;> first | rfl | exact absurd rfl h

theorem SwitchCore.queue_setQueue_self (w : SwitchCore) (i : Slot) (c : Cls) (x : EgressQueue) :
    (w.setQueue i c x).queue i c = x := by
  unfold SwitchCore.queue SwitchCore.setQueue
  rw [vget_vset_self, SlotQueues.get_set_self]

theorem SwitchCore.queue_setQueue_ne (w : SwitchCore) {i j : Slot} {c d : Cls} (x : EgressQueue) (h : j ≠ i ∨ d ≠ c) :
    (w.setQueue i c x).queue j d = w.queue j d := by
  unfold SwitchCore.queue SwitchCore.setQueue
  by_cases hj : j = i
  · subst hj
    rw [vget_vset_self, SlotQueues.get_set_ne _ _ (h.resolve_left (not_not.mpr rfl))]
  · rw [vget_vset_ne _ _ (Ne.symm hj)]

/-- A slot's queue replaced, an empty one by an empty one. -/
theorem SwitchCore.keeps_setQueue (w : SwitchCore) {i : Slot} {c : Cls} {x : EgressQueue}
    (h : w.queue i c = EgressQueue.nil → x = EgressQueue.nil) : w.Keeps (w.setQueue i c x) := by
  refine .of_stored rfl rfl rfl rfl fun j d hn => ?_
  by_cases hjd : j = i ∧ d = c
  · obtain ⟨rfl, rfl⟩ := hjd
    rw [SwitchCore.queue_setQueue_self]
    exact h hn
  · rw [SwitchCore.queue_setQueue_ne _ _ (not_and_or.mp hjd)]
    exact hn

theorem SwitchCore.keeps_queue0 (w : SwitchCore) (q : EgressQueue) : w.Keeps { w with queue0 := q } :=
  .of_stored rfl rfl rfl rfl fun _ _ h => h

theorem SwitchCore.keeps_onPort (w : SwitchCore) (c : Cls) {f : EgressQueue → EgressQueue} (p : Fin 13)
    (h : ∀ i, slotOf p.val = some i → w.queue i c = EgressQueue.nil → f (w.queue i c) = EgressQueue.nil) :
    w.Keeps (w.onPort c f p) := by
  unfold SwitchCore.onPort
  split
  · exact w.keeps_queue0 _
  · rename_i i hi
    exact w.keeps_setQueue (h i hi)

end Sys2Proof.Machine
end

section
/-! SUPPORT. The operations of the blocks that are chains of calm changes, in the order of the model's files. -/

namespace Sys2Proof.Machine

open Sys2Proof

variable {s t u : State}

/-! ## Alarm unit -/

theorem State.judgeRelays_calm (s : State) : Calms s s.judgeRelays := (.single (.quietAlarm _ rfl rfl rfl))

theorem State.assignEntry_calm (s : State) (b : LogBody) : Calms s (s.assignEntry b) := (.single (.quietAlarm _ rfl rfl rfl))

theorem State.addOverflow_calm (s : State) (n : Nat) : Calms s (s.addOverflow n) := (.single (.alarm _ rfl))

theorem State.assignOverflow_calm (s : State) : Calms s s.assignOverflow :=
  (s.assignEntry_calm _).trans (.single (.alarm _ rfl))

theorem State.placeChange_calm (s : State) (b : LogBody) : Calms s (s.placeChange b) := by
  unfold State.placeChange
  split
  · split
    · split
      · exact s.assignEntry_calm b
      · exact s.addOverflow_calm 1
    · split
      · exact s.assignOverflow_calm.trans (State.assignEntry_calm _ b)
      · exact s.addOverflow_calm 1
  · exact s.addOverflow_calm 1

theorem State.markLinkError_calm (s : State) (i : Slot) : Calms s (s.markLinkError i) := (.single (.quietAlarm _ rfl rfl rfl))
theorem State.markSurprise_calm (s : State) (i : Slot) : Calms s (s.markSurprise i) := (.single (.quietAlarm _ rfl rfl rfl))
theorem State.markDrop_calm (s : State) (p : Fin 13) : Calms s (s.markDrop p) := (.single (.quietAlarm _ rfl rfl rfl))
theorem State.markMissed_calm (s : State) : Calms s s.markMissed := (.single (.quietAlarm _ rfl rfl rfl))

theorem State.consumerWrite_calm (s : State) (v : Word) : Calms s (s.consumerWrite v) := by
  unfold State.consumerWrite
  split
  · dsimp only
    split
    · exact (.single (.quietAlarm _ rfl rfl rfl))
    · exact (.single (.quietAlarm _ rfl rfl rfl))
  · exact .refl

theorem State.alarmLeaves_calm (s : State) : Calms s s.alarmLeaves := (.single (.alarm _ rfl))

theorem State.alarmEnters_calm (s : State) (base size : Nat) : Calms s (s.alarmEnters base size) := by
  unfold State.alarmEnters
  dsimp only
  split
  · exact (.single (.alarm _ rfl))
  · exact (Calm.alarm _ (by rfl)).one.trans (State.assignOverflow_calm _)

theorem State.logWordDone_calm (s : State) : Calms s s.logWordDone := by
  unfold State.logWordDone
  dsimp only
  split
  · exact .refl
  · split
    · exact (.single (.quietAlarm _ rfl rfl rfl))
    · exact (Calm.alarm _ (by rfl)).one.trans (.single (.deliver _))

/-! ## Pool -/

theorem State.bump_calm (s : State) (p : Fin 13) (f : PortCounters → PortCounters) : Calms s (s.bump p f) :=
  (.single (.quietSw _ (s.sw.keeps_bump p f).admits rfl))

theorem State.roomReport_calm (s : State) : Calms s s.roomReport := (.single (.quietRing _ rfl))

theorem State.setSw_calm {w : SwitchCore} (h : s.sw.Keeps w) : Calms s (s.setSw w) := (.single (.sw w h.admits))

theorem State.dropClaim_calm (s : State) (id : Nat) : Calms s (s.dropClaim id) := by
  unfold State.dropClaim
  dsimp only
  split
  · exact (State.setSw_calm (s.sw.keeps_dropRef id)).trans (State.roomReport_calm _)
  · exact State.setSw_calm (s.sw.keeps_dropRef id)

/-! ## Lanes -/

theorem PollWork.started_cur (w : PollWork) (tag : Nat) (x : Stamp) : (w.started tag x).cur.isSome = w.cur.isSome := by
  unfold PollWork.started
  split
  · split <;> simp_all
  · rfl

theorem PollWork.started_slot (w : PollWork) (tag : Nat) (x : Stamp) : (w.started tag x).slot = w.slot := by
  unfold PollWork.started
  split
  · split <;> rfl
  · rfl

theorem State.reportStart_calm (s : State) (f : CtlFrame) : Calms s (s.reportStart f) := by
  unfold State.reportStart
  split
  · rename_i a ws w he
    refine (.single (.quietCyc _ rfl fun i hi => ?_))
    simp only [CycleEngine.attempt?, he, PollWork.started_slot] at hi ⊢
    split at hi
    · rename_i hw
      rw [if_pos hw]
      simpa [PollWork.started_cur] using hi
    · cases hi
  · exact .refl

theorem State.startData_calm (s : State) (i : Slot) (p : Plane) (c : Cls) (id : Nat) : Calms s (s.startData i p c id) :=
  (Calm.lane i p _).one.trans (.single (.quietSw _ (SwitchCore.keeps_addRef _ id).admits rfl))

theorem State.kickLane_calm (s : State) (i : Slot) (p : Plane) : Calms s (s.kickLane i p) := by
  unfold State.kickLane
  dsimp only
  split
  · split
    · exact (Calm.lane i p _).one.trans (State.reportStart_calm _ _)
    · split
      · split
        · exact s.startData_calm ..
        · exact s.startData_calm ..
        · exact .refl
      · exact .refl
  · exact .refl

theorem State.kickSlot_calm (s : State) (i : Slot) : Calms s (s.kickSlot i) :=
  (s.kickLane_calm i .a).trans (State.kickLane_calm _ i .b)

theorem State.submit_calm (s : State) (i : Slot) (p : Plane) (f : CtlFrame) : Calms s (s.submit i p f).1 := by
  unfold State.submit
  dsimp only
  split
  · exact (Calm.lane i p _).one.trans (State.kickLane_calm _ i p)
  · exact (.single (.lane i p _))

theorem State.leaveUp_calm (s : State) (i : Slot) (p : Plane) (st : LaneState) : Calms s (s.leaveUp i p st) := by
  unfold State.leaveUp
  dsimp only
  split
  · exact (.single (.lane i p _))
  · exact (Calm.lane i p _).one.trans (.single (.draws _))
  · exact (((Calm.lane i p _).one.trans (.single (.draws _))).trans (State.dropClaim_calm _ _)).trans (State.kickLane_calm ..)

theorem State.frameStart_calm (s : State) (i : Slot) (p : Plane) (bs : List Byte) : Calms s (s.frameStart i p bs) := by
  unfold State.frameStart
  dsimp only
  split
  · exact (.single (.lane i p _))
  · exact .refl

/-! ## Switch core: decisions -/

theorem State.countLoss_calm (s : State) (x : Fin 13 × Loss) : Calms s (s.countLoss x) := by
  unfold State.countLoss
  dsimp only
  split
  · exact (s.bump_calm ..).trans (State.markDrop_calm _ _)
  · exact s.bump_calm ..

theorem State.countLosses_calm (s : State) (xs : List (Fin 13 × Loss)) : Calms s (s.countLosses xs) :=
  foldl_chain (fun s x => s.countLoss_calm x) xs s

theorem State.kickPorts_calm (s : State) (ps : List (Fin 13)) : Calms s (s.kickPorts ps) := by
  refine foldl_chain (fun s p => ?_) ps s
  split
  · exact s.kickSlot_calm _
  · exact .refl

/-- R83, R85: a frame stored anew. -/
theorem SwitchCore.poolKept.store {w : SwitchCore} (h : w.poolKept) {f : Stored} (hid : f.id = w.nextId) (hb : f.blocks ≤ w.free) :
    SwitchCore.poolKept { w with free := w.free - f.blocks, stored := w.stored ++ [f], nextId := w.nextId + 1 } := by
  obtain ⟨h1, h2, h3⟩ := h
  refine ⟨?_, ?_, fun g hg => ?_⟩
  · simp only [List.map_append, List.map_cons, List.map_nil, List.sum_append, List.sum_cons, List.sum_nil]
    omega
  · simp only [List.map_append, List.map_cons, List.map_nil]
    refine List.nodup_append.mpr ⟨h2, List.nodup_singleton _, fun x hx y hy => ?_⟩
    obtain ⟨g, hg, rfl⟩ := List.mem_map.mp hx
    obtain rfl := List.mem_singleton.mp hy
    have := h3 g hg
    omega
  · dsimp only
    obtain hg | hg := List.mem_append.mp hg
    · exact Nat.lt_succ_of_lt (h3 g hg)
    · rw [List.mem_singleton.mp hg]
      omega

theorem slotOf_eq_some {n : Nat} {i : Slot} (h : slotOf n = some i) : n = i.val + 1 := by
  unfold slotOf at h
  split at h
  · rename_i hn
    have := congrArg Fin.val (Option.some.inj h)
    dsimp only at this
    omega
  · cases h

/-- A queue of a port replaced: only queues of that slot and class have changed. -/
theorem SwitchCore.queue_onPort (w : SwitchCore) (c : Cls) (f : EgressQueue → EgressQueue) (p : Fin 13) (i : Slot) (d : Cls) :
    (w.onPort c f p).queue i d = if slotOf p.val = some i ∧ d = c then f (w.queue i d) else w.queue i d := by
  unfold SwitchCore.onPort
  split
  · rename_i h
    rw [h, if_neg (by simp)]
    rfl
  · rename_i j h
    rw [h]
    by_cases hi : j = i ∧ d = c
    · obtain ⟨rfl, rfl⟩ := hi
      rw [SwitchCore.queue_setQueue_self, if_pos ⟨rfl, rfl⟩]
    · rw [SwitchCore.queue_setQueue_ne _ _ (by tauto), if_neg (by simpa using hi)]

theorem SwitchCore.onPort_same (w : SwitchCore) (c : Cls) (f : EgressQueue → EgressQueue) (p : Fin 13) :
    (w.onPort c f p).free = w.free ∧ (w.onPort c f p).stored = w.stored ∧ (w.onPort c f p).nextId = w.nextId ∧
      (w.onPort c f p).quality = w.quality := by
  unfold SwitchCore.onPort
  split <;> exact ⟨rfl, rfl, rfl, rfl⟩

/-- Queues of ports changed one after another. -/
theorem SwitchCore.onPorts_same {α : Type} (c : α → Cls) (f : α → EgressQueue → EgressQueue) (p : α → Fin 13) (l : List α)
    (w : SwitchCore) :
    (l.foldl (fun w x => w.onPort (c x) (f x) (p x)) w).free = w.free ∧
      (l.foldl (fun w x => w.onPort (c x) (f x) (p x)) w).stored = w.stored ∧
      (l.foldl (fun w x => w.onPort (c x) (f x) (p x)) w).nextId = w.nextId ∧
      (l.foldl (fun w x => w.onPort (c x) (f x) (p x)) w).quality = w.quality := by
  induction l generalizing w with
  | nil => exact ⟨rfl, rfl, rfl, rfl⟩
  | cons x l ih =>
    obtain ⟨h1, h2, h3, h4⟩ := ih (w.onPort (c x) (f x) (p x))
    obtain ⟨k1, k2, k3, k4⟩ := w.onPort_same (c x) (f x) (p x)
    exact ⟨h1.trans k1, h2.trans k2, h3.trans k3, h4.trans k4⟩

/-- A queue of no port of the list is as before. -/
theorem SwitchCore.queue_onPorts_ne {α : Type} (c : α → Cls) (f : α → EgressQueue → EgressQueue) (p : α → Fin 13) {l : List α}
    {i : Slot} {d : Cls} (h : ∀ x ∈ l, ¬ (slotOf (p x).val = some i ∧ d = c x)) (w : SwitchCore) :
    (l.foldl (fun w x => w.onPort (c x) (f x) (p x)) w).queue i d = w.queue i d := by
  induction l generalizing w with
  | nil => rfl
  | cons x l ih =>
    rw [List.foldl_cons, ih (fun y hy => h y (List.mem_cons_of_mem x hy)), SwitchCore.queue_onPort,
      if_neg (h x (List.mem_cons_self ..))]

/-- R80, R82: a port that is not lost at the decode or at the gate is open. -/
theorem State.queueOpen_of_gateLoss {c : Cls} {p : Fin 13} {i : Slot} (h : s.gateLoss c p = none) (hi : slotOf p.val = some i) :
    s.queueOpen i c := by
  unfold State.gateLoss at h
  rw [hi] at h
  dsimp only at h
  split at h
  · cases h
  · rename_i hserve
    split at h
    · cases h
    · rename_i hgate
      simp only [Bool.not_eq_true', Bool.not_eq_false] at hserve
      refine ⟨hserve, fun hc => Nat.not_lt.mp fun hlt => hgate ?_⟩
      simp [hc, hlt]

/-- R83, R87: a frame stored anew and its name put into queues of open ports. -/
theorem State.admits_store {c : Cls} {f : Stored} {g : EgressQueue → EgressQueue} {ps : List (Fin 13)} (hid : f.id = s.sw.nextId)
    (hb : f.blocks ≤ s.sw.free) (hps : ∀ p ∈ ps, s.gateLoss c p = none) :
    s.admits (ps.foldl (fun w p => w.onPort c g p)
      { s.sw with free := s.sw.free - f.blocks, stored := s.sw.stored ++ [f], nextId := s.sw.nextId + 1 }) := by
  obtain ⟨h1, h2, h3, h4⟩ := SwitchCore.onPorts_same (fun _ => c) (fun _ => g) id ps
    { s.sw with free := s.sw.free - f.blocks, stored := s.sw.stored ++ [f], nextId := s.sw.nextId + 1 }
  refine ⟨fun hk => ?_, h4, fun i d hn => ?_⟩
  · have := hk.store hid hb
    unfold SwitchCore.poolKept at this ⊢
    simp only [id] at h1 h2 h3
    rw [h1, h2, h3]
    exact this
  · by_cases hex : ∃ p ∈ ps, slotOf p.val = some i ∧ d = c
    · obtain ⟨p, hp, hi, rfl⟩ := hex
      exact .inr (State.queueOpen_of_gateLoss (hps p hp) hi)
    · refine .inl ((SwitchCore.queue_onPorts_ne (fun _ => c) (fun _ => g) id (fun x hx hc => hex ⟨x, hx, hc⟩) _).trans hn)

theorem State.place_calm {c : Cls} {header payload : List Byte} {b : Nat} {ps : List (Fin 13)} (hb : b ≤ s.sw.free)
    (hps : ∀ p ∈ ps, s.gateLoss c p = none) : Calms s (s.place c header payload b ps) :=
  (Calm.sw _ (State.admits_store (f := ⟨s.sw.nextId, header, payload, b, ps.length, false⟩) (by rfl) hb hps)).one.trans
    (State.kickPorts_calm _ ps)

theorem State.placeLoading_calm {c : Cls} {header : List Byte} {b : Nat} {ps : List (Fin 13)} (hb : b ≤ s.sw.free)
    (hps : ∀ p ∈ ps, s.gateLoss c p = none) : Calms s (s.placeLoading c header b ps) :=
  (.single (.sw _ (State.admits_store (f := ⟨s.sw.nextId, header, [], b, ps.length + 1, true⟩) rfl hb hps)))

/-- R82, R83: where a frame is placed there are blocks for it, and every port is open. -/
theorem State.verdict_placed {src d : Nat} {c : Cls} {b : Nat} {into : List (Fin 13)} {lost : List (Fin 13 × Loss)}
    (h : s.verdict src d c b = .placed into lost) :
    (∀ p ∈ into, s.gateLoss c p = none) ∧ (into ≠ [] → b ≤ s.sw.free) := by
  unfold State.verdict at h
  split at h
  · cases h
  · cases h
  · rename_i ps _
    dsimp only at h
    split at h
    · cases h
    · rename_i hpool
      obtain ⟨rfl, -⟩ := Verdict.placed.inj h
      refine ⟨fun p hp => ?_, fun hne => Nat.not_lt.mp fun hlt => hpool ?_⟩
      · have := (List.mem_filter.mp (List.mem_of_mem_filter hp)).2
        exact Option.isNone_iff_eq_none.mp this
      · have : ps.filter (fun p => (s.gateLoss c p).isNone) ≠ [] := fun h0 => hne (by rw [h0]; rfl)
        simp [hlt, List.isEmpty_iff, this]

/-- Losses counted change no room and no gate. -/
theorem State.countLosses_gates (xs : List (Fin 13 × Loss)) (s : State) :
    (s.countLosses xs).sw.free = s.sw.free ∧ ∀ c q, (s.countLosses xs).gateLoss c q = s.gateLoss c q := by
  have h1 (s : State) (x : Fin 13 × Loss) :
      (s.countLoss x).sw.free = s.sw.free ∧ ∀ c q, (s.countLoss x).gateLoss c q = s.gateLoss c q := by
    unfold State.countLoss
    dsimp only
    split <;> exact ⟨rfl, fun _ _ => rfl⟩
  unfold State.countLosses
  induction xs generalizing s with
  | nil => exact ⟨rfl, fun _ _ => rfl⟩
  | cons x xs ih =>
    obtain ⟨hf, hg⟩ := ih (s.countLoss x)
    exact ⟨hf.trans (h1 s x).1, fun c q => (hg c q).trans ((h1 s x).2 c q)⟩

theorem State.takeCardFrame_calm (s : State) (i : Slot) (header payload : List Byte) :
    Calms s (s.takeCardFrame i header payload) := by
  unfold State.takeCardFrame
  dsimp only
  have h1 := s.bump_calm (portOf i) PortCounters.countIn
  split
  · exact h1.trans (State.bump_calm ..)
  · exact h1.trans (State.bump_calm ..)
  · exact (h1.trans (State.countLosses_calm ..)).trans (State.bump_calm ..)
  · rename_i into lost hv
    obtain ⟨hgate, hfree⟩ := State.verdict_placed hv
    obtain ⟨kf, kg⟩ := State.countLosses_gates lost (s.bump (portOf i) PortCounters.countIn)
    have h2 := h1.trans (State.countLosses_calm _ lost)
    split
    · exact h2
    · rename_i hne
      refine h2.trans (State.place_calm (kf ▸ hfree (by simpa [List.isEmpty_iff] using hne)) fun p hp => ?_)
      rw [kg]
      exact hgate p hp

theorem State.offer_calm (s : State) (d : Nat) (c : Cls) (n : Nat) : Calms s (s.offer d c n).1 := by
  unfold State.offer
  dsimp only
  have h1 := s.bump_calm 0 PortCounters.countIn
  split
  · exact h1.trans (State.bump_calm ..)
  · exact h1.trans (State.bump_calm ..)
  · split
    · exact .refl
    · exact (h1.trans (State.countLosses_calm ..)).trans (State.bump_calm ..)
  · rename_i into lost hv
    obtain ⟨hgate, hfree⟩ := State.verdict_placed hv
    obtain ⟨kf, kg⟩ := State.countLosses_gates lost (s.bump 0 PortCounters.countIn)
    have h2 := h1.trans (State.countLosses_calm _ lost)
    split
    · split
      · exact .refl
      · exact h2
    · rename_i hne
      refine h2.trans (State.placeLoading_calm (kf ▸ hfree (by simpa [List.isEmpty_iff] using hne)) fun p hp => ?_)
      rw [kg]
      exact hgate p hp

/-! ## Switch core: loading, leaving and flushes -/

/-- R87: queues that hold a reservation of the frame are not empty. -/
theorem State.queue_of_reservedAt {id : Nat} {x : Fin 13 × Cls} (h : x ∈ s.reservedAt id) {i : Slot} (hi : slotOf x.1.val = some i) :
    s.sw.queue i x.2 ≠ EgressQueue.nil := by
  have hr := (List.mem_filter.mp h).2
  unfold State.portQueue EgressQueue.hasReserved at hr
  rw [hi] at hr
  dsimp only at hr
  intro hn
  rw [hn] at hr
  cases hr

/-- The queues that hold a reservation of a frame changed, in a switch core with the queues of the state. -/
theorem State.keeps_reserved {id : Nat} {f : EgressQueue → EgressQueue} {w : SwitchCore} (hw : s.sw.Keeps w)
    (hq : ∀ i c, w.queue i c = s.sw.queue i c) :
    s.sw.Keeps ((s.reservedAt id).foldl (fun w x => w.onPort x.2 f x.1) w) := by
  obtain ⟨h1, h2, h3, h4⟩ := SwitchCore.onPorts_same (α := Fin 13 × Cls) (·.2) (fun _ => f) (·.1) (s.reservedAt id) w
  refine ⟨fun hk => ?_, h4.trans hw.quality, fun i c hn => ?_⟩
  · have := hw.pool hk
    unfold SwitchCore.poolKept at this ⊢
    rw [h1, h2, h3]
    exact this
  · refine (SwitchCore.queue_onPorts_ne (α := Fin 13 × Cls) (·.2) (fun _ => f) (·.1) (fun x hx hc => ?_) w).trans
      ((hq i c).trans hn)
    obtain ⟨hi, rfl⟩ := hc
    exact State.queue_of_reservedAt hx hi hn

theorem State.loadComplete_calm (s : State) (id : Nat) (payload : List Byte) : Calms s (s.loadComplete id payload) := by
  unfold State.loadComplete
  dsimp only
  have hk := State.keeps_reserved (s := s) (id := id) (f := fun q => (q.unreserve id).append id)
    (s.sw.keeps_modify id (f := fun f => { f with payload := payload, loading := false }) fun _ => ⟨rfl, rfl⟩)
    fun _ _ => rfl
  exact ((State.setSw_calm hk).trans (State.dropClaim_calm _ id)).trans (State.kickPorts_calm ..)

theorem EgressQueue.nil_unreserve (id : Nat) : EgressQueue.nil.unreserve id = EgressQueue.nil := rfl
theorem EgressQueue.nil_remove (id : Nat) : EgressQueue.nil.remove id = EgressQueue.nil := rfl

theorem State.loadAbandon_calm (s : State) (id : Nat) : Calms s (s.loadAbandon id) := by
  unfold State.loadAbandon
  dsimp only
  have hk (l : List (Fin 13 × Cls)) (w : SwitchCore) :
      w.Keeps (l.foldl (fun w x => ((w.onPort x.2 (·.unreserve id) x.1).bump x.1 (·.countFlushed 1)).dropRef id) w) := by
    induction l generalizing w with
    | nil => exact .refl w
    | cons x l ih =>
      refine (((w.keeps_onPort x.2 x.1 fun i _ hn => ?_).trans (SwitchCore.keeps_bump ..)).trans
        (SwitchCore.keeps_dropRef ..)).trans (ih _)
      rw [hn, EgressQueue.nil_unreserve]
  have h := (State.setSw_calm (hk (s.reservedAt id) s.sw)).trans (State.dropClaim_calm _ id)
  split
  · exact h
  · exact h.trans (State.roomReport_calm _)

theorem State.frameSent_calm (s : State) (i : Slot) (c : Cls) (id : Nat) : Calms s (s.frameSent i c id) := by
  unfold State.frameSent
  dsimp only
  refine (State.setSw_calm ?_).trans (State.roomReport_calm _)
  refine (((s.sw.keeps_setQueue fun hn => ?_).trans (SwitchCore.keeps_bump ..)).trans (SwitchCore.keeps_dropRef ..)).trans
    (SwitchCore.keeps_dropRef ..)
  rw [hn, EgressQueue.nil_remove]

theorem State.leaveQueue0_calm (s : State) (id : Nat) (f : PortCounters → PortCounters) : Calms s (s.leaveQueue0 id f) := by
  unfold State.leaveQueue0
  dsimp only
  split
  · exact (State.setSw_calm ((((s.sw.keeps_queue0 _).trans (SwitchCore.keeps_bump ..)).trans
      (SwitchCore.keeps_dropRef ..)).trans (SwitchCore.keeps_dropRef ..))).trans (State.roomReport_calm _)
  · exact s.dropClaim_calm id

theorem State.abandonTx_calm (i : Slot) (c : Cls) (s : State) (p : Plane) : Calms s (State.abandonTx i c s p) := by
  unfold State.abandonTx
  dsimp only
  split
  · split
    · exact ((Calm.lane i p _).one.trans (.single (.draws _))).trans (State.dropClaim_calm ..)
    · exact .refl
  · exact .refl

theorem State.emptyQueue_calm (i : Slot) (s : State) (c : Cls) : Calms s (State.emptyQueue i s c) := by
  unfold State.emptyQueue
  dsimp only
  split
  · exact .refl
  · refine ((foldl_chain (fun s p => State.abandonTx_calm i c s p) _ s).trans (State.setSw_calm ?_)).trans
      (State.roomReport_calm _)
    exact ((SwitchCore.keeps_setQueue _ fun _ => rfl).trans (SwitchCore.keeps_bump ..)).trans (SwitchCore.keeps_dropRefs ..)

theorem State.flush_calm (s : State) (i : Slot) (cs : List Cls) : Calms s (s.flush i cs) :=
  (foldl_chain (fun s c => State.emptyQueue_calm i s c) cs s).trans (State.kickSlot_calm _ i)

theorem State.flushBoth_calm (s : State) (i : Slot) : Calms s (s.flushBoth i) := s.flush_calm i _

theorem State.flushQueue0_calm (s : State) : Calms s s.flushQueue0 := by
  unfold State.flushQueue0
  dsimp only
  split
  · exact .refl
  · exact (State.setSw_calm (((s.sw.keeps_queue0 _).trans (SwitchCore.keeps_bump ..)).trans
      (SwitchCore.keeps_dropRefs ..))).trans (State.roomReport_calm _)

/-! ## Cycle engine: the walk -/

theorem Calm.leavesEntry (c : CycleEngine) (h : ∀ i, c.attempt? i = none) : Calm s (s.setCyc c) :=
  .cyc c fun i hi => by rw [h i] at hi; cases hi

theorem State.cycleEnds_calm (s : State) : Calms s s.cycleEnds :=
  (Calm.leavesEntry _ (by exact fun _ => rfl)).one.trans (.single (.deliver _))

theorem State.cycleFault_calm (s : State) (k : CycleFaultKind) : Calms s (s.cycleFault k) :=
  (Calm.leavesEntry _ (by exact fun _ => rfl)).one.trans (.single (.deliver _))

theorem State.cycleGo_calm (s : State) (a : Addr) : Calms s (s.cycleGo a) := by
  unfold State.cycleGo
  split
  · exact (.single (.leavesEntry _ fun _ => rfl))
  · exact (Calm.leavesEntry _ (by exact fun _ => rfl)).one.trans (State.cycleFault_calm _ _)

/-- An entry that goes to WRITE_BACK. -/
theorem State.writeBack_calm (s : State) (a : Addr) (ws : List Word) (b : WriteBack) :
    Calms s { s with cyc := { s.cyc with entry := some ⟨a, .writeBack ws b⟩ } } :=
  .single (.quietCyc _ rfl fun _ h => by cases h)

theorem State.endEntry_calm (s : State) (a : Addr) (ws : List Word) (r : EntryResult) : Calms s (s.endEntry a ws r) :=
  (s.writeBack_calm a ws _).trans (.single (.draws _))

theorem State.endWait_calm (s : State) (o : EntryOutcome) : Calms s (s.endWait o) := by
  unfold State.endWait
  split
  · dsimp only
    split
    · exact (s.endEntry_calm ..).trans (.single (.cyc _ fun _ h => h))
    · exact s.endEntry_calm ..
  · dsimp only
    split
    · exact (s.endEntry_calm ..).trans (.single (.cyc _ fun _ h => h))
    · exact s.endEntry_calm ..
  · exact .refl

theorem CycleEngine.shift_shown (c : CycleEngine) (d : Int) : (c.shift d).shown = c.shown := by
  unfold CycleEngine.shift
  split <;> rfl

theorem CycleEngine.shift_attempt (c : CycleEngine) (d : Int) (i : Slot) : (c.shift d).attempt? i = c.attempt? i := by
  unfold CycleEngine.shift
  split
  · rename_i h
    unfold CycleEngine.attempt?
    rw [h]
  · rfl

theorem State.shift_calm (s : State) (d : Int) : Calms s { s with cyc := s.cyc.shift d } :=
  (.single (.quietCyc _ (s.cyc.shift_shown d) fun i h => by rwa [CycleEngine.shift_attempt] at h))

theorem State.boundaryStep_calm (s : State) (e : Int) : Calms s (s.boundaryStep e) := by
  unfold State.boundaryStep
  dsimp only
  split
  · split
    · exact (s.shift_calm e).trans (State.endWait_calm ..)
    · exact s.shift_calm e
  · exact s.shift_calm e

theorem State.boundaryElapsed_calm (s : State) : Calms s s.boundaryElapsed := by
  unfold State.boundaryElapsed
  split
  · split
    · exact s.endWait_calm _
    · exact .refl
  · exact .refl

theorem State.zeroTime_calm {go : State → State} (h : ∀ s, Calms s (go s)) : Calms s (s.zeroTime go) := by
  have h1 : Calms s (s.setCyc { s.cyc with zeroRun := s.cyc.zeroRun + 1 }) := (.single (.cyc _ fun _ h => h))
  unfold State.zeroTime
  dsimp only
  split
  · exact h1.trans (State.cycleFault_calm ..)
  · exact h1.trans (h _)

/-- R142: an entry that is no poll with an attempt in progress enters RUN. -/
theorem State.enterRun_calm (s : State) (a : Addr) (ws : List Word) {w : Work} (h : ∀ p, w = .poll p → p.cur = none) :
    Calms s (s.enterRun a ws w) := by
  refine (.single (.leavesEntry _ fun i => ?_))
  cases w with
  | poll p => simp [CycleEngine.attempt?, h p rfl]
  | _ => rfl

/-! ## Reports to the command unit -/

theorem State.guardHit_calm (s : State) (a : Addr) : Calms s (s.guardHit a) := (Calm.guarded _ a).one.trans (.single (.deliver _))

theorem State.refuse_calm (s : State) (why : RefusalReason) (offset code : Nat) : Calms s (s.refuse why offset code) :=
  (Calm.record _).one.trans (.single (.deliver _))

theorem State.fillCommand_calm (s : State) : Calms s s.fillCommand := by
  unfold State.fillCommand
  split
  · exact .refl
  · split <;> exact (.single (.command _ rfl (.inl rfl)))

end Sys2Proof.Machine
end

section
/-! SUPPORT. The work of the blocks: calm changes, and the changes that move a slot, the quality, a point, a poll attempt or a
slot's configuration. Every operation of a block is a chain of them. -/

namespace Sys2Proof.Machine

open Sys2Proof

variable {s t u : State} {G : Prop}

/-- A slot's entry replaced, with all that `State.changeSlot` brings, and R147 for the attempt in progress. -/
def State.reseat (s : State) (i : Slot) (new : SlotEntry) : State :=
  if (s.slot i).state = .admitted && new.state ≠ .admitted then (s.changeSlot i new).pollLeaves i else s.changeSlot i new

/-- A slot's controller-set fields replaced, the TIMED queue flushed when its gate has shut (R182). -/
def State.reconfigure (s : State) (i : Slot) (c : PortCfg) : State :=
  if (s.slot i).cfg.gate ≠ c.gate && c.gate < s.sw.quality
  then State.emptyQueue i (s.putSlot i { s.slot i with cfg := c }) .timed else s.putSlot i { s.slot i with cfg := c }

/-- R165, R172 for one point. -/
def State.pointOk (s : State) (p : Point) : Prop :=
  (p.cfg.enabled = false → p.state = .clear ∧ p.count = 0 ∧ p.sourceCleared = false) ∧
    ∀ i, p.cfg.kind.isCard = true → p.cfg.which = i.val + 1 → (s.slot i).state ≠ .admitted → p.state = .clear

theorem State.pointsFollow_iff : s.pointsFollow ↔ ∀ k, s.pointOk (s.point k) := Iff.rfl

/-- May the slot be in a state other than EMPTY and SEATED? -/
def State.seats (s : State) (i : Slot) : Prop :=
  ((s.slot i).state ≠ .empty ∧ (s.slot i).state ≠ .seated) ∨ s.cmd.hub.allowsPowering = true

/-- A change that a block makes. `G` stands for what is known of the state that a row begins with. -/
inductive Change (G : Prop) (s : State) : State → Prop
  | calm {t : State} (h : Calm s t) : Change G s t
  | reseat (i : Slot) (new : SlotEntry) (hcfg : new.cfg = (s.slot i).cfg)
      (hst : new.state = .empty ∨ new.state = .seated ∨ new.state = (s.slot i).state ∨ s.seats i) : Change G s (s.reseat i new)
  | quality (q : Nat) : Change G s (s.takeQuality q)
  | point (k : Fin 64) (p : Point) (h : G → s.pointOk (s.point k) → s.pointOk p) : Change G s (s.putPoint k p)
  | attempt (c : CycleEngine) (h : ∀ i, (c.attempt? i).isSome → (s.slot i).state = .admitted ∨ (s.cyc.attempt? i).isSome) :
      Change G s (s.setCyc c)
  | reconfigure (i : Slot) (c : PortCfg) : Change G s (s.reconfigure i c)

/-- A chain of changes that blocks make. -/
abbrev Changes (G : Prop) : State → State → Prop := Relation.ReflTransGen (Change G)

theorem Calms.changes (h : Calms s t) : Changes G s t := by
  induction h with
  | refl => exact .refl
  | tail _ hc ih => exact ih.tail (.calm hc)

theorem Change.one (h : Change G s t) : Changes G s t := .single h

theorem State.state_of_power (h : t.power = s.power) (i : Slot) : (t.slot i).state = (s.slot i).state :=
  congrArg (fun f => (f i).state) h

/-! ## Alarm unit -/

theorem State.placeChange_points (s : State) (b : LogBody) : (s.placeChange b).alarm.points = s.alarm.points := by
  unfold State.placeChange
  (repeat' split) <;> rfl

theorem State.movePoint_changes {k : Fin 64} {p : Point} (h : G → s.pointOk (s.point k) → s.pointOk p) :
    Changes G s (s.movePoint k p) := by
  have h1 : Changes G s (s.putPoint k p) := .single (.point k p h)
  unfold State.movePoint
  dsimp only
  split
  · exact h1
  · refine (h1.trans ?_).trans (Calms.changes (State.judgeRelays_calm _))
    split
    · exact Calms.changes (State.placeChange_calm ..)
    · split
      · exact Calms.changes (State.placeChange_calm ..)
      · exact .refl

theorem State.movePoint_sm (s : State) (k : Fin 64) (p : Point) :
    (s.movePoint k p).sm = s.sm ∧ (s.movePoint k p).cyc = s.cyc ∧ (s.movePoint k p).time = s.time ∧
      (s.movePoint k p).sw = s.sw := by
  have hc (u : State) (b : LogBody) :
      (u.placeChange b).sm = u.sm ∧ (u.placeChange b).cyc = u.cyc ∧ (u.placeChange b).time = u.time ∧
        (u.placeChange b).sw = u.sw := by
    unfold State.placeChange
    (repeat' split) <;> exact ⟨rfl, rfl, rfl, rfl⟩
  unfold State.movePoint
  dsimp only
  split
  · exact ⟨rfl, rfl, rfl, rfl⟩
  · split
    · exact hc ..
    · split
      · exact hc ..
      · exact ⟨rfl, rfl, rfl, rfl⟩

/-- A point back at CLEAR with its count and its flag clear. -/
theorem State.pointOk_cleared (p : Point) : s.pointOk p.cleared := ⟨fun _ => ⟨rfl, rfl, rfl⟩, fun _ _ _ _ => rfl⟩

theorem State.pointOk_cold (c : PointCfg) : s.pointOk { Point.cold with cfg := c } :=
  ⟨fun _ => ⟨rfl, rfl, rfl⟩, fun _ _ _ _ => rfl⟩

theorem State.scanPoint_changes (at0 s : State) (k : Fin 64) : Changes G s (State.scanPoint at0 s k) := by
  unfold State.scanPoint
  dsimp only
  split
  · rename_i h
    simp only [Bool.and_eq_true, Bool.not_eq_true'] at h
    obtain ⟨hen, hcard⟩ := h
    refine State.movePoint_changes fun _ _ => ⟨fun hoff => ?_, fun i hc => ?_⟩
    · rw [Point.observe_cfg, hen] at hoff
      cases hoff
    · rw [Point.observe_cfg, hcard] at hc
      cases hc
  · exact .refl

theorem TimeBase.inRange.of_clock {x y : TimeBase} (h : x.inRange) (hns : y.ns = x.ns) (hres : y.residue = x.residue)
    (htrim : y.trim = x.trim) (hint : y.integral = x.integral) (hsec : y.sec = x.sec) (hmark : y.mark = x.mark)
    (hset : y.pendingSet = x.pendingSet) : y.inRange := by
  unfold TimeBase.inRange
  rw [hns, hres, htrim, hint, hsec, hmark, hset]
  exact h

theorem State.scan_changes (s : State) : Changes G s s.scan := by
  unfold State.scan
  dsimp only
  have h1 : Changes G s (if s.cmd.hub = .loading .load then s else (List.finRange 64).foldl (State.scanPoint s) s) := by
    split
    · exact .refl
    · exact foldl_chain (State.scanPoint_changes s) _ s
  refine h1.trans ?_
  generalize (if s.cmd.hub = .loading .load then s else (List.finRange 64).foldl (State.scanPoint s) s) = v
  have h2 : Calms v { v with alarm := { v.alarm with marks := Marks.clear } } := .single (.quietAlarm _ rfl rfl rfl)
  exact Calms.changes (h2.trans (.single (.clock _ (fun h => h.of_clock rfl rfl rfl rfl rfl rfl rfl) rfl)))

theorem State.scanNow_changes (s : State) : Changes G s s.scanNow := by
  unfold State.scanNow
  dsimp only
  exact s.scan_changes.trans (Calms.changes (.single (.quietAlarm _ rfl rfl rfl)))

/-- A fold over the points that moves points only. -/
theorem foldl_points {f : State → Fin 64 → State} (hf : ∀ s k, (f s k).sm = s.sm)
    (hw : ∀ v k, v.sm = s.sm → Changes G v (f v k)) (l : List (Fin 64)) : Changes G s (l.foldl f s) := by
  have key : ∀ v, v.sm = s.sm → Changes G v (l.foldl f v) := by
    induction l with
    | nil => exact fun v _ => .refl
    | cons k l ih => exact fun v h => (hw v k h).trans (ih _ ((hf v k).trans h))
  exact key s rfl

/-- R169: the card points of a slot in ADMITTED are observed. -/
theorem State.observeCard_changes {i : Slot} (h : G → (s.slot i).state = .admitted) (flags : BitVec 4)
    (codes : List Byte) : Changes G s (s.observeCard i flags codes) := by
  refine foldl_points (fun v k => ?_) (fun v k h1 => ?_) _
  · dsimp only
    split
    · exact (v.movePoint_sm k ((v.point k).observe ((v.point k).cfg.cardTrue flags codes))).1
    · rfl
  · dsimp only
    split
    · rename_i hc
      simp only [Bool.and_eq_true, decide_eq_true_eq] at hc
      obtain ⟨⟨hen, -⟩, hwhich⟩ := hc
      refine State.movePoint_changes fun hp _ => ⟨fun hoff => ?_, fun j _ hj hadm => ?_⟩
      · rw [Point.observe_cfg, hen] at hoff
        cases hoff
      · rw [Point.observe_cfg, hwhich] at hj
        obtain rfl : i = j := Fin.ext (by omega)
        refine absurd ?_ hadm
        rw [State.slot, h1]
        exact h hp
    · exact .refl

theorem State.clearCardPoints_changes (s : State) (i : Slot) : Changes G s (s.clearCardPoints i) := by
  refine foldl_chain (fun s k => ?_) _ s
  dsimp only
  split
  · exact State.movePoint_changes fun _ _ => State.pointOk_cleared _
  · exact .refl

theorem State.resetPoint_changes (s : State) (k : Fin 64) : Changes G s (s.resetPoint k) := by
  unfold State.resetPoint
  dsimp only
  split
  · exact State.movePoint_changes fun _ _ => State.pointOk_cleared _
  · exact .refl

theorem State.alarmResetOp_changes {v : Nat} (h : s.alarmResetOp v = some t) : Changes G s t := by
  unfold State.alarmResetOp at h
  split at h
  · obtain rfl := Option.some.inj h
    exact s.resetPoint_changes _
  · split at h
    · obtain rfl := Option.some.inj h
      exact foldl_chain State.resetPoint_changes _ s
    · cases h

theorem State.emptyPoints_changes (s : State) : Changes G s s.emptyPoints := by
  refine foldl_chain (fun s k => ?_) _ s
  exact (State.movePoint_changes fun _ _ => State.pointOk_cleared _).trans
    (.single (.point k _ fun _ _ => State.pointOk_cold PointCfg.cold))

/-! ## Time base: what keeps its ranges (7.1, 7.4, R114) -/

theorem clampSym_natAbs {m x : Int} (h : 0 ≤ m) : (clampSym m x).natAbs ≤ m.natAbs := by
  unfold clampSym
  omega

theorem TimeBase.inRange.holdOn {x : TimeBase} (h : x.inRange) : x.holdOn.inRange := by
  unfold TimeBase.holdOn
  split
  · exact h.of_clock rfl rfl rfl rfl rfl rfl rfl
  · exact h

theorem TimeBase.inRange.turn {x : TimeBase} (h : x.inRange) (osc : Nat) : (x.turn osc).inRange := by
  obtain ⟨hns, hres, htrim, hint, hsec, hmark, hset⟩ := h
  unfold TimeBase.turn
  refine TimeBase.inRange.holdOn ?_
  split
  · rename_i v hv
    exact ⟨hns, hres, htrim, hint, hset v hv, Nat.mod_lt _ (by decide), fun _ h => nomatch h⟩
  · exact ⟨hns, hres, htrim, hint, Nat.mod_lt _ (by decide), hmark, hset⟩

theorem TimeBase.inRange.reselect {x : TimeBase} (h : x.inRange) : x.reselect.inRange := by
  unfold TimeBase.reselect
  (repeat' split) <;> exact h.of_clock rfl rfl rfl rfl rfl rfl rfl

theorem TimeBase.inRange.rejudge {x y : TimeBase} (h : y.inRange) : (x.rejudge y).inRange := by
  unfold TimeBase.rejudge
  split
  · exact h
  · exact h.reselect

theorem TimeBase.inRange.setRef {x : TimeBase} (h : x.inRange) (k : Fin 4) (r : RefEntry) : (x.setRef k r).inRange :=
  h.of_clock rfl rfl rfl rfl rfl rfl rfl

theorem TimeBase.inRange.offer {x : TimeBase} (h : x.inRange) (takes : RefEntry → Bool) (at_ : Nat) :
    (x.offer takes at_).inRange := by
  have hfold (l : List (Fin 4)) (y : TimeBase) (hy : y.inRange) : (l.foldl (fun (t : TimeBase) k =>
      let r := vget t.refs k
      if r.cfg.enabled && takes r then
        let j := r.judge at_
        let t1 := t.setRef k j.1
        if j.2 then { t1 with intervalRejects := inc32 t.intervalRejects } else t1
      else t) y).inRange := by
    induction l generalizing y with
    | nil => exact hy
    | cons k l ih =>
      refine ih _ ?_
      dsimp only
      split
      · split
        · exact hy.of_clock rfl rfl rfl rfl rfl rfl rfl
        · exact hy.setRef k _
      · exact hy
  exact (hfold _ x h).rejudge

theorem TimeBase.inRange.correct {x : TimeBase} (h : x.inRange) (e : Int) : (x.correct e).inRange := by
  obtain ⟨hns, hres, -, -, hsec, hmark, hset⟩ := h
  exact ⟨hns, hres, clampSym_natAbs (by decide), clampSym_natAbs (by decide), hsec, hmark, hset⟩

theorem TimeBase.inRange.countLock {x : TimeBase} (h : x.inRange) (e : Int) : (x.countLock e).inRange := by
  unfold TimeBase.countLock
  dsimp only
  (repeat' split) <;> first | exact h | exact h.of_clock rfl rfl rfl rfl rfl rfl rfl

theorem TimeBase.inRange.stepped {x : TimeBase} (h : x.inRange) : x.stepped.inRange := by
  obtain ⟨hns, hres, htrim, hint, hsec, -, hset⟩ := h
  exact ⟨hns, hres, htrim, hint, hsec, Nat.mod_lt _ (by decide), hset⟩

/-! ## Time base -/

theorem State.takeQuality_changes (s : State) (q : Nat) : Changes G s (s.takeQuality q) := .single (.quality q)

theorem State.putTime_changes {x : TimeBase} (h : s.time.inRange → x.inRange) : Changes G s (s.putTime x) := by
  have h1 : Changes G s (reimage refImageWords s (retouch [0x34, 0x35, 0x36, 0x37] s { s with time := x })) :=
    .single (.calm (.time x h))
  unfold State.putTime
  dsimp only
  split
  · exact h1
  · exact (h1.trans (State.takeQuality_changes _ _)).trans (Calms.changes (.single (.deliver _)))

theorem State.rollover_changes (s : State) : Changes G s s.rollover :=
  (State.putTime_changes fun h => h.turn _).trans (Calms.changes (.single (.snapshot _ _)))

/-- R114: the residue stays below its unit, whatever was added to it. -/
theorem TimeBase.residueAfter_natAbs (x : TimeBase) (n : Nat) : (x.residueAfter n).natAbs < 1000000000 := by
  unfold TimeBase.residueAfter
  rw [Int.natAbs_tmod]
  exact Nat.mod_lt _ (by decide)

end Sys2Proof.Machine
end

section
/-! SUPPORT. The counter of cabinet time (R114): what `n` oscillator periods add, and how many periods a gain takes. -/

namespace Sys2Proof.Machine

open Sys2Proof

variable {s t u : State} {G : Prop}

/-- The fields of the counter in their ranges. -/
def TimeBase.counts (x : TimeBase) : Prop := x.residue.natAbs < 1000000000 ∧ x.trim.natAbs ≤ 50000

theorem TimeBase.inRange.counts {x : TimeBase} (h : x.inRange) : x.counts := by
  obtain ⟨-, hres, htrim, -⟩ := h
  exact ⟨hres, htrim⟩

/-- R114: the time gained and the residue left hold all that the periods added. -/
theorem TimeBase.gain_add_residueAfter (x : TimeBase) (n : Nat) :
    1000000000 * x.gain n + x.residueAfter n = x.residue + (10000000000 + x.slope) * n := by
  have h := Int.mul_tdiv_add_tmod (x.residue + x.slope * n) 1000000000
  have h2 : (10000000000 + x.slope) * (n : Int) = 10000000000 * n + x.slope * n := by ring
  unfold TimeBase.gain TimeBase.residueAfter
  omega

theorem TimeBase.counts.slope {x : TimeBase} (h : x.counts) : -500000 ≤ x.slope ∧ x.slope ≤ 500000 := by
  obtain ⟨-, ht⟩ := h
  unfold TimeBase.slope
  omega

/-- R114: one more period. -/
theorem TimeBase.gain_succ {x : TimeBase} (h : x.counts) (n : Nat) :
    x.gain n + 8 ≤ x.gain (n + 1) ∧ x.gain (n + 1) ≤ x.gain n + 12 := by
  have h0 := x.gain_add_residueAfter n
  have h1 := x.gain_add_residueAfter (n + 1)
  have r0 := x.residueAfter_natAbs n
  have r1 := x.residueAfter_natAbs (n + 1)
  have hs := h.slope
  have hm : (10000000000 + x.slope) * ((n + 1 : Nat) : Int) = (10000000000 + x.slope) * (n : Int) + (10000000000 + x.slope) := by
    push_cast
    ring
  omega

/-- R114: the residue has the sign of what the periods added to it. -/
theorem TimeBase.residueAfter_sign (x : TimeBase) (n : Nat) :
    (0 ≤ x.residue + x.slope * n → 0 ≤ x.residueAfter n) ∧ (x.residue + x.slope * n ≤ 0 → x.residueAfter n ≤ 0) := by
  unfold TimeBase.residueAfter
  refine ⟨fun h => Int.tmod_nonneg _ h, fun h => ?_⟩
  rw [← neg_neg (x.residue + x.slope * n), Int.neg_tmod]
  exact Int.neg_nonpos_of_nonneg (Int.tmod_nonneg _ (by omega))

theorem TimeBase.gain_zero {x : TimeBase} (h : x.counts) : x.gain 0 = 0 := by
  have h0 := x.gain_add_residueAfter 0
  have r0 := x.residueAfter_natAbs 0
  have hs := x.residueAfter_sign 0
  obtain ⟨hr, -⟩ := h
  simp only [Int.ofNat_zero, Int.mul_zero, Int.add_zero] at h0 hs
  omega

theorem TimeBase.gain_mono {x : TimeBase} (h : x.counts) {n m : Nat} (hn : n ≤ m) : x.gain n ≤ x.gain m := by
  induction hn with
  | refl => exact le_rfl
  | @step m _ ih =>
    exact ih.trans ((le_add_of_nonneg_right (by decide)).trans (TimeBase.gain_succ h m).1)

/-- The estimate that `TimeBase.periodsToGain` begins with. -/
theorem TimeBase.estimate {x : TimeBase} (h : x.counts) {d : Int} {c : Nat}
    (hc : c = max 1 (((d - 1) * 1000000000 - x.residue) / (10000000000 + x.slope) + 1).toNat) :
    d - 1 ≤ x.gain c ∧ ∀ n, 1 ≤ n → n < c → x.gain n < d := by
  have hs := h.slope
  have hpos : 0 < 10000000000 + x.slope := by omega
  generalize hA : 10000000000 + x.slope = A at *
  generalize hB : (d - 1) * 1000000000 - x.residue = B at *
  have hq := Int.lt_ediv_add_one_mul_self B hpos
  have hle := Int.ediv_mul_le B (ne_of_gt hpos)
  refine ⟨?_, fun n h1 hn => ?_⟩
  · have h0 := x.gain_add_residueAfter c
    have r0 := x.residueAfter_natAbs c
    have hc2 : B / A + 1 ≤ (c : Int) := by omega
    have : (B / A + 1) * A ≤ (c : Int) * A := Int.mul_le_mul_of_nonneg_right hc2 (le_of_lt hpos)
    rw [hA, Int.mul_comm A] at h0
    omega
  · have h0 := x.gain_add_residueAfter n
    have r0 := x.residueAfter_natAbs n
    have hn2 : (n : Int) ≤ B / A := by omega
    have : (n : Int) * A ≤ B / A * A := Int.mul_le_mul_of_nonneg_right hn2 (le_of_lt hpos)
    rw [hA, Int.mul_comm A] at h0
    omega

/-- `TimeBase.periodsToGain` is the first number of periods, from 1 on, after which `d` ns have been gained. -/
theorem TimeBase.periodsToGain_spec {x : TimeBase} (h : x.counts) (d : Int) :
    d ≤ x.gain (x.periodsToGain d) ∧ 1 ≤ x.periodsToGain d ∧ ∀ n, 1 ≤ n → n < x.periodsToGain d → x.gain n < d := by
  unfold TimeBase.periodsToGain
  dsimp only
  generalize hc : max 1 (((d - 1) * 1000000000 - x.residue) / (10000000000 + x.slope) + 1).toNat = c
  obtain ⟨hge, hlt⟩ := TimeBase.estimate h hc.symm
  have h1 : 1 ≤ c := hc ▸ le_max_left ..
  have hsucc := x.gain_succ h c
  split
  · exact ⟨‹_›, h1, hlt⟩
  · rename_i hno
    rw [if_pos (by omega)]
    refine ⟨by omega, by omega, fun n hn hn2 => ?_⟩
    rcases Nat.lt_succ_iff_lt_or_eq.mp hn2 with hl | rfl
    · exact hlt n hn hl
    · exact not_le.mp hno

theorem TimeBase.gain_periodsToGain_le {x : TimeBase} (h : x.counts) {d : Int} (hd : 0 < d) :
    x.gain (x.periodsToGain d) ≤ d + 12 := by
  obtain ⟨-, h1, hlt⟩ := x.periodsToGain_spec h d
  obtain ⟨m, hm⟩ : ∃ m, x.periodsToGain d = m + 1 := ⟨_, (Nat.sub_add_cancel h1).symm⟩
  have hsucc := (x.gain_succ h m).2
  rw [hm] at hlt ⊢
  rcases Nat.eq_zero_or_pos m with rfl | hpos
  · have := x.gain_zero h
    omega
  · have := hlt m hpos (Nat.lt_succ_self m)
    omega

/-- R114: `a` periods and then `b` are `a + b` periods. -/
theorem TimeBase.gain_add {x y : TimeBase} (h : x.counts) (a b : Nat) (ht : y.trim = x.trim)
    (hr : y.residue = x.residueAfter a) :
    x.gain (a + b) = x.gain a + y.gain b ∧ x.residueAfter (a + b) = y.residueAfter b := by
  have ha := x.gain_add_residueAfter a
  have hb := y.gain_add_residueAfter b
  have hab := x.gain_add_residueAfter (a + b)
  have ra : _ ∧ _ := abs_lt.mp (Int.abs_eq_natAbs _ ▸ Int.ofNat_lt.mpr (x.residueAfter_natAbs a))
  have rb : _ ∧ _ := abs_lt.mp (Int.abs_eq_natAbs _ ▸ Int.ofNat_lt.mpr (y.residueAfter_natAbs b))
  have rab : _ ∧ _ := abs_lt.mp (Int.abs_eq_natAbs _ ▸ Int.ofNat_lt.mpr (x.residueAfter_natAbs (a + b)))
  obtain ⟨sa, sa'⟩ := x.residueAfter_sign a
  obtain ⟨sb, sb'⟩ := y.residueAfter_sign b
  obtain ⟨sab, sab'⟩ := x.residueAfter_sign (a + b)
  have hs : y.slope = x.slope := by unfold TimeBase.slope; rw [ht]
  obtain ⟨hx, -⟩ := h
  rw [hs, hr] at hb sb sb'
  have hm : x.slope * ((a + b : Nat) : Int) = x.slope * (a : Int) + x.slope * b := by
    push_cast
    ring
  simp only [Int.add_mul, hm] at ha hb hab sa sa' sb sb' sab sab'
  rcases Int.le_total 0 x.slope with hp | hp
  · have h1 : 0 ≤ x.slope * (a : Int) := mul_nonneg hp (Int.natCast_nonneg a)
    have h2 : 0 ≤ x.slope * (b : Int) := mul_nonneg hp (Int.natCast_nonneg b)
    rcases Int.le_total 0 (x.residue + x.slope * a) with hc | hc
    · have := sa hc
      have := sb (by omega)
      have := sab (by omega)
      omega
    · have := sa' hc
      have hr : x.residueAfter a = x.residue + x.slope * a := by omega
      rw [hr, Int.add_assoc] at sb sb'
      rcases Int.le_total 0 (x.residue + (x.slope * a + x.slope * b)) with hd | hd
      · have := sb hd
        have := sab hd
        omega
      · have := sb' hd
        have := sab' hd
        omega
  · have h1 : x.slope * (a : Int) ≤ 0 := mul_nonpos_of_nonpos_of_nonneg hp (Int.natCast_nonneg a)
    have h2 : x.slope * (b : Int) ≤ 0 := mul_nonpos_of_nonpos_of_nonneg hp (Int.natCast_nonneg b)
    rcases Int.le_total (x.residue + x.slope * a) 0 with hc | hc
    · have := sa' hc
      have := sb' (by omega)
      have := sab' (by omega)
      omega
    · have := sa hc
      have hr : x.residueAfter a = x.residue + x.slope * a := by omega
      rw [hr, Int.add_assoc] at sb sb'
      rcases Int.le_total 0 (x.residue + (x.slope * a + x.slope * b)) with hd | hd
      · have := sb hd
        have := sab hd
        omega
      · have := sb' hd
        have := sab' hd
        omega

end Sys2Proof.Machine
end

section
/-! SUPPORT. The work of the time base, of the cycle engine's polls and of the slot manager, as chains of changes. -/

namespace Sys2Proof.Machine

open Sys2Proof

variable {s t u : State} {G : Prop}

/-! ## The passing of oscillator time (R114, R115, R144) -/

theorem State.nextEvent_le (s : State) : s.nextEvent ≤ s.time.periodsToGain ((Config.second : Int) - s.time.ns) := by
  unfold State.nextEvent
  dsimp only
  split
  · exact min_le_left _ _
  · exact le_rfl

/-- R114: a run of periods takes cabinet time past the next second by a few ns at most. -/
theorem TimeBase.glide_lt {x : TimeBase} (h : x.inRange) {k : Nat}
    (hk : k ≤ max 1 (x.periodsToGain ((Config.second : Int) - x.ns))) :
    (x.ns + x.gain k).toNat < 2 * Config.second := by
  have hc := h.counts
  obtain ⟨hns, -⟩ := h
  have hns' : (x.ns : Int) < Config.second := Int.ofNat_lt.mpr hns
  have hp := x.periodsToGain_spec hc ((Config.second : Int) - x.ns)
  have h1 := x.gain_periodsToGain_le hc (d := (Config.second : Int) - x.ns) (by omega)
  have h2 := x.gain_mono hc (n := k) (m := x.periodsToGain ((Config.second : Int) - x.ns)) (by omega)
  unfold Config.second at *
  omega

theorem TimeBase.inRange.glide {x : TimeBase} (h : x.inRange) (n : Nat) {m : Nat} (hm : m < 1000000000) :
    { x with ns := m, residue := x.residueAfter n }.inRange := by
  obtain ⟨-, -, htrim, hint, hsec, hmark, hset⟩ := h
  exact ⟨hm, x.residueAfter_natAbs n, htrim, hint, hsec, hmark, hset⟩

/-- The time itself within its range, the rest as it was. -/
theorem TimeBase.inRange.setTime {x : TimeBase} (h : x.inRange) {ns sec : Nat} (hns : ns < 1000000000)
    (hsec : sec < 4294967296) : { x with ns := ns, sec := sec }.inRange := by
  obtain ⟨-, hres, htrim, hint, -, hmark, hset⟩ := h
  exact ⟨hns, hres, htrim, hint, hsec, hmark, hset⟩

/-- R114: cabinet time glides, to `m` ns within the second. -/
theorem State.glide_calm {k m : Nat} (h : s.time.inRange → m < 1000000000) :
    Calm s { s.glide k with time := { (s.glide k).time with ns := m } } :=
  .glide (s.osc + k) { s.time with ns := m, residue := s.time.residueAfter k } (-s.time.gain k) (fun hr => hr.glide k (h hr)) rfl

theorem State.glideCarry_changes {k : Nat} (hk : k ≤ max 1 s.nextEvent) : Changes G s (s.glide k).carry := by
  have hlt (h : s.time.inRange) : (s.glide k).time.ns < 2 * Config.second :=
    TimeBase.glide_lt h (hk.trans (max_le_max le_rfl s.nextEvent_le))
  unfold State.carry
  split
  · refine (Change.calm (State.glide_calm fun h => ?_)).one.trans (State.rollover_changes _)
    have := hlt h
    unfold Config.second at *
    omega
  · rename_i hno
    exact .single (.calm (State.glide_calm fun _ => not_le.mp hno))

theorem State.fillCommand_nextEvent (s : State) : s.fillCommand.nextEvent = s.nextEvent := by
  unfold State.fillCommand
  (repeat' split) <;> rfl

theorem State.stretch_changes {k : Nat} (hk : k ≤ max 1 s.nextEvent) : Changes G s (s.stretch k) := by
  have h1 : Changes G s.fillCommand (s.fillCommand.glide k).carry :=
    State.glideCarry_changes (s.fillCommand_nextEvent.symm ▸ hk)
  exact (Calms.changes s.fillCommand_calm).trans (h1.trans (Calms.changes ((State.boundaryElapsed_calm _).trans
    (State.fillCommand_calm _))))

theorem State.runOsc_changes (fuel : Nat) (s : State) (n : Nat) : Changes G s (s.runOsc fuel n) := by
  induction fuel generalizing s n with
  | zero => exact .refl
  | succ fuel ih =>
    unfold State.runOsc
    split
    · exact .refl
    · exact (State.stretch_changes (min_le_right _ _)).trans (ih _ _)

theorem State.advance_changes (s : State) (n : Nat) : Changes G s (s.advance n) := s.runOsc_changes n n

theorem State.advanceTo_changes (s : State) (t : Nat) : Changes G s (s.advanceTo t) := s.advance_changes _

/-! ## References, steps and the loop (R119 to R127) -/

theorem State.disqualifySlot_changes (s : State) (i : Slot) : Changes G s (s.disqualifySlot i) :=
  State.putTime_changes fun h => (TimeBase.inRange.of_clock h rfl rfl rfl rfl rfl rfl rfl : (s.time.disqualifySlot i).inRange).rejudge

theorem State.timeStep_changes {e : Int} (he : s.time.inRange → e.natAbs ≤ 500000000) : Changes G s (s.timeStep e) := by
  unfold State.timeStep
  dsimp only
  have hns (h : s.time.inRange) : s.time.ns < 1000000000 ∧ e.natAbs ≤ 500000000 := ⟨h.1, he h⟩
  refine Relation.ReflTransGen.trans ?_ (Calms.changes (State.boundaryStep_calm _ e))
  have hsec (h : s.time.inRange) : s.time.sec < 4294967296 := h.2.2.2.2.1
  split
  · refine (State.putTime_changes fun h => TimeBase.inRange.turn ?_ _).trans (Calms.changes (.single (.snapshot _ _)))
    exact h.stepped.setTime (by have := hns h; omega) (hsec h)
  · split
    · refine (State.putTime_changes fun h => ?_).trans (Calms.changes (.single (.snapshot _ _)))
      exact h.stepped.setTime (by have := hns h; omega) (Nat.mod_lt _ (by decide))
    · exact State.putTime_changes fun h => h.stepped.setTime (by have := hns h; omega) (hsec h)

theorem phaseError_natAbs {n : Nat} (h : n < 1000000000) : (phaseError n).natAbs ≤ 500000000 := by
  unfold phaseError
  split <;> omega

theorem refReading_lt (ns d : Nat) : refReading ns d < 1000000000 := by
  unfold refReading
  omega

/-! The time base is as it was set: the deliveries of a quality do not touch it. -/

theorem foldl_time {α : Type} {f : State → α → State} (h : ∀ s x, (f s x).time = s.time) (l : List α) (s : State) :
    (l.foldl f s).time = s.time := by
  induction l generalizing s with
  | nil => rfl
  | cons x l ih => exact (ih _).trans (h s x)

@[simp] theorem State.reportStart_time (s : State) (f : CtlFrame) : (s.reportStart f).time = s.time := by
  unfold State.reportStart
  (repeat' split) <;> rfl

@[simp] theorem State.kickLane_time (s : State) (i : Slot) (p : Plane) : (s.kickLane i p).time = s.time := by
  unfold State.kickLane
  dsimp only
  (repeat' split) <;> simp [State.startData]

@[simp] theorem State.dropClaim_time (s : State) (id : Nat) : (s.dropClaim id).time = s.time := by
  unfold State.dropClaim
  dsimp only
  (repeat' split) <;> rfl

@[simp] theorem State.roomReport_time (s : State) : s.roomReport.time = s.time := rfl

theorem State.emptyQueue_time (i : Slot) (s : State) (c : Cls) : (State.emptyQueue i s c).time = s.time := by
  unfold State.emptyQueue
  dsimp only
  split
  · rfl
  · rw [State.roomReport_time, State.setSw_time]
    refine foldl_time (fun s p => ?_) _ s
    unfold State.abandonTx
    dsimp only
    (repeat' split) <;> simp

@[simp] theorem State.flush_time (s : State) (i : Slot) (cs : List Cls) : (s.flush i cs).time = s.time := by
  unfold State.flush State.kickSlot
  rw [State.kickLane_time, State.kickLane_time]
  exact foldl_time (fun s c => State.emptyQueue_time i s c) cs s

@[simp] theorem State.takeQuality_time (s : State) (q : Nat) : (s.takeQuality q).time = s.time := by
  refine foldl_time (fun s i => ?_) _ _
  split
  · exact State.flush_time ..
  · rfl

@[simp] theorem State.putTime_time (s : State) (x : TimeBase) : (s.putTime x).time = x := by
  unfold State.putTime
  dsimp only
  split
  · rfl
  · exact State.takeQuality_time ..

theorem TimeBase.offer_ns (x : TimeBase) (takes : RefEntry → Bool) (at_ : Nat) : (x.offer takes at_).ns = x.ns := by
  have hfold (l : List (Fin 4)) (y : TimeBase) : (l.foldl (fun (t : TimeBase) k =>
      let r := vget t.refs k
      if r.cfg.enabled && takes r then
        let j := r.judge at_
        let t1 := t.setRef k j.1
        if j.2 then { t1 with intervalRejects := inc32 t.intervalRejects } else t1
      else t) y).ns = y.ns := by
    induction l generalizing y with
    | nil => rfl
    | cons k l ih =>
      refine (ih _).trans ?_
      dsimp only
      (repeat' split) <;> rfl
  have hrej (y : TimeBase) : (x.rejudge y).ns = y.ns := by
    unfold TimeBase.rejudge TimeBase.reselect
    (repeat' split) <;> rfl
  exact (hrej _).trans (hfold _ x)

theorem State.loop_changes {n : Nat} (h : s.time.inRange → n < 1000000000) : Changes G s (s.loop n) := by
  unfold State.loop
  dsimp only
  have h1 : Changes G s (s.putTime { s.time with lastError := phaseError n }) :=
    State.putTime_changes fun h => h.of_clock rfl rfl rfl rfl rfl rfl rfl
  refine h1.trans ?_
  split
  · refine State.timeStep_changes fun hr => phaseError_natAbs (h ?_)
    rw [State.putTime_time] at hr
    exact hr.of_clock rfl rfl rfl rfl rfl rfl rfl
  · exact State.putTime_changes fun h => (h.correct _).countLock _

theorem State.ppsEdge_changes (s : State) : Changes G s s.ppsEdge := by
  unfold State.ppsEdge
  dsimp only
  have h1 : Changes G s (s.putTime (s.time.offer (fun r => r.cfg.kind == .ppsInput) s.osc)) :=
    State.putTime_changes fun h => h.offer _ _
  refine h1.trans ?_
  split
  · refine State.loop_changes fun h => ?_
    rw [State.putTime_time] at h
    exact s.time.offer_ns (fun r => r.cfg.kind == .ppsInput) s.osc ▸ h.1
  · exact .refl

theorem State.refArrival_changes (s : State) (i : Slot) (st : Stamp) : Changes G s (s.refArrival i st) := by
  unfold State.refArrival
  dsimp only
  split
  · exact .refl
  · split
    · exact .single (.calm (.clock _ (fun h => h.of_clock rfl rfl rfl rfl rfl rfl rfl) rfl))
    · have h1 : Changes G s (s.putTime (s.time.offer (fun r => r.names i) st.osc)) := State.putTime_changes fun h => h.offer _ _
      refine h1.trans ?_
      split
      · split
        · exact .single (.calm (.clock _ (fun h => h.of_clock rfl rfl rfl rfl rfl rfl rfl) rfl))
        · exact State.loop_changes fun _ => refReading_lt _ _
      · exact .refl

theorem State.setTimeOp_changes (s : State) (v : Word) : Changes G s (s.setTimeOp v) := by
  refine .single (.calm (.clock _ (fun h => ?_) rfl))
  obtain ⟨hns, hres, htrim, hint, hsec, hmark, -⟩ := h
  exact ⟨hns, hres, htrim, hint, hsec, hmark, fun w hw => Option.some.inj hw ▸ v.isLt⟩

theorem State.setDisciplineOp_changes (s : State) (ps : List Word) : Changes G s (s.setDisciplineOp ps).1 :=
  State.putTime_changes fun h => h.of_clock rfl rfl rfl rfl rfl rfl rfl

end Sys2Proof.Machine
end

section
/-! SUPPORT. The polls of the cycle engine and the slot manager's moves, as chains of changes. -/

namespace Sys2Proof.Machine

open Sys2Proof

variable {s t u : State} {G : Prop}

/-! ## Changes of a slot that keep its state (R77, R154) -/

theorem State.changeSlot_changes {i : Slot} {new : SlotEntry} (hcfg : new.cfg = (s.slot i).cfg)
    (hst : new.state = (s.slot i).state) : Changes G s (s.changeSlot i new) := by
  have h : s.reseat i new = s.changeSlot i new := by
    unfold State.reseat
    rw [if_neg]
    simp [hst]
  exact h ▸ .single (.reseat i new hcfg (.inr (.inr (.inl hst))))

theorem SlotEntry.setDelay_cfg (e : SlotEntry) (p : Plane) (d : Delay) : (e.setDelay p d).cfg = e.cfg := by
  cases p <;> rfl

theorem Sampling.attempts_cfg (up : Plane → Bool) (log : List AttemptRec) (g : Sampling) :
    (log.foldl (Sampling.attempt up) g).entry.cfg = g.entry.cfg := by
  induction log generalizing g with
  | nil => rfl
  | cons a log ih =>
    refine (ih _).trans ?_
    unfold Sampling.attempt
    (repeat' split) <;> simp [SlotEntry.setDelay_cfg]

theorem SlotEntry.judged_cfg (e : SlotEntry) (up : Plane → Bool) (log : List AttemptRec) (final : AttemptOutcome) :
    ((e.judgePlane up log).judgeMiss final).cfg = e.cfg := by
  have h1 : (e.judgePlane up log).cfg = e.cfg := by
    unfold SlotEntry.judgePlane
    (repeat' split) <;> rfl
  refine Eq.trans ?_ h1
  unfold SlotEntry.judgeMiss
  dsimp only
  (repeat' split) <;> rfl

theorem State.takePoll_changes (s : State) (i : Slot) (log : List AttemptRec) (final : AttemptOutcome) :
    Changes G s (s.takePoll i log final).1 := by
  unfold State.takePoll
  extract_lets up g e t
  refine (Change.calm (.manager s.sm.q0Limit _)).one.trans (State.changeSlot_changes ?_ ?_)
  · exact (g.entry.judged_cfg up log final).trans (Sampling.attempts_cfg up log _)
  · obtain ⟨hst, -⟩ := Sampling.attempts_power up log { entry := s.slot i, discarded := 0, last := none }
    obtain ⟨hst1, -⟩ := g.entry.judgePlane_power up log
    obtain ⟨hst2, -⟩ := (g.entry.judgePlane up log).judgeMiss_power final
    exact hst2.trans (hst1.trans hst)

/-! ## Polls (R145 to R149) -/

theorem State.pollResult_calm (s : State) (a : Addr) (ws : List Word) (w : PollWork) (final : AttemptOutcome)
    (r : Option Nat) : Calms s (s.pollResult a ws w final r) := by
  unfold State.pollResult
  dsimp only
  exact (Calm.cyc _ (by exact fun _ h => h)).one.trans (State.endEntry_calm ..)

theorem State.pollFinish_changes {a : Addr} {ws : List Word} {w : PollWork} {final : AttemptOutcome}
    (h : final.isSuccess = true → G → (s.slot w.slot).state = .admitted) : Changes G s (s.pollFinish a ws w final) := by
  unfold State.pollFinish
  dsimp only
  refine (s.takePoll_changes w.slot w.log final).trans (Relation.ReflTransGen.trans ?_ (Calms.changes (State.pollResult_calm ..)))
  split
  · refine State.observeCard_changes (fun hg => ?_) _ _
    rw [State.state_of_power (State.takePoll_power ..)]
    exact h rfl hg
  · exact .refl

/-- R145: an attempt begins for a slot in ADMITTED. -/
theorem State.beginAttempt_changes {a : Addr} {ws : List Word} {w : PollWork} (n g : Nat) (k : CycleCounters)
    (h : (s.slot w.slot).state = .admitted) :
    Changes G s ({ s with cyc := { s.cyc with pollNumber := n, tag := g, counters := k } }.setPoll a ws w) := by
  have hq := State.setCyc_quiet (s := s) (c := { s.cyc with
    pollNumber := n, tag := g, counters := k, entry := some ⟨a, .run ws (.poll w)⟩ }) rfl
  have hc := Change.attempt (G := G) (s := s) { s.cyc with
      pollNumber := n, tag := g, counters := k, entry := some ⟨a, .run ws (.poll w)⟩ } fun i hi => .inl (by
    simp only [CycleEngine.attempt?] at hi
    split at hi
    · exact ‹w.slot = i› ▸ h
    · cases hi)
  rw [hq] at hc
  exact .single hc

theorem State.pollGo_changes (fuel : Nat) (s : State) (a : Addr) (ws : List Word) (w : PollWork) :
    Changes G s (State.pollGo fuel s a ws w) := by
  induction fuel generalizing s w with
  | zero => exact .refl
  | succ fuel ih =>
    unfold State.pollGo
    split
    · exact Calms.changes (State.pollResult_calm ..)
    · rename_i hadm
      dsimp only
      have h1 := (State.beginAttempt_changes (G := G) (a := a) (ws := ws)
        (w := w.begin (w.nextPlane (s.slot w.slot).active) s.cyc.pollNumber s.cyc.tag) ((s.cyc.pollNumber + 1) % 65536)
        (s.cyc.tag + 1) { s.cyc.counters with attempts := inc32 s.cyc.counters.attempts } (not_not.mp hadm))
      refine h1.trans ((Calms.changes (State.submit_calm _ w.slot (w.nextPlane (s.slot w.slot).active)
        { kind := .poll s.cyc.pollNumber, sender := .cycle s.cyc.tag })).trans ?_)
      split
      · exact .refl
      · split
        · exact ih _ _
        · exact State.pollFinish_changes fun h => by cases h

theorem State.attemptEnds_changes {o : AttemptOutcome} (h : o.isSuccess = true → G → s.pollsFollow) :
    Changes G s (s.attemptEnds o) := by
  unfold State.attemptEnds
  split
  · rename_i a ws w hrun
    split
    · rename_i c hc
      dsimp only
      split
      · exact State.pollGo_changes ..
      · refine State.pollFinish_changes fun ho hg => h ho hg w.slot ?_
        unfold State.attemptOf
        rw [hrun]
        simp [hc]
    · exact .refl
  · exact .refl

theorem State.attemptFails_changes (s : State) {o : AttemptOutcome} (h : o.isSuccess = false) :
    Changes G s (s.attemptEnds o) := State.attemptEnds_changes fun ho => by rw [h] at ho; cases ho

theorem State.pollLeaves_changes (s : State) (i : Slot) : Changes G s (s.pollLeaves i) := by
  unfold State.pollLeaves
  split
  · split
    · exact Calms.changes (State.pollResult_calm ..)
    · exact .refl
  · exact .refl

theorem State.pollFailedFrame_changes (s : State) (i : Slot) (p : Plane) : Changes G s (s.pollFailedFrame i p) := by
  unfold State.pollFailedFrame
  split
  · split
    · exact s.attemptFails_changes rfl
    · exact .refl
  · exact .refl

theorem State.pollLaneDown_changes (s : State) (i : Slot) (p : Plane) : Changes G s (s.pollLaneDown i p) := by
  unfold State.pollLaneDown
  split
  · split
    · exact s.attemptFails_changes rfl
    · exact .refl
  · exact .refl

theorem State.takeStatus_changes {i : Slot} {p : Plane} {payload : List Byte} {t4 : Stamp} (h : G → s.pollsFollow) :
    Changes G s (s.takeStatus i p payload t4) := by
  have hstray (k : CycleCounters) : Changes G s { s with cyc := { s.cyc with counters := k } } :=
    .single (.calm (.quietCyc _ rfl fun _ h => h))
  unfold State.takeStatus
  dsimp only
  split
  · split
    · exact State.attemptEnds_changes fun _ => h
    · exact hstray _
  · exact hstray _

theorem State.pollTimeout_changes (s : State) : Changes G s s.pollTimeout := by
  unfold State.pollTimeout
  split
  · split
    · split
      · exact s.attemptFails_changes rfl
      · exact .refl
    · exact .refl
  · exact .refl

/-! ## TIME sends and reports (R151, R49, R51) -/

theorem State.timeJudge_calm (s : State) (a : Addr) (ws : List Word) (w : TimeWork) : Calms s (s.timeJudge a ws w) := by
  unfold State.timeJudge
  split
  · exact State.endEntry_calm ..
  · exact .single (.leavesEntry _ fun _ => rfl)

theorem State.countTimeNotSent_calm (s : State) : Calms s s.countTimeNotSent := .single (.quietCyc _ rfl fun _ h => h)

theorem State.timeSubmit_calm (choice : PlaneChoice) (x : State × TimeWork) (i : Slot) :
    Calms x.1 (State.timeSubmit choice x i).1 := by
  unfold State.timeSubmit
  extract_lets p r
  have hr : Calms x.1 r.1 := State.submit_calm ..
  by_cases hq : r.2 = true
  · rw [if_pos hq]
    exact hr
  · rw [if_neg hq]
    exact hr.trans (State.countTimeNotSent_calm _)

theorem State.timeSubmits_calm (choice : PlaneChoice) (l : List Slot) (x : State × TimeWork) :
    Calms x.1 (l.foldl (State.timeSubmit choice) x).1 := by
  induction l generalizing x with
  | nil => exact .refl
  | cons i l ih => exact (State.timeSubmit_calm choice x i).trans (ih _)

theorem State.timeRun_calm (s : State) (a : Addr) (ws : List Word) (target : Nat) (choice : PlaneChoice) :
    Calms s (s.timeRun a ws target choice) := by
  unfold State.timeRun
  extract_lets targets w c s1
  have h1 : Calms s s1 := .single (.quietCyc _ rfl fun _ h => h)
  refine h1.trans ?_
  split
  · exact State.endEntry_calm ..
  · exact (State.timeSubmits_calm choice targets (s1, w)).trans (State.timeJudge_calm ..)

theorem State.reportControl_changes (s : State) (sent : Bool) (f : CtlFrame) : Changes G s (s.reportControl sent f) := by
  unfold State.reportControl
  split
  · exact .refl
  · split
    · rename_i a ws w he
      split
      · rename_i c hc
        split
        · split
          · refine .single (.calm (.quietCyc _ rfl fun i hi => ?_))
            simp only [CycleEngine.attempt?, he] at hi ⊢
            split at hi
            · rename_i hw
              have hw' : w.slot = i := hw
              rw [if_pos hw', hc]
              rfl
            · cases hi
          · exact s.attemptFails_changes rfl
        · exact .refl
      · exact .refl
    · split
      · dsimp only
        refine Calms.changes (Relation.ReflTransGen.trans ?_ (State.timeJudge_calm ..))
        split
        · exact .refl
        · exact s.countTimeNotSent_calm
      · exact .refl
    · exact .refl

theorem State.reportUnsent_changes (s : State) (fs : List CtlFrame) : Changes G s (s.reportUnsent fs) :=
  foldl_chain (fun s f => s.reportControl_changes false f) fs s

/-! ## Lane enables (R39) -/

theorem SlotEntry.recordLane_service (e : SlotEntry) (p : Plane) (st : LaneState) : (e.recordLane p st).service = e.service := by
  unfold SlotEntry.recordLane
  cases p <;> dsimp only <;> split <;> rfl

theorem State.laneOff_changes (i : Slot) (s : State) (p : Plane) : Changes G s (State.laneOff i s p) := by
  unfold State.laneOff
  extract_lets l fs t l' u
  have ht : Calms s t := by
    unfold t
    split
    · exact s.leaveUp_calm ..
    · exact .refl
  have hu : Calms s u := ht.trans (.single (.lane i p _))
  exact (Calms.changes (hu.trans (.single (.entry i _ (SlotEntry.recordLane_service ..))))).trans (State.reportUnsent_changes _ _)

theorem State.laneOn_calm (i : Slot) (s : State) (p : Plane) : Calms s (State.laneOn i s p) := by
  unfold State.laneOn
  dsimp only
  split
  · exact (Calm.lane i p _).one.trans (.single (.entry i _ (SlotEntry.recordLane_service ..)))
  · exact .single (.lane i p _)

theorem State.followEnable_changes (s : State) (i : Slot) (was : SlotState) : Changes G s (s.followEnable i was) := by
  unfold State.followEnable
  dsimp only
  split
  · exact .refl
  · split
    · exact Calms.changes (foldl_chain (fun s p => State.laneOn_calm i s p) _ s)
    · exact foldl_chain (fun s p => State.laneOff_changes i s p) _ s

/-! ## Moves (R77, R39) -/

theorem State.moveSlot_changes {i : Slot} {new : SlotEntry} (hcfg : new.cfg = (s.slot i).cfg)
    (hst : new.state = .empty ∨ new.state = .seated ∨ new.state = (s.slot i).state ∨ s.seats i) :
    Changes G s (s.moveSlot i new) :=
  (Change.one (.reseat i new hcfg hst)).trans (State.followEnable_changes (s.reseat i new) i (s.slot i).state)

theorem SlotEntry.enter_cfg (e : SlotEntry) (st : SlotState) (osc : Nat) : (e.enter st osc).cfg = e.cfg := by
  unfold SlotEntry.enter
  dsimp only
  (repeat' split) <;> rfl

theorem SlotEntry.enter_state (e : SlotEntry) (st : SlotState) (osc : Nat) : (e.enter st osc).state = st := rfl

theorem State.enterSlot_changes {i : Slot} {st : SlotState} {f : SlotEntry → SlotEntry}
    (hf : (f (s.slot i)).cfg = (s.slot i).cfg) (hst : st = .empty ∨ st = .seated ∨ s.seats i) :
    Changes G s (s.enterSlot i st f) := by
  refine State.moveSlot_changes ((SlotEntry.enter_cfg ..).trans hf) ?_
  rw [SlotEntry.enter_state]
  obtain h | h | h := hst
  · exact .inl h
  · exact .inr (.inl h)
  · exact .inr (.inr (.inr h))

theorem State.setSlot_state (s : State) (i : Slot) (e : SlotEntry) (j : Slot) :
    ((s.setSlot i e).slot j).state = if j = i then e.state else (s.slot j).state := by
  unfold State.setSlot State.slot
  by_cases h : j = i
  · subst h
    rw [if_pos rfl]
    exact congrArg SlotEntry.state (vget_vset_self ..)
  · rw [if_neg h]
    exact congrArg SlotEntry.state (vget_vset_ne _ _ (Ne.symm h))

theorem State.changeSlot_state (s : State) (i : Slot) (new : SlotEntry) (j : Slot) :
    ((s.changeSlot i new).slot j).state = if j = i then new.state else (s.slot j).state :=
  (State.state_of_power (s.changeSlot_power i new) j).trans (s.setSlot_state i new j)

theorem State.reseat_state (s : State) (i : Slot) (new : SlotEntry) (j : Slot) :
    ((s.reseat i new).slot j).state = if j = i then new.state else (s.slot j).state := by
  unfold State.reseat
  split
  · rw [State.state_of_power (State.pollLeaves_power ..)]
    exact s.changeSlot_state i new j
  · exact s.changeSlot_state i new j

theorem State.followEnable_state (s : State) (i : Slot) (was : SlotState) (j : Slot) :
    ((s.followEnable i was).slot j).state = (s.slot j).state := by
  have hone (s : State) (x : SlotPower) (hx : x.state = (s.power i).state) (u : State)
      (hu : u.power = Function.update s.power i x) : (u.slot j).state = (s.slot j).state := by
    change (u.power j).state = (s.power j).state
    rw [hu]
    by_cases h : j = i
    · subst h
      rw [Function.update_self, hx]
    · rw [Function.update_of_ne h]
  have hon (s : State) (p : Plane) : ((State.laneOn i s p).slot j).state = (s.slot j).state :=
    hone s ((s.power i).withLane p (.follow true)) (by cases p <;> rfl) _ (State.laneOn_power i s p)
  have hoff (s : State) (p : Plane) : ((State.laneOff i s p).slot j).state = (s.slot j).state :=
    hone s ((s.power i).withLane p (.follow false)) (by cases p <;> rfl) _ (State.laneOff_power i s p)
  unfold State.followEnable
  dsimp only [List.foldl]
  split
  · rfl
  · split
    · rw [hon, hon]
    · rw [hoff, hoff]

theorem State.moveSlot_state (s : State) (i : Slot) (new : SlotEntry) (j : Slot) :
    ((s.moveSlot i new).slot j).state = if j = i then new.state else (s.slot j).state :=
  (State.followEnable_state (s.reseat i new) i (s.slot i).state j).trans (s.reseat_state i new j)

theorem State.enterSlot_state (s : State) (i : Slot) (st : SlotState) (f : SlotEntry → SlotEntry) (j : Slot) :
    ((s.enterSlot i st f).slot j).state = if j = i then st else (s.slot j).state := s.moveSlot_state i _ j

end Sys2Proof.Machine
end

section
/-! SUPPORT. The slot manager's rows, the frames delivered, and the table records, as chains of changes. -/

namespace Sys2Proof.Machine

open Sys2Proof

variable {s t u : State} {G : Prop}

/-! ## Slots that may leave SEATED -/

theorem State.seats_of_state {i : Slot} {st : SlotState} (h : (s.slot i).state = st)
    (hst : (st ≠ .empty ∧ st ≠ .seated) := by decide) : s.seats i := .inl (h ▸ hst)

theorem State.enterSlot_self (s : State) (i : Slot) (st : SlotState) (f : SlotEntry → SlotEntry) :
    ((s.enterSlot i st f).slot i).state = st := by
  rw [State.enterSlot_state, if_pos rfl]

theorem State.mayPower_seats {i : Slot} (h : s.mayPower i = true) : s.seats i := by
  simp only [State.mayPower, Bool.and_eq_true] at h
  obtain ⟨⟨hhub, -⟩, -⟩ := h
  exact .inr hhub

/-! ## Moves (4.3, 4.6, 4.7) -/

theorem State.enterTraining_changes {i : Slot} (h : s.seats i) : Changes G s (s.enterTraining i) :=
  State.enterSlot_changes rfl (.inr (.inr h))

theorem State.enterPowering_changes {i : Slot} {f : SlotEntry → SlotEntry} (hf : (f (s.slot i)).cfg = (s.slot i).cfg)
    (h : s.seats i) : Changes G s (s.enterPowering i f) := by
  have h1 : Changes G s (s.enterSlot i .powering f) := State.enterSlot_changes hf (.inr (.inr h))
  unfold State.enterPowering
  dsimp only
  split
  · exact h1.trans (State.enterTraining_changes (State.seats_of_state (State.enterSlot_self ..)))
  · exact h1

theorem State.judgeSeated_changes (s : State) (i : Slot) : Changes G s (s.judgeSeated i) := by
  unfold State.judgeSeated
  split
  · rename_i h
    simp only [Bool.and_eq_true] at h
    exact State.enterPowering_changes rfl (State.mayPower_seats h.2)
  · exact .refl

theorem State.judgeAllSeated_changes (s : State) : Changes G s s.judgeAllSeated :=
  foldl_chain State.judgeSeated_changes _ s

theorem State.enterSeated_changes {i : Slot} {f : SlotEntry → SlotEntry} (hf : (f (s.slot i)).cfg = (s.slot i).cfg) :
    Changes G s (s.enterSeated i f) :=
  (State.enterSlot_changes hf (.inr (.inl rfl))).trans (State.judgeSeated_changes _ i)

theorem State.enterFaulted_changes {i : Slot} {r : FailReason} (h : s.seats i) : Changes G s (s.enterFaulted i r) :=
  State.enterSlot_changes rfl (.inr (.inr h))

theorem State.overtake_calm (s : State) (i : Slot) (t : State) (p : Plane) : Calms t (s.overtake i t p) := by
  unfold State.overtake
  split
  · split
    · exact .single (.lane i p _)
    · exact .refl
  · exact .refl

theorem State.identExpired_changes {i : Slot} (h : s.seats i) : Changes G s (s.identExpired i) :=
  (State.enterFaulted_changes h).trans (Calms.changes (foldl_chain (fun t p => s.overtake_calm i t p) _ _))

theorem State.enterDraining_changes {i : Slot} {c : DrainCause} (h : s.seats i) : Changes G s (s.enterDraining i c) :=
  State.enterSlot_changes rfl (.inr (.inr h))

theorem State.endDrain_changes {i : Slot} (h : s.seats i) : Changes G s (s.endDrain i) := by
  unfold State.endDrain
  split
  · exact State.enterSlot_changes rfl (.inr (.inr h))
  · exact State.enterSeated_changes rfl

/-! ## Pins (R61, R63, R68, R72) -/

theorem State.presenceOn_calm (s : State) (i : Slot) : Calms s (s.presenceOn i) := by
  unfold State.presenceOn
  dsimp only
  split <;> exact .single (.pins i _ rfl rfl)

theorem State.presenceOff_changes (s : State) (i : Slot) : Changes G s (s.presenceOff i) := by
  have h1 : Changes G s (s.setSlot i { s.slot i with pres := false }) := .single (.calm (.pins i _ rfl rfl))
  unfold State.presenceOff
  dsimp only
  split
  · refine h1.trans (.single (.calm (.pins i _ ?_ ?_)))
    · rw [State.slot_setSlot_self]
      rfl
    · rw [State.slot_setSlot_self]
  · refine h1.trans (Relation.ReflTransGen.trans ?_ (State.enterSlot_changes rfl (.inl rfl)))
    split
    · exact Calms.changes (State.markSurprise_calm _ i)
    · exact .refl

theorem State.latchOn_changes (s : State) (i : Slot) : Changes G s (s.latchOn i) := by
  have h1 : Changes G s (s.setSlot i { s.slot i with latch := true }) := .single (.calm (.pins i _ rfl rfl))
  unfold State.latchOn
  dsimp only
  split
  · exact h1.trans (State.enterSeated_changes rfl)
  · exact h1.trans (State.judgeSeated_changes _ i)
  · exact h1

/-- A pin's level recorded leaves the slot's state. -/
theorem State.setSlot_seats {i : Slot} {e : SlotEntry} (he : e.state = (s.slot i).state) {st : SlotState}
    (h : (s.slot i).state = st) (hst : (st ≠ .empty ∧ st ≠ .seated) := by decide) : (s.setSlot i e).seats i :=
  State.seats_of_state ((State.setSlot_state ..).trans ((if_pos rfl).trans (he.trans h))) hst

theorem State.latchOff_changes (s : State) (i : Slot) : Changes G s (s.latchOff i) := by
  have h1 : Changes G s (s.setSlot i { s.slot i with latch := false }) := .single (.calm (.pins i _ rfl rfl))
  unfold State.latchOff
  dsimp only
  refine h1.trans ?_
  split <;> rename_i h
  · exact State.enterSlot_changes rfl (.inr (.inr (State.setSlot_seats rfl h)))
  · exact State.enterSlot_changes rfl (.inr (.inr (State.setSlot_seats rfl h)))
  · exact State.enterSlot_changes rfl (.inr (.inr (State.setSlot_seats rfl h)))
  · exact State.enterDraining_changes (State.setSlot_seats rfl h)
  · exact State.enterSlot_changes rfl (.inr (.inr (State.setSlot_seats rfl h)))
  · exact State.enterSlot_changes rfl (.inr (.inr (State.setSlot_seats rfl h)))
  · exact State.enterSlot_changes rfl (.inr (.inr (State.setSlot_seats rfl h)))
  · exact .refl

theorem State.powerGoodOn_changes (s : State) (i : Slot) : Changes G s (s.powerGoodOn i) := by
  have h1 : Changes G s (s.setSlot i { s.slot i with pgood := true }) := .single (.calm (.pins i _ rfl rfl))
  unfold State.powerGoodOn
  dsimp only
  split
  · exact h1.trans (State.enterTraining_changes (State.setSlot_seats rfl ‹_›))
  · exact h1

theorem State.powerGoodOff_changes (s : State) (i : Slot) : Changes G s (s.powerGoodOff i) := by
  have h1 : Changes G s (s.setSlot i { s.slot i with pgood := false }) := .single (.calm (.pins i _ rfl rfl))
  unfold State.powerGoodOff
  dsimp only
  refine h1.trans ?_
  split <;> rename_i h
  · exact State.enterFaulted_changes (State.setSlot_seats rfl h)
  · exact State.enterFaulted_changes (State.setSlot_seats rfl h)
  · exact State.enterFaulted_changes (State.setSlot_seats rfl h)
  · exact State.endDrain_changes (State.setSlot_seats rfl h)
  · exact .refl

theorem State.backoffDone_changes {i : Slot} (h : s.seats i) : Changes G s (s.backoffDone i) := by
  unfold State.backoffDone
  split
  · exact State.enterSlot_changes rfl (.inr (.inr h))
  · split
    · exact State.enterPowering_changes rfl h
    · exact State.enterSeated_changes rfl

/-- R59: a slot timer's own effect, after the oscillator has run up to it. -/
theorem State.onSlotTimer_changes {i : Slot} {st : SlotState} {f : State → State}
    (hf : ∀ u : State, (u.slot i).state = st → Changes G u (f u)) : Changes G s (s.onSlotTimer i st f) := by
  unfold State.onSlotTimer
  split
  · rename_i t _
    split
    · rename_i h
      exact (s.advanceTo_changes t).trans (hf _ ((State.state_of_power (State.advanceTo_power s t) i).trans h))
    · exact .refl
  · exact .refl

/-! ## The admission exchange (R65 to R69) -/

theorem State.judgeIdent_changes {i : Slot} {p : Plane} {bs : List Byte} (h : s.seats i) : Changes G s (s.judgeIdent i p bs) := by
  unfold State.judgeIdent
  dsimp only
  split
  · exact State.enterSlot_changes rfl (.inr (.inr h))
  · split
    · exact State.enterSlot_changes rfl (.inr (.inr h))
    · exact (State.enterSlot_changes rfl (.inr (.inr h))).trans (Calms.changes (State.submit_calm ..))

theorem State.takeIdent_changes (s : State) (i : Slot) (p : Plane) (bs : List Byte) : Changes G s (s.takeIdent i p bs) := by
  unfold State.takeIdent
  split
  · exact State.judgeIdent_changes (State.seats_of_state ‹_›)
  · exact (State.enterSlot_changes rfl (.inr (.inr (State.seats_of_state ‹_›)))).trans
      (State.judgeIdent_changes (State.seats_of_state (State.enterSlot_self ..)))
  · exact .refl

/-! ## Lane events (R40, R41) -/

theorem SlotEntry.recordLane_cfg (e : SlotEntry) (p : Plane) (st : LaneState) : (e.recordLane p st).cfg = e.cfg :=
  congrArg (fun x => x.2.2) (e.recordLane_service p st)

theorem SlotEntry.choosePlane_service (e : SlotEntry) : e.choosePlane.service = e.service := by
  unfold SlotEntry.choosePlane
  split
  · split <;> rfl
  · rfl

theorem State.slotLane_changes (s : State) (i : Slot) (p : Plane) (st : LaneState) : Changes G s (s.slotLane i p st) := by
  have hrec : Changes G s (s.putSlot i ((s.slot i).recordLane p st)) :=
    .single (.calm (.entry i _ (SlotEntry.recordLane_service ..)))
  have hst : ((s.slot i).recordLane p st).state = (s.slot i).state := SlotEntry.recordLane_state ..
  have hseat (h : ((s.slot i).recordLane p st).state = .training) :
      (s.putSlot i ((s.slot i).recordLane p st)).seats i :=
    State.seats_of_state ((State.state_of_power (State.putSlot_recordLane_power s i p st) i).trans (hst ▸ h))
  have hchoose : Changes G s (s.moveSlot i ((s.slot i).recordLane p st).choosePlane) := by
    have hc := ((s.slot i).recordLane p st).choosePlane_service
    refine State.moveSlot_changes ?_ (.inr (.inr (.inl ?_)))
    · exact (congrArg (fun x => x.2.2) hc).trans (SlotEntry.recordLane_cfg ..)
    · exact (congrArg (fun x => x.1) hc).trans hst
  unfold State.slotLane
  dsimp only
  split
  · split
    · refine (hrec.trans (State.enterSlot_changes rfl (.inr (.inr (hseat ‹_›))))).trans (Calms.changes (State.submit_calm ..))
    · exact hrec.trans (Calms.changes (State.submit_calm ..))
    · exact hchoose
  · split
    · rename_i h
      simp only [Bool.and_eq_true, decide_eq_true_eq] at h
      refine State.moveSlot_changes ((SlotEntry.enter_cfg ..).trans (SlotEntry.recordLane_cfg ..)) (.inr (.inr (.inr ?_)))
      exact State.seats_of_state (hst.symm.trans h.1)
    · exact hchoose

theorem State.laneTrained_changes (s : State) (i : Slot) (p : Plane) : Changes G s (s.laneTrained i p) := by
  unfold State.laneTrained
  dsimp only
  split
  · exact (Calms.changes ((Calm.lane i p _).one.trans (State.kickLane_calm _ i p))).trans (State.slotLane_changes ..)
  · exact .refl

theorem State.laneLost_changes (s : State) (i : Slot) (p : Plane) : Changes G s (s.laneLost i p) := by
  unfold State.laneLost
  dsimp only
  split
  · exact (((Calms.changes (s.leaveUp_calm ..)).trans (State.reportUnsent_changes ..)).trans (State.slotLane_changes ..)).trans
      (State.pollLaneDown_changes ..)
  · exact .refl

/-! ## Slot commands and hub states (R75, R76) -/

theorem State.slotReleaseOp_changes (s : State) (n : Nat) : Changes G s (s.slotReleaseOp n).1 := by
  unfold State.slotReleaseOp
  split
  · exact .refl
  · split
    · exact State.enterDraining_changes (State.seats_of_state ‹_›)
    · exact .refl

theorem State.slotRetryOp_changes (s : State) (n : Nat) : Changes G s (s.slotRetryOp n).1 := by
  unfold State.slotRetryOp
  split
  · exact .refl
  · split
    · exact State.enterSeated_changes rfl
    · exact .refl

theorem State.slotOverrideOp_changes (s : State) (n : Nat) : Changes G s (s.slotOverrideOp n).1 := by
  unfold State.slotOverrideOp
  split
  · exact .refl
  · dsimp only
    split
    · rename_i h
      simp only [Bool.and_eq_true, decide_eq_true_eq] at h
      exact State.enterPowering_changes rfl (State.seats_of_state h.1.1)
    · exact .refl

theorem State.slotShutdown_changes (s : State) (i : Slot) : Changes G s (s.slotShutdown i) := by
  unfold State.slotShutdown
  split
  · exact State.enterSlot_changes rfl (.inr (.inr (State.seats_of_state ‹_›)))
  · exact .single (.calm (.entry i _ rfl))
  all_goals first
    | exact State.enterSlot_changes rfl (.inr (.inl rfl))
    | exact .refl

/-! ## Frames delivered (R45 to R48) -/

theorem State.discardFrame_changes (s : State) (i : Slot) (p : Plane) (d : Discard) : Changes G s (s.discardFrame i p d) := by
  unfold State.discardFrame
  dsimp only
  refine Relation.ReflTransGen.trans ?_ (State.pollFailedFrame_changes _ i p)
  split
  · exact Calms.changes ((s.bump_calm ..).trans (State.markLinkError_calm _ i))
  · exact Calms.changes (s.bump_calm ..)

theorem State.deliverFrame_changes {i : Slot} {p : Plane} {g : Staging} {k : FrameKind} (h : G → s.pollsFollow) :
    Changes G s (s.deliverFrame i p g k) := by
  unfold State.deliverFrame
  split
  · exact Calms.changes (s.takeCardFrame_calm ..)
  · exact State.takeStatus_changes h
  · exact s.takeIdent_changes ..
  · split
    · exact s.refArrival_changes ..
    · exact .single (.calm (.lane i p _))
  · exact .refl

theorem State.overtakenEnd_changes (s : State) (i : Slot) (p : Plane) (bs : List Byte) :
    Changes G s (s.overtakenEnd i p bs) := by
  unfold State.overtakenEnd
  split
  · dsimp only
    split
    · refine (Change.calm (.lane i p { s.lane i p with overtaken := none })).one.trans ?_
      split
      · exact State.discardFrame_changes ..
      · exact .refl
    · exact .refl
  · exact .refl

theorem State.frameEnd_changes {i : Slot} {p : Plane} {bs : List Byte} (h : G → s.pollsFollow) :
    Changes G s (s.frameEnd i p bs) := by
  unfold State.frameEnd
  dsimp only
  split
  · exact s.overtakenEnd_changes ..
  · refine (Change.calm (.lane i p { s.lane i p with staging := none })).one.trans ?_
    split
    · exact State.discardFrame_changes ..
    · exact State.deliverFrame_changes h

theorem State.transmitEnd_changes (s : State) (i : Slot) (p : Plane) : Changes G s (s.transmitEnd i p) := by
  unfold State.transmitEnd
  dsimp only
  split
  · exact .refl
  · exact ((Change.calm (.lane i p _)).one.trans (State.reportControl_changes ..)).trans (Calms.changes (State.kickSlot_calm ..))
  · exact Calms.changes (((Calm.lane i p _).one.trans (State.frameSent_calm ..)).trans (State.kickSlot_calm ..))

end Sys2Proof.Machine
end

section
/-! SUPPORT. The ring engine, the cycle engine's entries and the table records, as chains of changes. -/

namespace Sys2Proof.Machine

open Sys2Proof

variable {s t u : State} {G : Prop}

/-! ## Ring engine -/

theorem State.setRx_calm (s : State) (m : Option RxMove) : Calms s (s.setRx m) := .single (.quietRing _ rfl)

theorem State.setTx_calm (s : State) (m : Option TxMove) : Calms s (s.setTx m) := .single (.quietRing _ rfl)

theorem State.ringCount_calm (s : State) (f : RingCounters → RingCounters) : Calms s (s.ringCount f) :=
  .single (.quietRing _ rfl)

theorem State.withdrawRing_calm (s : State) (side : RingSide) : Calms s (s.withdrawRing side) := by
  unfold State.withdrawRing
  dsimp only
  refine Relation.ReflTransGen.trans ?_ (.single (.dropHeld _))
  split
  · exact .single (.quietRing _ rfl)
  · exact .refl

theorem State.rxMiss_calm (s : State) (m : RxMove) : Calms s (s.rxMiss m) := by
  unfold State.rxMiss
  dsimp only
  exact ((((State.leaveQueue0_calm ..).trans (State.ringCount_calm ..)).trans (.single (.deliver _))).trans
    (State.markMissed_calm _)).trans (State.setRx_calm ..)

theorem State.walkEnds_calm (s : State) (m : RxMove) : Calms s (s.walkEnds m) := by
  unfold State.walkEnds
  dsimp only
  split
  · exact s.rxMiss_calm m
  · split
    · exact s.setRx_calm _
    · exact s.setRx_calm _

theorem State.rxRead_calm (s : State) (v : Word) : Calms s (s.rxRead v) := by
  unfold State.rxRead
  split
  · exact .refl
  · split
    · split
      · exact s.setRx_calm _
      · exact s.walkEnds_calm _
    · split
      · dsimp only
        split
        · exact s.setRx_calm _
        · split
          · exact s.walkEnds_calm _
          · exact s.setRx_calm _
      · exact (s.ringCount_calm _).trans (State.walkEnds_calm ..)
    · split <;> exact s.setRx_calm _
    · split <;> exact s.setRx_calm _
    · exact .refl

theorem State.rxDelivered_calm (s : State) (m : RxMove) (n : Nat) : Calms s (s.rxDelivered m n) := by
  have ht : Calms s ((s.leaveQueue0 m.id PortCounters.countOut).ringCount (fun c => { c with placed := inc32 c.placed })) :=
    (State.leaveQueue0_calm ..).trans (State.ringCount_calm ..)
  refine Relation.ReflTransGen.tail ?_ (.deliver .rxFrame)
  exact ht.tail (.quietRing _ rfl)

theorem State.rxWritten_calm (s : State) : Calms s s.rxWritten := by
  unfold State.rxWritten
  split
  · exact .refl
  · split
    · split
      · exact s.setRx_calm _
      · split <;> exact s.setRx_calm _
    · split
      · exact s.setRx_calm _
      · exact s.rxDelivered_calm ..
    · split
      · exact s.setRx_calm _
      · exact .single (.quietRing _ rfl)
    · exact .refl

theorem State.rxStart_calm (s : State) : Calms s s.rxStart := by
  unfold State.rxStart
  split
  · exact .refl
  · dsimp only
    exact (Calm.quietSw _ (SwitchCore.keeps_addRef _ _).admits (by rfl)).one.trans (State.setRx_calm ..)

theorem State.rxHoldEnds_calm (s : State) : Calms s s.rxHoldEnds := by
  unfold State.rxHoldEnds
  split
  · exact .refl
  · split
    · exact s.rxMiss_calm _
    · exact (s.withdrawRing_calm _).trans (State.rxMiss_calm ..)
    · exact .refl

theorem State.txLoaded_calm (s : State) (m : TxMove) (id : Nat) (out : TxOutcome) (bytes : List Byte) :
    Calms s (s.txLoaded m id out bytes) := (s.loadComplete_calm ..).trans (State.setTx_calm ..)

theorem State.txAnswer_calm (s : State) (m : TxMove) (a : OfferAnswer) : Calms s (s.txAnswer m a) := by
  unfold State.txAnswer
  split
  · exact s.setTx_calm _
  · exact s.setTx_calm _
  · exact s.setTx_calm _
  · dsimp only
    split
    · exact s.txLoaded_calm ..
    · exact s.setTx_calm _

theorem State.txOffer_calm (s : State) (m : TxMove) : Calms s (s.txOffer m) := (s.offer_calm ..).trans (State.txAnswer_calm ..)

theorem State.txJudge_calm (s : State) (m : TxMove) : Calms s (s.txJudge m) := by
  unfold State.txJudge
  split
  · exact (s.ringCount_calm _).trans (State.setTx_calm ..)
  · split
    · exact s.setTx_calm _
    · exact s.txOffer_calm m

theorem State.txFetched_calm (s : State) (m : TxMove) (x : TxDesc) : Calms s (s.txFetched m x) := by
  unfold State.txFetched
  dsimp only
  split
  · exact s.txJudge_calm _
  · split <;> exact s.setTx_calm _

theorem State.txExamined_calm (s : State) (v : Word) (again : Bool) : Calms s (s.txExamined v again) := by
  unfold State.txExamined
  split <;> exact .single (.quietRing _ rfl)

theorem State.txRead_calm (s : State) (v : Word) : Calms s (s.txRead v) := by
  unfold State.txRead
  split
  · split
    · exact s.txExamined_calm ..
    · exact .refl
  · split
    · exact s.setTx_calm _
    · exact s.setTx_calm _
    · exact s.txFetched_calm ..
    · dsimp only
      split
      · exact s.txLoaded_calm ..
      · exact s.setTx_calm _
    · exact .refl

theorem State.examine_calm (s : State) : Calms s s.examine := by
  unfold State.examine
  split
  · exact .single (.quietRing _ rfl)
  · exact .refl

theorem State.txReturned_calm (s : State) (m : TxMove) (out : TxOutcome) : Calms s (s.txReturned m out) := by
  have ht : Calms s (s.ringCount (·.outcome out)) := s.ringCount_calm _
  refine Relation.ReflTransGen.trans ?_ (State.examine_calm _)
  refine Relation.ReflTransGen.tail ?_ (.deliver .txDone)
  exact ht.tail (.quietRing _ rfl)

theorem State.txWritten_calm (s : State) : Calms s s.txWritten := by
  unfold State.txWritten
  split
  · split
    · split
      · exact s.setTx_calm _
      · exact s.txReturned_calm ..
    · exact .refl
  · exact .refl

theorem State.txReoffer_calm (s : State) : Calms s s.txReoffer := by
  unfold State.txReoffer
  split
  · split
    · exact s.txOffer_calm _
    · exact .refl
  · exact .refl

theorem State.snooped_calm (s : State) (side : RingSide) : Calms s (s.snooped side) := by
  unfold State.snooped
  split
  · exact .refl
  · split
    · split
      · split
        · exact s.setRx_calm _
        · exact s.setRx_calm _
        · exact .refl
      · exact .refl
    · split
      · exact .single (.quietRing _ rfl)
      · split
        · exact s.setTx_calm _
        · exact .refl

theorem State.ringStartOp_calm (s : State) : Calms s s.ringStartOp.1 := by
  unfold State.ringStartOp
  split
  · exact Relation.ReflTransGen.trans (.single (.ring _)) (State.examine_calm (s.setRing { s.ring with
      state := .running, rxIdx := 0, txIdx := 0 }))
  · exact .refl

theorem State.txHalt_calm (s : State) : Calms s s.txHalt := by
  unfold State.txHalt
  split
  · dsimp only
    exact (s.withdrawRing_calm _).trans (.single (.quietRing _ rfl))
  · split
    · exact (s.withdrawRing_calm _).trans (State.setTx_calm ..)
    · exact s.setTx_calm _
    · exact .refl

theorem State.ringHalt_calm (s : State) : Calms s s.ringHalt := by
  unfold State.ringHalt
  split
  · exact ((Calm.ring _).one.trans (State.rxHoldEnds_calm _)).trans (State.txHalt_calm _)
  · exact .refl

theorem State.ringStopOp_calm (s : State) : Calms s s.ringStopOp.1 := by
  unfold State.ringStopOp
  split
  · exact .refl
  · exact s.ringHalt_calm

theorem State.ringStopped_calm (s : State) : Calms s s.ringStopped := (s.flushQueue0_calm).trans (.single (.ring _))

theorem State.ringReset_calm (s : State) : Calms s s.ringReset := by
  have hload : Calms s s.abandonLoad := by
    unfold State.abandonLoad
    split
    · split
      · exact s.loadAbandon_calm _
      · exact .refl
    · exact .refl
  have hrx (u : State) : Calms u u.abandonRx := by
    unfold State.abandonRx
    split
    · split
      · exact .refl
      · exact u.dropClaim_calm _
    · exact .refl
  exact ((hload.trans (hrx _)).trans (State.flushQueue0_calm _)).trans (.single (.ring _))

/-! ## Cycle engine: entries and commands -/

theorem State.cycleLeaves_calm (s : State) : Calms s s.cycleLeaves :=
  (Calm.dropHeld _).one.trans (.single (.leavesEntry _ fun _ => rfl))

theorem State.cycleCall_calm (a target : Addr) (s : State) : Calms s (State.cycleCall a target s) := by
  unfold State.cycleCall
  split
  · exact (Calm.quietCyc _ (by rfl) (by exact fun _ h => h)).one.trans (State.cycleGo_calm ..)
  · exact s.cycleFault_calm _

theorem State.cycleReturn_calm (s : State) : Calms s s.cycleReturn := by
  unfold State.cycleReturn
  split
  · exact (Calm.quietCyc _ (by rfl) (by exact fun _ h => h)).one.trans (State.cycleGo_calm ..)
  · exact s.cycleFault_calm _

theorem State.cycleNotify_calm (a : Addr) (v : Word) (s : State) : Calms s (State.cycleNotify a v s) :=
  ((Calm.cyc _ (by exact fun _ h => h)).one.trans (.single (.deliver _))).trans (State.cycleGo_calm ..)

theorem State.cyclePoll_changes (s : State) (a : Addr) (ws : List Word) : Changes G s (s.cyclePoll a ws) := by
  unfold State.cyclePoll
  dsimp only
  split
  · refine Relation.ReflTransGen.trans (Calms.changes (State.enterRun_calm s a ws ?_)) (State.pollGo_changes ..)
    exact fun p hp => Work.poll.inj hp ▸ rfl
  · exact Calms.changes (s.cycleFault_calm _)

theorem State.cycleTime_calm (s : State) (a : Addr) (ws : List Word) : Calms s (s.cycleTime a ws) := by
  unfold State.cycleTime
  dsimp only
  split
  · split
    · refine Relation.ReflTransGen.trans (State.enterRun_calm s a ws ?_) (State.timeRun_calm ..)
      exact fun p hp => by cases hp
    · exact s.cycleFault_calm _
  · exact s.cycleFault_calm _

theorem State.cycleJudge_changes (s : State) (a : Addr) (ws : List Word) : Changes G s (s.cycleJudge a ws) := by
  have hwait {w : Work} (h : ∀ p, w = .poll p → p.cur = none) : Changes G s (s.enterRun a ws w) :=
    Calms.changes (s.enterRun_calm a ws h)
  have hfault (k : CycleFaultKind) : Changes G s (s.cycleFault k) := Calms.changes (s.cycleFault_calm k)
  unfold State.cycleJudge
  dsimp only
  split
  · exact hfault _
  · exact Calms.changes s.cycleEnds_calm
  · split
    · exact hwait fun _ h => nomatch h
    · exact hfault _
  · split
    · exact hwait fun _ h => nomatch h
    · exact hfault _
  · exact Calms.changes (s.zeroTime_calm fun u => u.cycleGo_calm _)
  · exact Calms.changes (s.zeroTime_calm fun u => u.cycleCall_calm a _)
  · exact Calms.changes (s.zeroTime_calm State.cycleReturn_calm)
  · exact Calms.changes (s.zeroTime_calm fun u => u.cycleNotify_calm a _)
  · exact s.cyclePoll_changes a ws
  · exact Calms.changes (s.cycleTime_calm a ws)

theorem State.cycleRead_changes (s : State) (v : Word) : Changes G s (s.cycleRead v) := by
  unfold State.cycleRead
  split
  · split
    · exact .single (.calm (.quietCyc _ rfl fun _ h => by cases h))
    · exact s.cycleJudge_changes ..
  · exact .refl

theorem State.cycleStartOp_calm (s : State) (v : Word) : Calms s (s.cycleStartOp v).1 := by
  unfold State.cycleStartOp
  split
  · dsimp only
    have ht : Calms s (s.setCyc { s.cyc with
        state := .running, fault := .none, stack := [], zeroRun := 0, cur := addrOf v.toNat, entry := none }) :=
      .single (.leavesEntry _ fun _ => rfl)
    refine ht.trans ?_
    split
    · exact State.cycleGo_calm ..
    · exact State.cycleFault_calm ..
  · exact .refl

theorem State.cycleStopOp_calm (s : State) : Calms s s.cycleStopOp.1 := by
  have hh : Calms s (s.setCyc { s.cyc with state := .halting }) := .single (.cyc _ fun _ h => h)
  unfold State.cycleStopOp
  dsimp only
  split
  · exact .refl
  · exact s.cycleEnds_calm
  · exact .refl
  · split
    · exact s.cycleEnds_calm
    · split
      · exact (Calm.dropHeld _).one.trans (State.cycleEnds_calm _)
      · exact hh.trans (State.endWait_calm ..)
      · exact hh.trans (State.endWait_calm ..)
      · exact hh

/-! ## Table records (R93, R118, R182, R183) -/

theorem State.provisionChanged_changes (s : State) (i : Slot) (was now : Bool) : Changes G s (s.provisionChanged i was now) := by
  unfold State.provisionChanged
  split
  · split
    · exact State.enterSeated_changes rfl
    · exact State.enterSeated_changes rfl
    · exact State.enterSeated_changes rfl
    · exact State.enterDraining_changes (State.seats_of_state ‹_›)
    · exact .refl
  · exact .refl

theorem SlotEntry.repolicy_service (e : SlotEntry) (old : PlanePolicy) : (e.repolicy old).service = e.service := by
  unfold SlotEntry.repolicy
  split
  · rfl
  · exact SlotEntry.choosePlane_service _

theorem State.applyPort_changes (s : State) (i : Slot) (c : PortCfg) : Changes G s (s.applyPort i c) := by
  unfold State.applyPort
  extract_lets old e s0 shut s1 sp s2 s3
  have h1 : Changes G s s1 := by
    have : s1 = s.reconfigure i c := rfl
    exact this ▸ .single (.reconfigure i c)
  have hp : Changes G s1 sp := by
    have hs := (s1.slot i).repolicy_service old.policy
    exact State.changeSlot_changes (congrArg (fun x => x.2.2) hs) (congrArg (fun x => x.1) hs)
  have h2 : Changes G sp s2 := by
    unfold s2
    split
    · exact Calms.changes (sp.kickSlot_calm i)
    · exact .refl
  have h3 : Changes G s2 s3 := by
    unfold s3
    split
    · exact Calms.changes s2.roomReport_calm
    · exact .refl
  exact (((h1.trans hp).trans h2).trans h3).trans ((s3.provisionChanged_changes ..).trans (State.judgeSeated_changes ..))

theorem State.applyPort0_calm (s : State) (limit : Nat) : Calms s (s.applyPort0 limit) := by
  unfold State.applyPort0
  dsimp only
  split
  · exact (Calm.manager limit s.sm.discarded).one.trans (State.roomReport_calm _)
  · exact .single (.manager limit s.sm.discarded)

theorem PointCfg.selector_card {c : PointCfg} (h : c.kind.isCard = true) : c.selector = (c.which, c.cond) := by
  unfold SourceKind.isCard at h
  unfold PointCfg.selector
  split at h <;> simp_all

/-- R183: a record of the same source leaves the point enabled, and a card's point with its slot. -/
theorem sameSource_card {old new : PointCfg} (h : sameSource old new = true) :
    new.enabled = true ∧ (new.kind.isCard = true → old.kind.isCard = true ∧ old.which = new.which) := by
  simp only [sameSource, Bool.and_eq_true, beq_iff_eq] at h
  obtain ⟨⟨⟨⟨-, hen⟩, hk⟩, hsel⟩, -⟩ := h
  refine ⟨hen, fun hc => ⟨hk ▸ hc, ?_⟩⟩
  rw [PointCfg.selector_card hc, PointCfg.selector_card (hk ▸ hc)] at hsel
  exact congrArg Prod.fst hsel

/-- R183: a record that keeps the point's source keeps its rule. -/
theorem State.pointOk_keepSource {p : Point} {c : PointCfg} (h : sameSource p.cfg c = true) (hp : s.pointOk p) :
    s.pointOk (p.keepSource c) := by
  obtain ⟨hen, hsame⟩ := sameSource_card h
  refine ⟨fun hoff => ?_, fun i hcard hwhich hadm => ?_⟩
  · rw [show (p.keepSource c).cfg = c from rfl, hen] at hoff
    cases hoff
  · obtain ⟨hcard', hw⟩ := hsame hcard
    have hclear := hp.2 i hcard' (hw.trans hwhich) hadm
    unfold Point.keepSource
    simp [hclear]

theorem State.applyPoint_changes (s : State) (k : Fin 64) (c : PointCfg) : Changes G s (s.applyPoint k c) := by
  unfold State.applyPoint
  dsimp only
  refine Relation.ReflTransGen.trans ?_ (Calms.changes (State.judgeRelays_calm _))
  split
  · rename_i h
    exact .single (.point k _ fun _ => State.pointOk_keepSource h)
  · exact (State.movePoint_changes fun _ _ => State.pointOk_cleared _).trans (.single (.point k _ fun _ _ => State.pointOk_cold c))

theorem State.applyGroup_calm (s : State) (k : Fin 64) (g : Group) : Calms s (s.applyGroup k g) :=
  .single (.quietSw _ (SwitchCore.Keeps.of_stored rfl rfl rfl rfl fun _ _ h => h).admits rfl)

theorem State.applyRef_changes (s : State) (k : Fin 4) (c : RefCfg) : Changes G s (s.applyRef k c) :=
  State.putTime_changes fun h => (h.setRef k _).rejudge

theorem State.applyRecord_changes (s : State) (t : Table) (index : Nat) (ws : List Word) :
    Changes G s (s.applyRecord t index ws) := by
  unfold State.applyRecord
  split
  · split
    · exact s.applyPort_changes ..
    · exact Calms.changes (s.applyPort0_calm _)
  · split
    · exact Calms.changes (s.applyGroup_calm ..)
    · exact .refl
  · split
    · exact s.applyPoint_changes ..
    · exact .refl
  · split
    · exact s.applyRef_changes ..
    · exact .refl

/-! ## Rows of the time base and of the ring engine -/

theorem State.watchEnds_changes (s : State) (k : Fin 4) : Changes G s (s.watchEnds k) :=
  State.putTime_changes fun h => (TimeBase.inRange.of_clock h rfl rfl rfl rfl rfl rfl rfl : (s.time.watchExpire k).inRange).rejudge

theorem State.ppsOutEnds_calm (s : State) : Calms s s.ppsOutEnds := by
  unfold State.ppsOutEnds
  split
  · split
    · exact .single (.clock _ (fun h => h.of_clock rfl rfl rfl rfl rfl rfl rfl) rfl)
    · exact .refl
  · exact .refl

theorem State.onHold_changes (s : State) : Changes G s s.onHold := by
  unfold State.onHold
  split
  · split
    · exact (s.advanceTo_changes _).trans (Calms.changes (State.rxHoldEnds_calm _))
    · exact .refl
  · exact .refl

end Sys2Proof.Machine
end

section
/-! SUPPORT. The blocks' changes taken apart: beside the calm ones they replace a slot's entry, a point, the quality or the
cycle engine, and nothing else. What none of these touches, every block leaves alone. -/

namespace Sys2Proof.Machine

open Sys2Proof

variable {s t u : State} {G : Prop}

/-- A change of one component, with no condition on the slots, the points and the attempts. -/
inductive Bare (s : State) : State → Prop
  | calm {t : State} (h : Calm s t) : Bare s t
  | slot (i : Slot) (e : SlotEntry) : Bare s (s.putSlot i e)
  | point (k : Fin 64) (p : Point) : Bare s (s.putPoint k p)
  | quality (q : Nat) : Bare s { s with sw := { s.sw with quality := q } }
  | cyc (c : CycleEngine) : Bare s (s.setCyc c)

/-- A chain of bare changes. -/
abbrev Bares : State → State → Prop := Relation.ReflTransGen Bare

theorem Calms.bares (h : Calms s t) : Bares s t := by
  induction h with
  | refl => exact .refl
  | tail _ hc ih => exact ih.tail (.calm hc)

theorem State.takeQuality_bares (s : State) (q : Nat) : Bares s (s.takeQuality q) := by
  refine Relation.ReflTransGen.head (.quality q) (foldl_chain (fun s i => ?_) _ _)
  split
  · exact Calms.bares (s.flush_calm ..)
  · exact .refl

theorem State.movePoint_bares (s : State) (k : Fin 64) (p : Point) : Bares s (s.movePoint k p) := by
  have h1 : Bares s (s.putPoint k p) := .single (.point k p)
  unfold State.movePoint
  dsimp only
  split
  · exact h1
  · refine (h1.trans ?_).trans (Calms.bares (State.judgeRelays_calm _))
    split
    · exact Calms.bares (State.placeChange_calm ..)
    · split
      · exact Calms.bares (State.placeChange_calm ..)
      · exact .refl

theorem State.putTime_bares {x : TimeBase} (h : s.time.inRange → x.inRange) : Bares s (s.putTime x) := by
  have h1 : Bares s (reimage refImageWords s (retouch [0x34, 0x35, 0x36, 0x37] s { s with time := x })) :=
    .single (.calm (.time x h))
  unfold State.putTime
  dsimp only
  split
  · exact h1
  · exact (h1.trans (State.takeQuality_bares _ _)).trans (Calms.bares (.single (.deliver _)))

theorem TimeBase.inRange.disqualified {x : TimeBase} (h : x.inRange) (i : Slot) :
    (x.rejudge (x.disqualifySlot i)).inRange :=
  (TimeBase.inRange.of_clock h rfl rfl rfl rfl rfl rfl rfl : (x.disqualifySlot i).inRange).rejudge

/-- The rest of a change of a slot's entry, once the entry has been replaced (R77). -/
theorem State.changeSlot_bares (s : State) (i : Slot) (new : SlotEntry) : Bares s (s.changeSlot i new) := by
  unfold State.changeSlot
  extract_lets old s1 s2 s3 s4 s5
  have h1 : Bares s s1 := .single (.slot i new)
  have h2 : Bares s1 s2 := by
    unfold s2
    split
    · exact .refl
    · exact Calms.bares s1.roomReport_calm
  have h3 : Bares s2 s3 := by
    unfold s3
    split
    · exact Calms.bares (s2.flushBoth_calm i)
    · exact .refl
  have h4 : Bares s3 s4 := by
    unfold s4
    split
    · refine foldl_chain (fun s k => ?_) _ s3
      dsimp only
      split
      · exact s.movePoint_bares ..
      · exact .refl
    · exact .refl
  have h5 : Bares s4 s5 := by
    unfold s5
    split
    · exact State.putTime_bares fun h => h.disqualified i
    · exact .refl
  refine (((h1.trans h2).trans h3).trans h4).trans (h5.trans ?_)
  split
  · exact .refl
  · exact Calms.bares (s5.kickSlot_calm i)

theorem State.pollLeaves_calm (s : State) (i : Slot) : Calms s (s.pollLeaves i) := by
  unfold State.pollLeaves
  split
  · split
    · exact State.pollResult_calm ..
    · exact .refl
  · exact .refl

theorem Change.bares (h : Change G s t) : Bares s t := by
  cases h with
  | calm h => exact .single (.calm h)
  | reseat i new _ _ =>
    unfold State.reseat
    split
    · exact (s.changeSlot_bares i new).trans (Calms.bares (State.pollLeaves_calm _ i))
    · exact s.changeSlot_bares i new
  | quality q => exact s.takeQuality_bares q
  | point k p _ => exact .single (.point k p)
  | attempt c _ => exact .single (.cyc c)
  | reconfigure i c =>
    have h1 : Bares s (s.putSlot i { s.slot i with cfg := c }) := .single (.slot i _)
    unfold State.reconfigure
    split
    · exact h1.trans (Calms.bares (State.emptyQueue_calm ..))
    · exact h1

theorem Changes.bares (h : Changes G s t) : Bares s t := by
  induction h with
  | refl => exact .refl
  | tail _ hc ih => exact ih.trans hc.bares

/-- A fact that bare changes keep, chains keep. -/
theorem chain_keeps {r : State → State → Prop} {P : State → Prop} (hr : ∀ {s t}, r s t → P s → P t)
    (h : Relation.ReflTransGen r s t) (hs : P s) : P t := by
  induction h with
  | refl => exact hs
  | tail _ hc ih => exact hr hc ih

/-! ## The stage of the command unit -/

/-- What the time base, the switch core, the cycle engine and the points are, with the command unit's stage. -/
def State.course (s : State) : TimeBase × SwitchCore × CycleEngine × Vector Point 64 × CmdStage :=
  (s.time, s.sw, s.cyc, s.alarm.points, s.stage)

theorem State.putSlot_course (s : State) (i : Slot) (e : SlotEntry) : (s.putSlot i e).course = s.course := by
  unfold State.putSlot
  dsimp only
  split <;> rfl

theorem State.dropHeld_course (s : State) (p : Purpose → Bool) : (s.dropHeld p).course = s.course := by
  unfold State.dropHeld
  (repeat' split) <;> rfl

theorem CommandUnit.still_stage {c : CommandUnit} (h : c.still = s.cmd.still) :
    (c.hub, c.collection, c.transfer) = (s.cmd.hub, s.cmd.collection, s.cmd.transfer) := congrArg (fun x => x.1) h

theorem State.stage_eq_of_still (h : t.cmd.still = s.cmd.still) : t.stage = s.stage := by
  simp only [CommandUnit.still, Prod.mk.injEq] at h
  obtain ⟨⟨h1, h2, h3⟩, -⟩ := h
  unfold State.stage
  rw [h1, h2, h3]

theorem Calm.stage (h : Calm s t) : t.stage = s.stage := by
  cases h with
  | command c h _ => exact State.stage_eq_of_still h
  | entry i e _ => exact congrArg (fun x => x.2.2.2.2) (s.putSlot_course i e)
  | dropHeld p => exact congrArg (fun x => x.2.2.2.2) (s.dropHeld_course p)
  | _ => rfl

theorem Bare.stage (h : Bare s t) : t.stage = s.stage := by
  cases h with
  | calm h => exact h.stage
  | slot i e => exact congrArg (fun x => x.2.2.2.2) (s.putSlot_course i e)
  | _ => rfl

theorem Bares.stage (h : Bares s t) : t.stage = s.stage := chain_keeps (P := fun u => u.stage = s.stage)
  (fun h hs => h.stage.trans hs) h rfl

/-! ## The time base and the pool -/

theorem Calm.time_inRange (h : Calm s t) (hs : s.time.inRange) : t.time.inRange := by
  cases h with
  | glide o x d h _ => exact h hs
  | clock x h _ => exact h hs
  | time x h => exact h hs
  | entry i e _ => exact (congrArg (fun x => x.1.inRange) (s.putSlot_course i e)).mpr hs
  | dropHeld p => exact (congrArg (fun x => x.1.inRange) (s.dropHeld_course p)).mpr hs
  | _ => exact hs

theorem Bare.time_inRange (h : Bare s t) (hs : s.time.inRange) : t.time.inRange := by
  cases h with
  | calm h => exact h.time_inRange hs
  | slot i e => exact (congrArg (fun x => x.1.inRange) (s.putSlot_course i e)).mpr hs
  | _ => exact hs

theorem Calm.poolKept (h : Calm s t) (hs : s.sw.poolKept) : t.sw.poolKept := by
  cases h with
  | sw w h => exact h.1 hs
  | entry i e _ => exact (congrArg (fun x => x.2.1.poolKept) (s.putSlot_course i e)).mpr hs
  | dropHeld p => exact (congrArg (fun x => x.2.1.poolKept) (s.dropHeld_course p)).mpr hs
  | _ => exact hs

theorem Bare.poolKept (h : Bare s t) (hs : s.sw.poolKept) : t.sw.poolKept := by
  cases h with
  | calm h => exact h.poolKept hs
  | slot i e => exact (congrArg (fun x => x.2.1.poolKept) (s.putSlot_course i e)).mpr hs
  | _ => exact hs

end Sys2Proof.Machine
end

section
/-! SUPPORT. The command unit's work: the blocks' changes, and those of the stage, the hub and the tables installed. -/

namespace Sys2Proof.Machine

open Sys2Proof

variable {s t u : State} {F G : Prop}

/-- Every slot is EMPTY or SEATED. -/
def State.slotsIdle (s : State) : Prop := ∀ i, (s.slot i).state = .empty ∨ (s.slot i).state = .seated

/-- The slots' controller-set fields as given, with the limit of queue 0. -/
def SlotManager.withCfgs (m : SlotManager) (c : Slot → PortCfg) (q : Nat) : SlotManager :=
  { m with slots := Vector.ofFn (fun (i : Fin 12) => { vget m.slots i with cfg := c i }), q0Limit := q }

/-- A change that a row makes, between one completion at the port and the next. `F` and
`G` stand for what is known of the state it begins with. -/
inductive Run (F G : Prop) (s : State) : State → Prop
  | change {t : State} (h : Change G s t) : Run F G s t
  | stage (c : Collection) (x : Option Transfer) :
      Run F G s { s with cmd := { s.cmd with collection := c, transfer := x } }
  | hub (h : HubState) (hi : F → s.queuesFollow → h = .unconfigured ∨ h = .loading .load → s.slotsIdle) :
      Run F G s (retouch [0x31] s { s with cmd := { s.cmd with hub := h } })
  | install (c : Slot → PortCfg) (q : Nat) (hi : F → s.queuesFollow → s.slotsIdle) :
      Run F G s { s with sm := s.sm.withCfgs c q }
  | reset : Run F G s { s with cmd := s.cmd.reset }

/-- A chain of such changes. -/
abbrev Runs (F G : Prop) : State → State → Prop := Relation.ReflTransGen (Run F G)

theorem Changes.runs (h : Changes G s t) : Runs F G s t := by
  induction h with
  | refl => exact .refl
  | tail _ hc ih => exact ih.tail (.change hc)

theorem Calms.runs (h : Calms s t) : Runs F G s t := Changes.runs (Calms.changes h)

theorem Run.one (h : Run F G s t) : Runs F G s t := .single h

/-! ## Results and hub states (R22, R27) -/

theorem State.finish_runs (s : State) (code : Nat) (r : CmdResult) (item : FailItem) (clamped : Bool) :
    Runs F G s (s.finish code r item clamped) := by
  have h1 : Calms s (s.setRecord { s.cmd.record with lastCode := code, result := r, fail := item, clamped := clamped, done := s.cmd.record.accepted }) :=
    .single (.record _)
  refine (Calms.runs h1).trans ((Run.stage .idle none).one.trans (Calms.runs (.single ?_)))
  exact .command _ rfl (.inl rfl)

theorem State.finishWith_runs (s : State) (c : Command) (r : CmdResult) : Runs F G s (s.finishWith c r) := s.finish_runs ..

theorem State.finishAnswer_runs (s : State) (c : Command) (a : Answer) : Runs F G s (s.finishAnswer c a) := s.finish_runs ..

theorem State.finishIf_runs (s : State) (c : Command) : Runs F G s (s.finishIf c) := by
  unfold State.finishIf
  split
  · split
    · exact s.finishWith_runs ..
    · exact .refl
  · exact .refl

theorem State.startTransfer_runs (s : State) (x : Transfer) : Runs F G s (s.startTransfer x) :=
  .single (.stage s.cmd.collection (some x))

theorem State.setHub_runs {h : HubState} (hi : F → s.queuesFollow → h = .unconfigured ∨ h = .loading .load → s.slotsIdle) :
    Runs F G s (s.setHub h) :=
  ((Run.hub h hi).one.trans (Calms.runs (State.judgeRelays_calm _))).trans (Changes.runs (State.judgeAllSeated_changes _))

theorem State.emptyZones_calm (s : State) : Calms s s.emptyZones :=
  (Calm.zones none).one.trans (.single (.command _ rfl (.inr rfl)))

/-! ## Tables installed and emptied (R30, R33, R37) -/

theorem State.putPoints_changes (s : State) (c : Fin 64 → PointCfg) :
    Changes G s ((List.finRange 64).foldl (fun s k => s.putPoint k { Point.cold with cfg := c k }) s) :=
  foldl_chain (fun _ k => .single (.point k _ fun _ _ => State.pointOk_cold (c k))) _ s

theorem State.withGroups_calm (s : State) (g : Vector Group 64) :
    Calms s { s with sw := { s.sw with groups := g } } :=
  .single (.quietSw _ (SwitchCore.Keeps.of_stored rfl rfl rfl rfl fun _ _ h => h).admits rfl)

theorem State.putRefs_changes (s : State) (r : Vector RefEntry 4) :
    Changes G s (s.putTime (s.time.rejudge { s.time with refs := r })) :=
  State.putTime_changes fun h => (TimeBase.inRange.of_clock h rfl rfl rfl rfl rfl rfl rfl : { s.time with refs := r }.inRange).rejudge

theorem State.installTables_runs {all : List (List Word)} (h : F → s.queuesFollow → s.slotsIdle) :
    Runs F G s (s.installTables all) := by
  unfold State.installTables
  extract_lets w m s1 w2 s2 pc s3 x
  have h1 : Runs F G s s1 := .single (.install (fun i => PortCfg.ofWords (w .port (i.val + 1))) (field ((w .port 0).getD 0 0) 0 10) h)
  have h2 : Runs F G s1 s2 := Calms.runs (s1.withGroups_calm _)
  have h3 : Changes G s2 s3 := State.putPoints_changes s2 (fun k => PointCfg.ofWords (w .alarmPoint k.val))
  refine (h1.trans h2).trans ((Changes.runs h3).trans (Changes.runs ?_))
  clear_value s3
  exact State.putRefs_changes s3 _

theorem State.emptyTables_runs (h : F → s.queuesFollow → s.slotsIdle) : Runs F G s s.emptyTables := by
  unfold State.emptyTables
  extract_lets m s1 w2 s2 s3 x
  have h1 : Runs F G s s1 := .single (.install (fun _ => PortCfg.cold) SlotManager.cold.q0Limit h)
  have h2 : Runs F G s1 s2 := Calms.runs (s1.withGroups_calm _)
  exact (h1.trans h2).trans (Changes.runs ((State.emptyPoints_changes s2).trans (State.putRefs_changes s3 _)))

end Sys2Proof.Machine
end

section
/-! SUPPORT. The commands and the transfers, as chains of the changes a row makes, and the stage they leave. -/

namespace Sys2Proof.Machine

open Sys2Proof

variable {s t u : State} {F G : Prop}

theorem State.slotsIdle_congr (h : t.power = s.power) : t.slotsIdle ↔ s.slotsIdle :=
  forall_congr' fun i => by rw [State.state_of_power h i]

theorem Changes.stage (h : Changes G s t) : t.stage = s.stage := h.bares.stage

/-! ## Ends of a LOAD_SETUP and of a SHUTDOWN (R29 to R33) -/

theorem State.enterService_runs (s : State) : Runs F G s s.enterService := by
  unfold State.enterService
  split
  · exact .refl
  · rename_i b _
    let s1 : State := { s with cmd := { s.cmd with mask := b.mask.extractLsb' 0 12, setup := none } }
    let s2 : State := { s1 with ring := { s1.ring with params := some b.rings, rxIdx := 0, txIdx := 0 } }
    let s3 : State := { s2 with cyc := { s2.cyc with timeoutUs := b.pollUs } }
    have h1 : Calms s s1 := .single (.command _ rfl (.inl rfl))
    have h2 : Calms s1 s2 := .single (.quietRing _ rfl)
    have h3 : Calms s2 s3 := .single (.quietCyc _ rfl fun _ h => h)
    refine (Calms.runs ((h1.trans h2).trans h3)).trans ((State.setHub_runs (s := s3) fun _ _ h => ?_).trans ((Calms.runs (State.alarmEnters_calm ..)).trans
      (State.finishWith_runs ..)))
    rcases h with h | h <;> cases h

theorem State.loadFails_runs {mode : LoadMode} {item : FailItem}
    (h : F → mode = .load → s.cmd.hub = .loading .load) : Runs F G s (s.loadFails mode item) := by
  unfold State.loadFails
  let s1 : State := { s with cmd := { s.cmd with setup := none } }
  have h1 : Calms s s1 := .single (.command _ rfl (.inl rfl))
  refine (Calms.runs h1).trans ((Calms.runs s1.emptyZones_calm).trans
    ((State.setHub_runs fun hg hq hb => ?_).trans (State.finish_runs ..)))
  cases mode with
  | load => exact hq.2.2 (.inr (h hg rfl))
  | adopt => rcases hb with hb | hb <;> cases hb

theorem State.completeShutdown_runs (h : s.slotsIdle) : Runs F G s s.completeShutdown := by
  refine (((State.emptyTables_runs fun _ _ => h).trans (Calms.runs (State.emptyZones_calm _))).trans
    (State.setHub_runs fun _ _ _ => ?_)).trans (State.finishIf_runs ..)
  refine (State.slotsIdle_congr ?_).mpr h
  rw [State.emptyZones_power, State.emptyTables_power]

/-! ## Commands (R28, R32, R36, R180, R21) -/

theorem State.loadSetupOp_runs (s : State) (mode addr : Nat) : Runs F G s (s.loadSetupOp mode addr) := by
  unfold State.loadSetupOp
  split
  · exact s.finishAnswer_runs ..
  · split
    · exact s.finishAnswer_runs ..
    · split
      · exact s.finishAnswer_runs ..
      · rename_i m _ hfrom _
        refine (State.setHub_runs fun _ hq hl => hq.2.2 (.inl ?_)).trans (State.startTransfer_runs ..)
        obtain rfl : m = .load := by rcases hl with hl | hl <;> simpa using hl
        exact not_not.mp hfrom

theorem State.shutdownOp_runs (s : State) : Runs F G s s.shutdownOp := by
  unfold State.shutdownOp
  refine (State.setHub_runs fun _ _ h => ?_).trans ((Calms.runs (State.alarmLeaves_calm _)).trans
    ((Calms.runs (State.cycleLeaves_calm _)).trans
      ((Changes.runs (foldl_chain State.slotShutdown_changes _ _)).trans (Calms.runs (State.ringHalt_calm _)))))
  rcases h with h | h <;> cases h

theorem State.snapshotOp_runs (s : State) (addr : Nat) (clear : Bool) : Runs F G s (s.snapshotOp addr clear) := by
  unfold State.snapshotOp
  split
  · exact s.startTransfer_runs _
  · exact s.finishAnswer_runs ..

theorem State.tableUpdateOp_runs (s : State) (table index addr : Nat) : Runs F G s (s.tableUpdateOp table index addr) := by
  unfold State.tableUpdateOp
  split
  · exact s.finishAnswer_runs ..
  · split
    · exact s.finishAnswer_runs ..
    · split
      · exact s.finishAnswer_runs ..
      · exact s.startTransfer_runs _

theorem State.finishWhen_runs {x : State × Bool} {c : Command} (h : Runs F G s x.1) : Runs F G s (State.finishWhen x c) := by
  unfold State.finishWhen
  split
  · exact h.trans (State.finishWith_runs ..)
  · exact h

theorem State.runCommand_runs (s : State) (o : OpenCmd) : Runs F G s (s.runCommand o) := by
  unfold State.runCommand
  dsimp only
  split
  · exact s.loadSetupOp_runs ..
  · exact s.shutdownOp_runs
  · exact s.snapshotOp_runs ..
  · exact (Changes.runs (s.setDisciplineOp_changes _)).trans (State.finish_runs ..)
  · exact (Changes.runs (s.setTimeOp_changes _)).trans (State.finishWith_runs ..)
  · exact (Calms.runs s.ringStartOp_calm).trans (State.finishAnswer_runs ..)
  · exact State.finishWhen_runs (Calms.runs s.ringStopOp_calm)
  · exact (Calms.runs (s.cycleStartOp_calm _)).trans (State.finishAnswer_runs ..)
  · exact State.finishWhen_runs (Calms.runs s.cycleStopOp_calm)
  · exact (Changes.runs (s.slotReleaseOp_changes _)).trans (State.finishAnswer_runs ..)
  · exact (Changes.runs (s.slotRetryOp_changes _)).trans (State.finishAnswer_runs ..)
  · exact (Changes.runs (s.slotOverrideOp_changes _)).trans (State.finishAnswer_runs ..)
  · exact s.tableUpdateOp_runs ..
  · split
    · exact (Changes.runs (State.alarmResetOp_changes ‹_›)).trans (State.finishWith_runs ..)
    · exact s.finishAnswer_runs ..

theorem State.execute_runs (s : State) (o : OpenCmd) : Runs F G s (s.execute o) := by
  unfold State.execute
  split
  · exact (Run.stage (.executing o) s.cmd.transfer).one.trans (State.runCommand_runs ..)
  · exact s.finishWith_runs ..

theorem State.openCommand_runs (s : State) (code count : Nat) : Runs F G s (s.openCommand code count) := by
  unfold State.openCommand
  extract_lets r t
  have h1 : Runs F G s t := Calms.runs (.single (.record _))
  refine h1.trans ?_
  split
  · exact t.finish_runs ..
  · dsimp only
    split
    · exact t.finishAnswer_runs ..
    · split
      · exact t.execute_runs _
      · exact .single (.stage _ t.cmd.transfer)

theorem State.cutShort_runs (s : State) (o : OpenCmd) : Runs F G s (s.cutShort o) := by
  unfold State.cutShort
  split
  · exact (Changes.runs (s.setDisciplineOp_changes _)).trans (State.finish_runs ..)
  · exact s.finishWith_runs ..

theorem State.commandWord_runs (s : State) (w : Word) : Runs F G s (s.commandWord w) := by
  unfold State.commandWord
  dsimp only
  split
  · exact Calms.runs (s.refuse_calm ..)
  · split
    · exact Calms.runs (s.refuse_calm ..)
    · exact (s.cutShort_runs _).trans (State.openCommand_runs ..)
    · exact s.openCommand_runs ..

theorem State.parameterWord_runs (s : State) (k : Nat) (v : Word) : Runs F G s (s.parameterWord k v) := by
  unfold State.parameterWord
  split
  · split
    · dsimp only
      split
      · exact s.execute_runs _
      · exact .single (.stage _ s.cmd.transfer)
    · exact Calms.runs (s.refuse_calm ..)
  · exact Calms.runs (s.refuse_calm ..)

theorem State.handControl_runs (s : State) (offset : Nat) (v : Word) : Runs F G s (s.handControl offset v) := by
  unfold State.handControl
  split
  · exact s.commandWord_runs v
  · split
    · exact s.parameterWord_runs ..
    · split
      · exact Calms.runs (.single (.command _ rfl (.inl rfl)))
      · split
        · exact Calms.runs (.single (.pending _))
        · exact .refl

theorem State.handOver_runs (s : State) (c : Classed) : Runs F G s (s.handOver c) := by
  unfold State.handOver
  split
  · exact s.handControl_runs ..
  · exact Calms.runs (s.consumerWrite_calm _)
  · exact Calms.runs (s.snooped_calm _)
  all_goals exact .refl

/-! ## Transfers (R29 to R31, R36, R181, R184) -/

theorem State.setupRead_runs {got : List Word} (h : F → ∃ m, s.cmd.hub = .loading m) : Runs F G s (s.setupRead got) := by
  unfold State.setupRead
  dsimp only
  split
  · refine State.loadFails_runs fun hg hm => ?_
    obtain ⟨m, hm'⟩ := h hg
    rw [hm'] at hm ⊢
    exact congrArg HubState.loading hm
  · let s1 : State := { s with path := { s.path with zones := some (Setup.ofWords got).zones } }
    let s2 : State := { s1 with cmd := { s1.cmd with setup := some (Setup.ofWords got) } }
    have h1 : Calms s s1 := .single (.zones _)
    have h2 : Calms s1 s2 := .single (.command _ rfl (.inl rfl))
    exact (Calms.runs (h1.trans h2)).trans (Run.one (.stage s2.cmd.collection _))

theorem State.imagesRead_runs {done : List (List Word)} {got : List Word} (h : F → s.cmd.hub = .loading .load) :
    Runs F G s (s.imagesRead done got) := by
  unfold State.imagesRead
  split
  · exact .refl
  · split
    · exact s.startTransfer_runs _
    · split
      · exact State.loadFails_runs fun hg _ => h hg
      · dsimp only
        split
        · exact s.startTransfer_runs _
        · exact (State.installTables_runs fun hg hq => hq.2.2 (.inr (h hg))).trans (State.startTransfer_runs ..)

theorem State.stagingRead_runs (s : State) (t : Table) (i addr : Nat) (got : List Word) : Runs F G s (s.stagingRead t i addr got) := by
  unfold State.stagingRead
  split
  · exact s.startTransfer_runs _
  · split
    · exact s.finish_runs ..
    · exact (Changes.runs (s.applyRecord_changes ..)).trans (State.startTransfer_runs ..)

theorem State.clearCounters_calm (s : State) : Calms s s.clearCounters := by
  let s1 : State := { s with lanes := s.lanes.map (fun l => { a := l.a.clearCounts, b := l.b.clearCounts }) }
  let s2 : State := { s1 with sm := { s1.sm with discarded := 0 } }
  let s3 : State := { s2 with sw := { s2.sw with counters := SwitchCore.cold.counters } }
  let s4 : State := { s3 with ring := { s3.ring with counters := RingCounters.zero } }
  let s5 : State := { s4 with time := { s4.time with steps := 0, setApplied := 0, discardedRefs := 0, intervalRejects := 0, watchExpiries := 0 } }
  let s6 : State := { s5 with cyc := { s5.cyc with counters := CycleCounters.zero } }
  let s7 : State := { s6 with alarm := { s6.alarm with ignored := 0 } }
  have h1 : Calms s s1 := .single (.lanes _)
  have h2 : Calms s1 s2 := .single (.manager s1.sm.q0Limit 0)
  have h3 : Calms s2 s3 := .single (.quietSw _ (SwitchCore.Keeps.of_stored rfl rfl rfl rfl fun _ _ h => h).admits rfl)
  have h4 : Calms s3 s4 := .single (.quietRing _ rfl)
  have h5 : Calms s4 s5 := .single (.clock _ (fun h => h.of_clock rfl rfl rfl rfl rfl rfl rfl) rfl)
  have h6 : Calms s5 s6 := .single (.quietCyc _ rfl fun _ h => h)
  have h7 : Calms s6 s7 := .single (.quietAlarm _ rfl rfl rfl)
  exact ((((((h1.trans h2).trans h3).trans h4).trans h5).trans h6).trans h7).tail .uncounted

theorem State.transferDone_runs {v : Word} (h : F → s.transferFits) : Runs F G s (s.transferDone v) := by
  unfold State.transferDone
  split
  · exact .refl
  · rename_i ht
    split
    · exact s.startTransfer_runs _
    · exact State.setupRead_runs fun hg => (h hg).2.1 _ _ ht
  · rename_i ht
    exact State.imagesRead_runs fun hg => (h hg).2.2 _ _ ht
  · split
    · exact s.startTransfer_runs _
    · exact s.enterService_runs
  · split
    · exact s.startTransfer_runs _
    · exact s.enterService_runs
  · split
    · exact s.startTransfer_runs _
    · refine Relation.ReflTransGen.trans ?_ (State.finishWith_runs ..)
      split
      · exact Calms.runs s.clearCounters_calm
      · exact .refl
  · exact s.stagingRead_runs ..
  · split
    · exact s.startTransfer_runs _
    · exact s.finishWith_runs ..

/-! ## Completions (R11, R136, R139) -/

theorem State.cycleWritten_runs (s : State) : Runs F G s s.cycleWritten := by
  unfold State.cycleWritten
  split
  · split
    · exact Calms.runs (.single (.quietCyc _ rfl fun _ h => by cases h))
    · unfold State.cycleMovesOn
      split
      · exact (Calms.runs s.cycleEnds_calm).trans (State.finishIf_runs ..)
      · exact Calms.runs (s.cycleGo_calm _)
  · exact .refl

theorem State.completed_runs {h : Held} {v : Word} (hf : F → s.transferFits) : Runs F G s (s.completed h v) := by
  unfold State.completed
  split
  · split
    · exact Calms.runs (.single (.deliver _))
    · exact .refl
  · exact .refl
  · exact .refl
  · exact State.transferDone_runs hf
  · split
    · exact Calms.runs (s.rxRead_calm v)
    · exact Calms.runs s.rxWritten_calm
  · split
    · exact Calms.runs (s.txRead_calm v)
    · exact Calms.runs s.txWritten_calm
  · split
    · exact Changes.runs (s.cycleRead_changes v)
    · exact s.cycleWritten_runs
  · exact Calms.runs s.logWordDone_calm

end Sys2Proof.Machine
end

section
/-! SUPPORT. The transfer of the command executing goes with the hub state (R28, R30, R35), through every completion; and the
rows, as chains of what the blocks do and what the port does. -/

namespace Sys2Proof.Machine

open Sys2Proof

variable {s t u : State} {F G : Prop}

/-! ## The stage that an operation leaves -/

theorem State.transferFits_of_none (h : s.cmd.transfer = none) : s.transferFits := by
  refine ⟨fun hs => ?_, fun _ _ hs => ?_, fun _ _ hs => ?_⟩ <;> rw [h] at hs <;> cases hs

theorem State.transferFits_congr (h : t.stage = s.stage) : t.transferFits ↔ s.transferFits := by
  rw [State.transferFits_iff, State.transferFits_iff, h]

theorem State.finish_fits (s : State) (code : Nat) (r : CmdResult) (item : FailItem) (clamped : Bool) :
    (s.finish code r item clamped).transferFits := State.transferFits_of_none rfl

theorem State.finishIf_fits {c : Command} (h : s.transferFits) : (s.finishIf c).transferFits := by
  unfold State.finishIf
  split
  · split
    · exact s.finish_fits ..
    · exact h
  · exact h

theorem State.setHub_stage (s : State) (h : HubState) : (s.setHub h).stage = { s.stage with hub := h } :=
  (Changes.stage (G := True) ((Calms.changes (State.judgeRelays_calm _)).trans (State.judgeAllSeated_changes _)))

theorem State.installTables_stage (s : State) (all : List (List Word)) : (s.installTables all).stage = s.stage := by
  unfold State.installTables
  extract_lets w m s1 w2 s2 pc s3 x
  have h3 : Changes True s2 s3 := State.putPoints_changes s2 (fun k => PointCfg.ofWords (w .alarmPoint k.val))
  have h2 : s2.stage = s.stage := rfl
  refine Eq.trans ?_ (h3.stage.trans h2)
  clear_value s3
  exact (State.putRefs_changes (G := True) s3 _).stage

theorem State.collection_of_stage {c : CmdStage} (h : t.stage = c) : t.cmd.collection = c.collection :=
  congrArg CmdStage.collection h

theorem State.hub_of_stage {c : CmdStage} (h : t.stage = c) : t.cmd.hub = c.hub := congrArg CmdStage.hub h

theorem State.transfer_of_stage {c : CmdStage} (h : t.stage = c) : t.cmd.transfer = c.transfer :=
  congrArg CmdStage.transfer h

theorem State.transfer_none_of_stage (h : t.stage = s.stage) (hx : s.cmd.transfer = none) : t.cmd.transfer = none :=
  (congrArg CmdStage.transfer h).trans hx

/-! ## Commands -/

theorem State.finishWhen_fits {x : State × Bool} {c : Command} (h : x.1.cmd.transfer = none) :
    (State.finishWhen x c).transferFits := by
  unfold State.finishWhen
  split
  · exact State.finish_fits ..
  · exact State.transferFits_of_none h

/-- A transfer that the executing command begins, other than the reading of images. -/
theorem State.startTransfer_fits {x : Transfer} (hc : ∃ o, s.cmd.collection = .executing o)
    (hs : ∀ addr got, x = .setup addr got → ∃ m, s.cmd.hub = .loading m)
    (hi : ∀ done got, x = .images done got → s.cmd.hub = .loading .load) : (s.startTransfer x).transferFits :=
  ⟨fun _ => hc, fun _ _ h => hs _ _ (Option.some.inj h), fun _ _ h => hi _ _ (Option.some.inj h)⟩

theorem State.loadSetupOp_fits {o : OpenCmd} (hc : s.cmd.collection = .executing o) (mode addr : Nat) :
    (s.loadSetupOp mode addr).transferFits := by
  unfold State.loadSetupOp
  split
  · exact State.finish_fits ..
  · split
    · exact State.finish_fits ..
    · split
      · exact State.finish_fits ..
      · rename_i m _ _ _
        have hst := s.setHub_stage (.loading m)
        refine State.startTransfer_fits ⟨o, (State.collection_of_stage hst).trans hc⟩ (fun _ _ _ => ?_)
          (fun _ _ h => nomatch h)
        exact ⟨m, State.hub_of_stage hst⟩

theorem State.shutdownOp_transfer (hx : s.cmd.transfer = none) : s.shutdownOp.cmd.transfer = none := by
  unfold State.shutdownOp
  have h1 : (s.setHub .shuttingDown).cmd.transfer = none := (State.transfer_of_stage (s.setHub_stage _)).trans hx
  refine State.transfer_none_of_stage (Changes.stage (G := True) ?_) h1
  exact (Calms.changes (State.alarmLeaves_calm _)).trans ((Calms.changes (State.cycleLeaves_calm _)).trans
    ((foldl_chain State.slotShutdown_changes _ _).trans (Calms.changes (State.ringHalt_calm _))))

theorem State.runCommand_fits {o : OpenCmd} (hc : s.cmd.collection = .executing o) (hx : s.cmd.transfer = none) :
    (s.runCommand o).transferFits := by
  have hcalm {t : State} (h : Calms s t) : t.cmd.transfer = none :=
    State.transfer_none_of_stage (Changes.stage (G := True) (Calms.changes h)) hx
  unfold State.runCommand
  dsimp only
  split
  · exact State.loadSetupOp_fits hc ..
  · exact State.transferFits_of_none (State.shutdownOp_transfer hx)
  · unfold State.snapshotOp
    split
    · exact State.startTransfer_fits ⟨o, hc⟩ (fun _ _ h => nomatch h) (fun _ _ h => nomatch h)
    · exact State.finish_fits ..
  · exact State.finish_fits ..
  · exact State.finish_fits ..
  · exact State.finish_fits ..
  · exact State.finishWhen_fits (hcalm s.ringStopOp_calm)
  · exact State.finish_fits ..
  · exact State.finishWhen_fits (hcalm s.cycleStopOp_calm)
  · exact State.finish_fits ..
  · exact State.finish_fits ..
  · exact State.finish_fits ..
  · unfold State.tableUpdateOp
    split
    · exact State.finish_fits ..
    · split
      · exact State.finish_fits ..
      · split
        · exact State.finish_fits ..
        · exact State.startTransfer_fits ⟨o, hc⟩ (fun _ _ h => nomatch h) (fun _ _ h => nomatch h)
  · split
    · exact State.finish_fits ..
    · exact State.finish_fits ..

theorem State.execute_fits {o : OpenCmd} (hx : s.cmd.transfer = none) : (s.execute o).transferFits := by
  unfold State.execute
  split
  · exact State.runCommand_fits rfl hx
  · exact State.finish_fits ..

theorem State.openCommand_fits {code count : Nat} (hx : s.cmd.transfer = none) : (s.openCommand code count).transferFits := by
  unfold State.openCommand
  dsimp only
  split
  · exact State.finish_fits ..
  · split
    · exact State.finish_fits ..
    · split
      · exact State.execute_fits hx
      · exact State.transferFits_of_none hx

theorem State.transferFits.none_of_collection (h : s.transferFits) (hc : ∀ o, s.cmd.collection ≠ .executing o) :
    s.cmd.transfer = none := by
  cases hx : s.cmd.transfer with
  | none => rfl
  | some x =>
    obtain ⟨o, ho⟩ := h.1 (by rw [hx]; rfl)
    exact absurd ho (hc o)

theorem State.refuse_fits {why : RefusalReason} {offset code : Nat} (h : s.transferFits) :
    (s.refuse why offset code).transferFits := h

theorem State.commandWord_fits {w : Word} (h : s.transferFits) : (s.commandWord w).transferFits := by
  unfold State.commandWord
  dsimp only
  split
  · exact State.refuse_fits h
  · split
    · exact State.refuse_fits h
    · exact State.openCommand_fits (s.cutShort_transfer _)
    · rename_i hc
      exact State.openCommand_fits (h.none_of_collection fun o ho => by rw [hc] at ho; cases ho)

theorem State.parameterWord_fits {k : Nat} {v : Word} (h : s.transferFits) : (s.parameterWord k v).transferFits := by
  unfold State.parameterWord
  split
  · rename_i hc
    have hx := h.none_of_collection fun o ho => by rw [hc] at ho; cases ho
    split
    · dsimp only
      split
      · exact State.execute_fits hx
      · exact State.transferFits_of_none hx
    · exact State.refuse_fits h
  · exact State.refuse_fits h

theorem Calms.transferFits (hc : Calms s t) (h : s.transferFits) : t.transferFits :=
  (State.transferFits_congr (Changes.stage (G := True) (Calms.changes hc))).mpr h

theorem State.handOver_fits {c : Classed} (h : s.transferFits) : (s.handOver c).transferFits := by
  unfold State.handOver
  split
  · unfold State.handControl
    split
    · exact State.commandWord_fits h
    · split
      · exact State.parameterWord_fits h
      · split
        · exact h
        · split
          · exact h
          · exact h
  · exact (s.consumerWrite_calm _).transferFits h
  · exact (s.snooped_calm _).transferFits h
  all_goals exact h

/-! ## Transfers -/

theorem State.enterService_fits (h : s.transferFits) : s.enterService.transferFits := by
  unfold State.enterService
  split
  · exact h
  · exact State.finish_fits ..

theorem State.setupRead_fits {addr : Nat} {got0 got : List Word} (h : s.transferFits)
    (ht : s.cmd.transfer = some (.setup addr got0)) : (s.setupRead got).transferFits := by
  obtain ⟨m, hm⟩ := h.2.1 _ _ ht
  obtain ⟨o, ho⟩ := h.1 (by rw [ht]; rfl)
  unfold State.setupRead
  dsimp only
  split
  · exact State.finish_fits ..
  · rw [hm]
    refine ⟨fun _ => ⟨o, ho⟩, fun _ _ hx => ?_, fun _ _ hx => ?_⟩
    · cases m <;> cases hx
    · cases m with
      | load => rfl
      | adopt => cases hx

theorem State.imagesRead_fits {done0 done : List (List Word)} {got0 got : List Word} (h : s.transferFits)
    (ht : s.cmd.transfer = some (.images done0 got0)) : (s.imagesRead done got).transferFits := by
  have hm := h.2.2 _ _ ht
  have hc := h.1 (by rw [ht]; rfl)
  have hstart (done : List (List Word)) (got : List Word) : (s.startTransfer (.images done got)).transferFits :=
    State.startTransfer_fits hc (fun _ _ h => nomatch h) (fun _ _ _ => hm)
  unfold State.imagesRead
  split
  · exact h
  · split
    · exact hstart ..
    · split
      · exact State.finish_fits ..
      · dsimp only
        split
        · exact hstart ..
        · refine State.startTransfer_fits ?_ (fun _ _ h => nomatch h) (fun _ _ h => nomatch h)
          obtain ⟨o, ho⟩ := hc
          exact ⟨o, (State.collection_of_stage (s.installTables_stage _)).trans ho⟩

theorem State.stagingRead_fits {k : Table} {i addr : Nat} {got : List Word} (hc : ∃ o, s.cmd.collection = .executing o) :
    (s.stagingRead k i addr got).transferFits := by
  unfold State.stagingRead
  split
  · exact State.startTransfer_fits hc (fun _ _ h => nomatch h) (fun _ _ h => nomatch h)
  · split
    · exact State.finish_fits ..
    · refine State.startTransfer_fits ?_ (fun _ _ h => nomatch h) (fun _ _ h => nomatch h)
      obtain ⟨o, ho⟩ := hc
      exact ⟨o, (State.collection_of_stage (State.applyRecord_changes (G := True) ..).stage).trans ho⟩

theorem State.transferDone_fits {v : Word} (h : s.transferFits) : (s.transferDone v).transferFits := by
  have hstart {x y : Transfer} (ht : s.cmd.transfer = some y) (hs : ∀ addr got, x = .setup addr got → ∃ m, s.cmd.hub = .loading m)
      (hi : ∀ done got, x ≠ .images done got) : (s.startTransfer x).transferFits :=
    State.startTransfer_fits (h.1 (by rw [ht]; rfl)) hs fun done got hx => absurd hx (hi done got)
  unfold State.transferDone
  split
  · exact h
  · rename_i ht
    split
    · exact hstart ht (fun _ _ _ => h.2.1 _ _ ht) (fun _ _ h => nomatch h)
    · exact State.setupRead_fits h ht
  · rename_i ht
    exact State.imagesRead_fits h ht
  · rename_i ht
    split
    · exact hstart ht (fun _ _ h => nomatch h) (fun _ _ h => nomatch h)
    · exact State.enterService_fits h
  · rename_i ht
    split
    · exact hstart ht (fun _ _ h => nomatch h) (fun _ _ h => nomatch h)
    · exact State.enterService_fits h
  · rename_i ht
    split
    · exact hstart ht (fun _ _ h => nomatch h) (fun _ _ h => nomatch h)
    · exact State.finish_fits ..
  · rename_i ht
    exact State.stagingRead_fits (h.1 (by rw [ht]; rfl))
  · rename_i ht
    split
    · exact hstart ht (fun _ _ h => nomatch h) (fun _ _ h => nomatch h)
    · exact State.finish_fits ..

theorem State.completed_fits {x : Held} {v : Word} (h : s.transferFits) : (s.completed x v).transferFits := by
  unfold State.completed
  split
  · split
    · exact h
    · exact h
  · exact h
  · exact h
  · exact State.transferDone_fits h
  · split
    · exact (s.rxRead_calm v).transferFits h
    · exact s.rxWritten_calm.transferFits h
  · split
    · exact (s.txRead_calm v).transferFits h
    · exact s.txWritten_calm.transferFits h
  · split
    · exact (State.transferFits_congr (State.cycleRead_changes (G := True) s v).stage).mpr h
    · unfold State.cycleWritten
      split
      · split
        · exact h
        · unfold State.cycleMovesOn
          split
          · exact State.finishIf_fits (s.cycleEnds_calm.transferFits h)
          · exact (s.cycleGo_calm _).transferFits h
      · exact h
  · exact s.logWordDone_calm.transferFits h

end Sys2Proof.Machine
end

section
/-! SUPPORT. Every row as a chain of what the blocks do (`Runs`) and what the port does (`PortStep`). -/

namespace Sys2Proof.Machine

open Sys2Proof

variable {s t u : State} {F G : Prop}

/-- What the memory port does by itself. -/
inductive PortStep (s : State) : State → Prop
  | mem (m : Memory) : PortStep s { s with mem := m }
  | path (p : MemoryPath) (hz : p.zones = s.path.zones) (hg : p.guardedCount = s.path.guardedCount)
      (hl : p.lastGuarded = s.path.lastGuarded) (hh : p.holder = s.path.holder ∨ ∀ x, p.holder ≠ some (.word x)) :
      PortStep s { s with path := p }
  | grant (who : Requester) : PortStep s (s.grant who)

/-- A part of a row. -/
inductive Row (s : State) : State → Prop
  | run {t : State} (h : Runs s.transferFits s.pollsFollow s t) (hf : s.transferFits → t.transferFits) : Row s t
  | port {t : State} (h : PortStep s t) : Row s t

/-- A chain of them. -/
abbrev Rows : State → State → Prop := Relation.ReflTransGen Row

/-- Work that a row does between one decision of the arbiter and the next. -/
abbrev Works : State → State → Prop :=
  Relation.ReflTransGen fun s t => Runs s.transferFits s.pollsFollow s t ∧ (s.transferFits → t.transferFits)

theorem Works.rows (h : Works s t) : Rows s t := by
  induction h with
  | refl => exact .refl
  | tail _ hc ih => exact ih.tail (.run hc.1 hc.2)

theorem Changes.works (h : Changes s.pollsFollow s t) : Works s t :=
  .single ⟨h.runs, (State.transferFits_congr h.stage).mpr⟩

theorem Calms.works (h : Calms s t) : Works s t := Changes.works (Calms.changes h)

theorem PortStep.rows (h : PortStep s t) : Rows s t := .single (.port h)

theorem Changes.rows (h : Changes s.pollsFollow s t) : Rows s t :=
  .single (.run h.runs (State.transferFits_congr h.stage).mpr)

theorem Calms.rows (h : Calms s t) : Rows s t := Changes.rows (Calms.changes h)

/-! ## The arbiter (R11, R12) -/

theorem State.fillRing_calm (s : State) : Calms s s.fillRing := by
  unfold State.fillRing
  split
  · exact .refl
  · split <;> exact .single (.quietRing _ rfl)

theorem State.fill_calm (s : State) : Calms s s.fill := s.fillCommand_calm.trans (State.fillRing_calm _)

theorem State.arrived_rows (s : State) (c : Classed) : Rows s (s.arrived c) := by
  unfold State.arrived
  split
  · exact PortStep.rows (.path _ rfl rfl rfl (.inl rfl))
  · exact .refl

theorem State.nextAccess_rows (l : List BusAccess) (s : State) : Rows s (State.nextAccess l s) := by
  induction l generalizing s with
  | nil => exact PortStep.rows (.path _ rfl rfl rfl (.inl rfl))
  | cons acc rest ih =>
    unfold State.nextAccess
    dsimp only
    split
    · exact (Calms.rows (s.guardHit_calm _)).trans (ih _)
    · exact (s.arrived_rows _).trans (PortStep.rows (.path _ rfl rfl rfl (.inl rfl)))

theorem State.bringAccess_rows (s : State) : Rows s s.bringAccess := by
  unfold State.bringAccess
  split
  · exact .refl
  · exact State.nextAccess_rows ..

theorem State.arbitrate_rows (s : State) : Rows s s.arbitrate := by
  have hc (c : Classed) (n : Nat) : Rows s (s.grantController c n) :=
    PortStep.rows (.path _ rfl rfl rfl (.inr fun x h => by cases h))
  unfold State.arbitrate
  split
  · exact .refl
  · split
    · exact .refl
    · exact PortStep.rows (.grant _)
    · exact hc _ _
    · split
      · exact hc _ _
      · exact PortStep.rows (.grant _)

theorem State.settle_rows (s : State) : Rows s s.settle :=
  s.bringAccess_rows.trans ((Calms.rows (State.fill_calm _)).trans ((State.arbitrate_rows _).trans (Calms.rows (State.fill_calm _))))

/-! ## Completions (R11) -/

theorem State.release_rows (s : State) : Rows s s.release := PortStep.rows (.path _ rfl rfl rfl (.inr fun x h => by cases h))

theorem State.perform_rows (s : State) (acc : BusAccess) : Rows s (s.perform acc) := by
  unfold State.perform
  split
  · exact PortStep.rows (.path _ rfl rfl rfl (.inl rfl))
  · exact PortStep.rows (.mem _)

theorem State.performDma_rows (s : State) (op : DmaOp) : Rows s (s.performDma op).1 := by
  unfold State.performDma
  split
  · exact .refl
  · exact PortStep.rows (.mem _)

theorem State.complete_rows (s : State) : Rows s s.complete := by
  unfold State.complete
  split
  · exact .refl
  · exact (s.release_rows.trans (State.perform_rows ..)).trans (.single (.run (State.handOver_runs ..) State.handOver_fits))
  · exact (s.release_rows.trans (State.performDma_rows ..)).trans
      (.single (.run (State.completed_runs id) State.completed_fits))

theorem State.portComplete_rows (s : State) : Rows s s.portComplete := s.complete_rows.trans (State.settle_rows _)

theorem State.engaged_rows (s : State) : Rows s s.engaged := by
  unfold State.engaged
  split
  · exact .refl
  · exact s.settle_rows

theorem State.runPort_rows {p : State → Held → Bool} (fuel : Nat) (h : State.runPort p fuel s = some t) : Rows s t := by
  induction fuel generalizing s with
  | zero => exact nomatch h
  | succ k ih =>
    unfold State.runPort at h
    split at h
    · exact nomatch h
    · exact s.portComplete_rows.trans (ih h)
    · split at h
      · exact Option.some.inj h ▸ s.portComplete_rows
      · exact s.portComplete_rows.trans (ih h)

theorem State.awaitPort_rows (s : State) (p : State → Held → Bool) : Rows s (s.awaitPort p) := by
  unfold State.awaitPort
  split
  · exact s.engaged_rows.trans (State.runPort_rows _ ‹_›)
  · exact s.engaged_rows

theorem State.serve_rows (fuel : Nat) (s : State) : Rows s (s.serve fuel) := by
  induction fuel generalizing s with
  | zero => exact .refl
  | succ k ih =>
    unfold State.serve
    split
    · exact s.portComplete_rows.trans (ih _)
    · exact .refl

theorem State.busAccesses_rows (s : State) (accs : List BusAccess) : Rows s (s.busAccesses accs) := by
  have hline : PortStep s { s with path := { s.path with line := s.path.line ++ accs } } := .path _ rfl rfl rfl (.inl rfl)
  have h1 := hline.rows.trans (State.settle_rows _)
  unfold State.busAccesses
  dsimp only
  split
  · exact h1
  · exact h1.trans (State.serve_rows ..)

/-! ## Controller reset (R15, R37) -/

theorem State.resetPort_rows (s : State) : Rows s s.resetPort := by
  unfold State.resetPort
  dsimp only
  exact ((Calms.rows (.single (.dropHeld _))).trans (State.complete_rows _)).trans
    (PortStep.rows (.path _ rfl rfl rfl (.inl rfl)))

/-- The part of a controller reset after the port's (R37). -/
def State.resetBlocks (s : State) : State :=
  let s2 := s.resetTables.resetLog.ringReset
  let s3 := (s2.setCyc s2.cyc.idle).emptyZones
  let s4 := s3.setHub s3.cmd.hub.afterReset
  { s4 with cmd := s4.cmd.reset }

theorem State.controllerResets_eq (s : State) : s.controllerResets = s.resetPort.resetBlocks := rfl

theorem State.resetTables_runs (s : State) : Runs F G s s.resetTables := by
  unfold State.resetTables
  split
  · exact State.emptyTables_runs fun _ hq => hq.2.2 (.inr ‹_›)
  · exact .refl

theorem State.resetLog_calm (s : State) : Calms s s.resetLog := by
  unfold State.resetLog
  split
  · exact s.alarmLeaves_calm
  · exact .refl

theorem HubState.afterReset_idle {h : HubState} (hr : h.afterReset = .unconfigured ∨ h.afterReset = .loading .load) :
    h = .unconfigured ∨ h = .loading .load := by
  cases h with
  | unconfigured => exact .inl rfl
  | loading m =>
    cases m with
    | load => exact .inr rfl
    | adopt => rcases hr with hr | hr <;> cases hr
  | _ => rcases hr with hr | hr <;> cases hr

theorem State.resetBlocks_runs (s : State) : Runs F G s s.resetBlocks := by
  refine Relation.ReflTransGen.tail ?_ .reset
  refine Relation.ReflTransGen.trans ?_ (State.setHub_runs fun _ hq h => hq.2.2 (HubState.afterReset_idle h))
  exact (s.resetTables_runs.trans (Calms.runs ((State.resetLog_calm _).trans (State.ringReset_calm _)))).trans
    (Calms.runs ((Relation.ReflTransGen.single (.leavesEntry _ fun _ => rfl)).trans (State.emptyZones_calm _)))

theorem State.emptyTables_stage (s : State) : s.emptyTables.stage = s.stage := by
  unfold State.emptyTables
  extract_lets m s1 w2 s2 s3 x
  have h3 : Changes True s2 s3 := State.emptyPoints_changes s2
  have h2 : s2.stage = s.stage := rfl
  refine Eq.trans ?_ (h3.stage.trans h2)
  clear_value s3
  exact (State.putRefs_changes (G := True) s3 _).stage

/-- R33: a shutdown that completes leaves no LOADING behind. -/
theorem State.completeShutdown_fits (hs : s.cmd.hub = .shuttingDown) (h : s.transferFits) : s.completeShutdown.transferFits := by
  refine State.finishIf_fits ?_
  have hst : ((s.emptyTables.emptyZones).setHub .unconfigured).stage = { s.stage with hub := .unconfigured } := by
    have hz (u : State) : u.emptyZones.stage = u.stage := rfl
    rw [State.setHub_stage, hz, State.emptyTables_stage]
  rw [State.transferFits_iff, hst]
  obtain ⟨hexec, hsetup, himages⟩ := h
  refine ⟨hexec, fun addr got hx => ?_, fun done got hx => ?_⟩
  · obtain ⟨m, hm⟩ := hsetup addr got hx
    rw [hs] at hm
    cases hm
  · have hm := himages done got hx
    rw [hs] at hm
    cases hm

theorem State.controllerResets_rows (s : State) : Rows s s.controllerResets :=
  s.resetPort_rows.trans (.single (.run (State.resetBlocks_runs _) fun _ => State.transferFits_of_none rfl))

/-! ## Rows -/

/-- What a row other than a cold reset is: accesses of the controller, the port working up to one access, work of the blocks
with a decision of the arbiter after it, the completion of one access, or a controller reset. -/
inductive RowKind (c : Instr) (s : State) : State → Prop
  | bus (accs : List BusAccess) : RowKind c s (s.busAccesses accs)
  | await (p : State → Held → Bool) (h : rowAwaits c = true) : RowKind c s (s.awaitPort p)
  | work {u : State} (h : Works s u) : RowKind c s u.settle
  | complete : RowKind c s s.engaged.portComplete
  | reset : RowKind c s s.controllerResets.settle

theorem exec_rowKind {c : Instr} (hc : c ≠ .coldReset) (e : exec c s = .next t) : RowKind c s t := by
  have bus {accs : List BusAccess} (e : Host.Outcome.next (s.busAccesses accs) = (.next t : Out)) : RowKind c s t :=
    Host.Outcome.next.inj e ▸ .bus accs
  have await {p : State → Held → Bool} (h : rowAwaits c = true)
      (e : Host.Outcome.next (s.awaitPort p) = (.next t : Out)) : RowKind c s t := Host.Outcome.next.inj e ▸ .await p h
  have settled_works {u : State} (h : Works s u) (e : settled u = .next t) : RowKind c s t :=
    Host.Outcome.next.inj e ▸ .work h
  have work {u : State} (h : Changes s.pollsFollow s u) (e : settled u = .next t) : RowKind c s t :=
    settled_works h.works e
  have calm {u : State} (h : Calms s u) (e : settled u = .next t) : RowKind c s t := settled_works h.works e
  cases c with
  | controllerRead | plainWrite | partialControlWrite | guardedWrite | snoopedRingWrite | parameterWrite
  | attentionMaskWrite | attentionAcknowledge | consumerIndexWrite | unknownCommand | loadSetup | shutdown
  | counterSnapshot | setDiscipline | setTime | ringStart | ringStop | cycleStart | cycleStop | slotRelease | slotRetry
  | slotOverride | tableUpdate | alarmReset => exact bus e
  | setupBlockReadDone | loadImagesReadDone | loadWritebackDone | adoptWriteoutDone | statusRewriteDone
  | counterSnapshotDone | stagingRecordReadDone | imageEntryRewriteDone | imageWordRewriteDone | rxWalkEnd
  | rxPlacementDone | rxFrameDelivered | rxMissMarkerDone | txExamineDone | txChainJudge | txLoadComplete | txReturnDone
  | cycleEntryFetchDone | cycleWriteBackDone | logEntryWritten => exact await rfl e
  | portAccessComplete => exact Host.Outcome.next.inj e ▸ .complete
  | controllerReset => exact Host.Outcome.next.inj e ▸ .reset
  | coldReset => exact absurd rfl hc
  | shutdownComplete =>
    refine settled_works ?_ e
    split
    · rename_i hready
      simp only [State.shutdownReady, Bool.and_eq_true, List.all_eq_true, Bool.or_eq_true, beq_iff_eq] at hready
      obtain ⟨⟨⟨hhub, hslots⟩, -⟩, -⟩ := hready
      exact .single ⟨State.completeShutdown_runs fun i => hslots i (List.mem_finRange i),
        State.completeShutdown_fits hhub⟩
    · exact .refl
  | trainingComplete i p => exact work (s.laneTrained_changes i p) e
  | lossOfSignal i p => exact work (s.laneLost_changes i p) e
  | frameStartReceived i p bs => exact calm (s.frameStart_calm i p bs) e
  | frameEndReceived i p bs => exact work (State.frameEnd_changes id) e
  | frameTransmitEnd i p => exact work (s.transmitEnd_changes i p) e
  | presenceArrival i => exact calm (s.presenceOn_calm i) e
  | presenceLoss i => exact work (s.presenceOff_changes i) e
  | latchClosed i => exact work (s.latchOn_changes i) e
  | latchOpened i => exact work (s.latchOff_changes i) e
  | powerGoodArrival i => exact work (s.powerGoodOn_changes i) e
  | powerGoodLoss i => exact work (s.powerGoodOff_changes i) e
  | presenceDebounceExpiry i => exact work (State.onSlotTimer_changes fun _ _ => State.enterSeated_changes rfl) e
  | powerGoodWaitExpiry i =>
    exact work (State.onSlotTimer_changes fun _ h => State.enterFaulted_changes (State.seats_of_state h)) e
  | trainingTimerExpiry i =>
    exact work (State.onSlotTimer_changes fun _ h => State.enterFaulted_changes (State.seats_of_state h)) e
  | identWaitExpiry i =>
    exact work (State.onSlotTimer_changes fun _ h => State.identExpired_changes (State.seats_of_state h)) e
  | drainTimerExpiry i =>
    exact work (State.onSlotTimer_changes fun _ h => State.endDrain_changes (State.seats_of_state h)) e
  | backoffExpiry i =>
    exact work (State.onSlotTimer_changes fun _ h => State.backoffDone_changes (State.seats_of_state h)) e
  | drainEnd i =>
    refine work ?_ e
    split
    · rename_i h
      simp only [Bool.and_eq_true, decide_eq_true_eq] at h
      exact State.endDrain_changes (State.seats_of_state h.1)
    · exact .refl
  | pollResponseTimeout =>
    refine work ?_ e
    split
    · exact (s.advanceTo_changes _).trans (State.pollTimeout_changes _)
    · exact .refl
  | alarmScan => exact work ((s.advanceTo_changes _).trans (State.scanNow_changes _)) e
  | ringHaltComplete =>
    refine settled_works ?_ e
    split
    · exact (Calms.works s.ringStopped_calm).trans (.single ⟨State.finishIf_runs .., State.finishIf_fits⟩)
    · exact .refl
  | heldFrameReoffer => exact calm s.txReoffer_calm e
  | rxMovementStart =>
    refine calm ?_ e
    split
    · exact s.rxStart_calm
    · exact .refl
  | rxHoldExpiry => exact work s.onHold_changes e
  | rollover => exact work (s.advance_changes _) e
  | ppsOutPulseEnd =>
    refine work ?_ e
    split
    · exact (s.advanceTo_changes _).trans (Calms.changes (State.ppsOutEnds_calm _))
    · exact .refl
  | ppsInEdge => exact work s.ppsEdge_changes e
  | referenceWatchExpiry k =>
    refine work ?_ e
    split
    · exact (s.advanceTo_changes _).trans (State.watchEnds_changes _ k)
    · exact .refl
  | waitGapExpiry =>
    refine work ?_ e
    split
    · exact (s.advanceTo_changes _).trans (Calms.changes (State.endWait_calm ..))
    · exact .refl
  | waitBoundaryReached =>
    refine work ?_ e
    split
    · exact s.advance_changes _
    · exact .refl
  | oscillatorPeriod n => exact work (s.advance_changes n) e
  | contactLevelChange input closed => 
    have h1 : Calm s { s with alarm := { s.alarm with contacts := vset s.alarm.contacts input closed } } :=
      .quietAlarm _ rfl rfl rfl
    exact calm h1.one e

/-- Every row but a cold reset. -/
theorem exec_rows {c : Instr} (hc : c ≠ .coldReset) (e : exec c s = .next t) : Rows s t := by
  cases exec_rowKind hc e with
  | bus accs => exact s.busAccesses_rows accs
  | await p _ => exact s.awaitPort_rows p
  | work h => exact h.rows.trans (State.settle_rows _)
  | complete => exact s.engaged_rows.trans (State.portComplete_rows _)
  | reset => exact s.controllerResets_rows.trans (State.settle_rows _)

end Sys2Proof.Machine
end

section
/-! SUPPORT. The invariants of the time base, of the pool and of the points: each is kept by every change, so by every row. -/

namespace Sys2Proof.Machine

open Sys2Proof

variable {s t u : State} {F G : Prop}

/-- An invariant that the changes, the port and a cold reset keep, every step keeps. -/
theorem step_keeps_of {P : State → Prop} (hq : ∀ (s : State) (q : List Instr), P s → P { s with pending := q })
    (hrow : ∀ {s t}, Row s t → P s → P t) (hcold : ∀ {s}, P s → P s.coldResets) (h : P s) (e : step s = .next t) : P t := by
  refine step_keeps hq (fun c s t h e => ?_) h e
  by_cases hc : c = .coldReset
  · subst hc
    exact Host.Outcome.next.inj e ▸ hcold h
  · exact chain_keeps hrow (exec_rows hc e) h

/-! ## What the port leaves alone -/

theorem State.core_of_apart (h : t.apart = s.apart) : t.sm = s.sm ∧ t.time = s.time ∧ t.sw = s.sw ∧ t.cyc = s.cyc ∧
    t.alarm = s.alarm ∧ t.stage = s.stage := by
  have hs (u : State) : u.apart.stage = u.stage := rfl
  refine ⟨State.sm_eq_of_apart h, State.time_eq_of_apart h, State.sw_eq_of_apart h, State.cyc_eq_of_apart h,
    State.alarm_eq_of_apart h, ?_⟩
  rw [← hs t, h, hs s]

theorem PortStep.core (h : PortStep s t) : t.sm = s.sm ∧ t.time = s.time ∧ t.sw = s.sw ∧ t.cyc = s.cyc ∧
    t.alarm = s.alarm ∧ t.stage = s.stage := by
  cases h with
  | grant who => exact State.core_of_apart (s.grant_apart who)
  | _ => exact ⟨rfl, rfl, rfl, rfl, rfl, rfl⟩

/-! ## O6, O7 -/

theorem Run.keeps_of_bares {P : State → Prop} (hb : ∀ {s t}, Bare s t → P s → P t)
    (hcmd : ∀ (s : State) (c : CommandUnit), P s → P { s with cmd := c })
    (hsm : ∀ (s : State) (m : SlotManager), P s → P { s with sm := m }) (h : Run F G s t) (hs : P s) : P t := by
  cases h with
  | change h => exact chain_keeps hb h.bares hs
  | stage c x => exact hcmd _ _ hs
  | hub x _ => exact hcmd s (retouch [0x31] s { s with cmd := { s.cmd with hub := x } }).cmd hs
  | install c q _ => exact hsm _ _ hs
  | reset => exact hcmd _ _ hs

theorem Runs.keeps_of_bares {P : State → Prop} (hb : ∀ {s t}, Bare s t → P s → P t)
    (hcmd : ∀ (s : State) (c : CommandUnit), P s → P { s with cmd := c })
    (hsm : ∀ (s : State) (m : SlotManager), P s → P { s with sm := m }) (h : Runs F G s t) (hs : P s) : P t :=
  chain_keeps (P := P) (fun h hs => h.keeps_of_bares hb hcmd hsm hs) h hs

theorem TimeBase.inRange_cold : TimeBase.cold.inRange :=
  ⟨by decide, by decide, by decide, by decide, by decide, by decide, fun _ h => nomatch h⟩

/-- Settles O6, through the changes of the time base and the bound on a run of oscillator periods (`TimeBase.glide_lt`). -/
theorem timeStaysInRange : Obligations.TimeStaysInRange := by
  unfold Obligations.TimeStaysInRange
  intro s t h e
  refine step_keeps_of (P := fun s => s.time.inRange) (fun _ _ h => h) (fun h hs => ?_) (fun _ => ?_) h e
  · cases h with
    | run h _ =>
      exact Runs.keeps_of_bares (P := fun s => s.time.inRange) Bare.time_inRange (fun _ _ h => h) (fun _ _ h => h) h hs
    | port h =>
      obtain ⟨-, htime, -⟩ := h.core
      exact htime ▸ hs
  · exact TimeBase.inRange_cold

/-- Settles O7: every change of the switch core keeps the pool whole (`State.admits`). -/
theorem poolStaysWhole : Obligations.PoolStaysWhole := by
  unfold Obligations.PoolStaysWhole
  intro s t h e
  refine step_keeps_of (P := fun s => s.sw.poolKept) (fun _ _ h => h) (fun h hs => ?_) (fun _ => ?_) h e
  · cases h with
    | run h _ =>
      exact Runs.keeps_of_bares (P := fun s => s.sw.poolKept) Bare.poolKept (fun _ _ h => h) (fun _ _ h => h) h hs
    | port h =>
      obtain ⟨-, -, hsw, -⟩ := h.core
      exact hsw ▸ hs
  · exact ⟨rfl, List.nodup_nil, fun _ h => nomatch h⟩

end Sys2Proof.Machine
end

section
/-! SUPPORT. R165, R172 and R147 (O10): the points and the polls follow the slots in ADMITTED. -/

namespace Sys2Proof.Machine

open Sys2Proof

variable {s t u : State} {F G : Prop}

/-! ## Changes that leave the points alone -/

/-- The points and the slot states stay, and no poll attempt begins. -/
structure Drift (s t : State) : Prop where
  points : t.alarm.points = s.alarm.points
  attempts : ∀ i, (t.cyc.attempt? i).isSome → (s.cyc.attempt? i).isSome
  states : ∀ i, (t.slot i).state = (s.slot i).state

theorem Drift.refl (s : State) : Drift s s := ⟨rfl, fun _ => id, fun _ => rfl⟩

theorem Drift.trans (h : Drift s t) (k : Drift t u) : Drift s u :=
  ⟨k.points.trans h.points, fun i => h.attempts i ∘ k.attempts i, fun i => (k.states i).trans (h.states i)⟩

theorem Drift.of_sm (hp : t.alarm.points = s.alarm.points) (hc : t.cyc = s.cyc) (hm : t.sm = s.sm) : Drift s t :=
  ⟨hp, fun i h => by rwa [hc] at h, fun i => by rw [State.slot, hm]; rfl⟩

theorem State.putSlot_slot (s : State) (i : Slot) (e : SlotEntry) : (s.putSlot i e).sm = (s.setSlot i e).sm := by
  unfold State.putSlot
  dsimp only
  split <;> rfl

theorem State.putSlot_slot_self (s : State) (i : Slot) (e : SlotEntry) : (s.putSlot i e).slot i = e :=
  (congrArg (fun m : SlotManager => vget m.slots i) (s.putSlot_slot i e)).trans (s.slot_setSlot_self i e)

theorem State.putSlot_slot_ne (s : State) {i j : Slot} (e : SlotEntry) (h : i ≠ j) : (s.putSlot i e).slot j = s.slot j :=
  (congrArg (fun m : SlotManager => vget m.slots j) (s.putSlot_slot i e)).trans (s.slot_setSlot_ne e h)

theorem State.cyc_of_course (h : t.course = s.course) : t.cyc = s.cyc := congrArg (fun x => x.2.2.1) h

theorem State.points_of_course (h : t.course = s.course) : t.alarm.points = s.alarm.points := congrArg (fun x => x.2.2.2.1) h

/-- A slot's entry replaced by one in the same service. -/
theorem State.putSlot_service {i : Slot} {e : SlotEntry} (h : e.service = (s.slot i).service) (j : Slot) :
    ((s.putSlot i e).slot j).service = (s.slot j).service := by
  by_cases hj : i = j
  · subst hj
    rw [State.putSlot_slot_self, h]
  · rw [State.putSlot_slot_ne _ _ hj]

theorem State.setSlot_service {i : Slot} {e : SlotEntry} (h : e.service = (s.slot i).service) (j : Slot) :
    ((s.setSlot i e).slot j).service = (s.slot j).service := by
  by_cases hj : i = j
  · subst hj
    rw [State.slot_setSlot_self, h]
  · rw [State.slot_setSlot_ne _ _ hj]

theorem SlotEntry.state_of_service {e f : SlotEntry} (h : e.service = f.service) : e.state = f.state :=
  congrArg (fun x => x.1) h

theorem Calm.service (h : Calm s t) (i : Slot) : (t.slot i).service = (s.slot i).service := by
  cases h with
  | entry j e h => exact State.putSlot_service h i
  | pins j e h _ => exact State.setSlot_service h i
  | dropHeld p =>
    unfold State.dropHeld
    (repeat' split) <;> rfl
  | _ => rfl

theorem Calm.drift (h : Calm s t) : Drift s t := by
  refine ⟨?_, ?_, fun i => SlotEntry.state_of_service (h.service i)⟩
  · cases h with
    | entry i e _ => exact State.points_of_course (s.putSlot_course i e)
    | dropHeld p => exact State.points_of_course (s.dropHeld_course p)
    | alarm a h => exact h
    | _ => rfl
  · intro i hi
    cases h with
    | entry j e _ => rwa [State.cyc_of_course (s.putSlot_course j e)] at hi
    | dropHeld p => rwa [State.cyc_of_course (s.dropHeld_course p)] at hi
    | cyc c h => exact h i hi
    | glide o x d _ _ => exact (s.cyc.shift_attempt d i) ▸ hi
    | _ => exact hi

theorem Calms.drift (h : Calms s t) : Drift s t :=
  chain_keeps (P := fun u => Drift s u) (fun h hs => hs.trans h.drift) h (.refl s)

theorem State.takeQuality_drift (s : State) (q : Nat) : Drift s (s.takeQuality q) := by
  have h1 : Drift s { s with sw := { s.sw with quality := q } } := .of_sm rfl rfl rfl
  refine h1.trans (Calms.drift (foldl_chain (fun s i => ?_) _ _))
  split
  · exact s.flush_calm ..
  · exact .refl

theorem State.putTime_drift {x : TimeBase} (h : s.time.inRange → x.inRange) : Drift s (s.putTime x) := by
  have h1 : Drift s (reimage refImageWords s (retouch [0x34, 0x35, 0x36, 0x37] s { s with time := x })) :=
    Calm.drift (.time x h)
  unfold State.putTime
  dsimp only
  split
  · exact h1
  · exact h1.trans ((State.takeQuality_drift _ _).trans (Calm.drift (.deliver _)))

/-! ## The points of a card cleared -/

theorem State.movePoint_point (s : State) (k : Fin 64) (p : Point) (j : Fin 64) :
    (s.movePoint k p).point j = if j = k then p else s.point j := by
  have hp : (s.movePoint k p).alarm.points = vset s.alarm.points k p := by
    unfold State.movePoint
    dsimp only
    split
    · rfl
    · change (State.alarm (if _ then _ else _)).points = _
      split
      · exact State.placeChange_points ..
      · split
        · exact State.placeChange_points ..
        · rfl
  unfold State.point
  rw [hp]
  by_cases h : j = k
  · subst h
    rw [vget_vset_self, if_pos rfl]
  · rw [vget_vset_ne _ _ (Ne.symm h), if_neg h]

/-- R172: a point of the card in a slot. -/
def Point.ofCard (p : Point) (i : Slot) : Bool := p.cfg.kind.isCard && p.cfg.which = i.val + 1

theorem State.clearCardPoints_point (s : State) (i : Slot) (j : Fin 64) :
    (s.clearCardPoints i).point j = if (s.point j).ofCard i then (s.point j).cleared else s.point j := by
  have hstep (u : State) (k : Fin 64) :
      (if (u.point k).ofCard i then u.movePoint k (u.point k).cleared else u).point j =
        if k = j ∧ (u.point j).ofCard i = true then (u.point j).cleared else u.point j := by
    by_cases hk : k = j
    · subst hk
      split
      · rename_i h
        rw [State.movePoint_point, if_pos rfl, if_pos ⟨rfl, h⟩]
      · rename_i h
        rw [if_neg (not_and_of_not_right _ h)]
    · rw [if_neg (not_and_of_not_left _ hk)]
      split
      · rw [State.movePoint_point, if_neg (Ne.symm hk)]
      · rfl
  have hfold (l : List (Fin 64)) (u : State) : (l.foldl (fun (u : State) k =>
      if (u.point k).ofCard i then u.movePoint k (u.point k).cleared else u) u).point j =
        if j ∈ l ∧ (u.point j).ofCard i = true then (u.point j).cleared else u.point j := by
    induction l generalizing u with
    | nil => simp
    | cons k l ih =>
      rw [List.foldl_cons, ih, hstep]
      by_cases hk : k = j
      · subst hk
        by_cases hc : (u.point k).ofCard i = true
        · have hcc : (u.point k).cleared.cleared = (u.point k).cleared := rfl
          simp [hc, hcc]
        · simp [hc]
      · simp [hk, Ne.symm hk]
  refine (hfold (List.finRange 64) s).trans ?_
  simp [List.mem_finRange]

theorem State.clearCardPoints_cyc (s : State) (i : Slot) : (s.clearCardPoints i).cyc = s.cyc ∧ (s.clearCardPoints i).sm = s.sm := by
  unfold State.clearCardPoints
  induction List.finRange 64 generalizing s with
  | nil => exact ⟨rfl, rfl⟩
  | cons k l ih =>
    obtain ⟨h1, h2⟩ := ih (if (s.point k).ofCard i then s.movePoint k (s.point k).cleared else s)
    have hm : (if (s.point k).ofCard i then s.movePoint k (s.point k).cleared else s).cyc = s.cyc ∧
        (if (s.point k).ofCard i then s.movePoint k (s.point k).cleared else s).sm = s.sm := by
      split
      · obtain ⟨hsm, hcyc, -⟩ := s.movePoint_sm k (s.point k).cleared
        exact ⟨hcyc, hsm⟩
      · exact ⟨rfl, rfl⟩
    exact ⟨h1.trans hm.1, h2.trans hm.2⟩

/-! ## A slot's entry replaced -/

/-- R77: the points and the attempts after a slot's entry has been replaced: a slot that leaves ADMITTED clears the points of its
card. -/
theorem State.changeSlot_points (s : State) (i : Slot) (new : SlotEntry) :
    (∀ k, (s.changeSlot i new).point k =
      if (s.slot i).state = .admitted ∧ new.state ≠ .admitted ∧ (s.point k).ofCard i = true then (s.point k).cleared
      else s.point k) ∧
      ∀ j, ((s.changeSlot i new).cyc.attempt? j).isSome → (s.cyc.attempt? j).isSome := by
  unfold State.changeSlot
  extract_lets old s1 s2 s3 s4 s5
  have h1 : s1.alarm.points = s.alarm.points := State.points_of_course (s.putSlot_course i new)
  have c1 : s1.cyc = s.cyc := State.cyc_of_course (s.putSlot_course i new)
  have h2 : Drift s1 s2 := by
    unfold s2
    split
    · exact .refl _
    · exact Calms.drift s1.roomReport_calm
  have h3 : Drift s2 s3 := by
    unfold s3
    split
    · exact Calms.drift (s2.flushBoth_calm i)
    · exact .refl _
  have h5 : Drift s4 s5 := by
    unfold s5
    split
    · exact State.putTime_drift fun h => h.disqualified i
    · exact .refl _
  have h6 : Drift s5 (if (decide (old.state = new.state) && decide (old.active = new.active)) = true then s5 else s5.kickSlot i) := by
    split
    · exact .refl _
    · exact Calms.drift (s5.kickSlot_calm i)
  have h13 : ∀ k, s3.point k = s.point k := fun k => congrArg (fun v => vget v k) ((h2.trans h3).points.trans h1)
  have h46 := h5.trans h6
  refine ⟨fun k => ?_, fun j hj => ?_⟩
  · refine Eq.trans (b := s4.point k) (congrArg (fun v => vget v k) h46.points) ?_
    change s4.point k = _
    unfold s4
    split
    · rename_i hc
      simp only [Bool.and_eq_true, decide_eq_true_eq] at hc
      rw [State.clearCardPoints_point, h13]
      by_cases hk : (s.point k).ofCard i = true
      · rw [if_pos hk, if_pos ⟨hc.1, hc.2, hk⟩]
      · rw [if_neg hk, if_neg fun h => hk h.2.2]
    · rename_i hc
      simp only [Bool.and_eq_true, decide_eq_true_eq, not_and] at hc
      rw [if_neg fun h => hc h.1 h.2.1, h13]
  · have hj4 : (s4.cyc.attempt? j).isSome := h46.attempts j hj
    have hj3 : (s3.cyc.attempt? j).isSome := by
      unfold s4 at hj4
      split at hj4
      · rwa [(s3.clearCardPoints_cyc i).1] at hj4
      · exact hj4
    exact c1 ▸ (h2.trans h3).attempts j hj3

/-- R147: no attempt of the slot is left. -/
theorem State.pollLeaves_attempt (s : State) (i : Slot) : (s.pollLeaves i).cyc.attempt? i = none := by
  have hend (u : State) (a : Addr) (ws : List Word) (w : PollWork) : (u.pollAbsent a ws w).cyc.attempt? i = none := rfl
  unfold State.pollLeaves
  split
  · rename_i a ws w hrun
    split
    · exact hend ..
    · rename_i hno
      simp only [Bool.and_eq_true, decide_eq_true_eq, not_and, Bool.not_eq_true, Option.isSome_eq_false_iff,
        Option.isNone_iff_eq_none] at hno
      rw [← State.attemptOf_eq]
      unfold State.attemptOf
      rw [hrun]
      dsimp only
      split
      · exact hno ‹_›
      · rfl
  · rename_i hrun
    rw [← State.attemptOf_eq]
    unfold State.attemptOf
    rw [hrun]

/-! ## The invariant -/

/-- R165, R172, R147. -/
def State.followsAdmitted (s : State) : Prop := s.pointsFollow ∧ s.pollsFollow

theorem State.followsAdmitted_iff : s.followsAdmitted ↔
    (∀ k, s.pointOk (s.point k)) ∧ ∀ i, (s.cyc.attempt? i).isSome → (s.slot i).state = .admitted := by
  unfold State.followsAdmitted State.pollsFollow
  rw [State.pointsFollow_iff]
  exact and_congr Iff.rfl (forall_congr' fun i => by rw [State.attemptOf_eq])

theorem State.pointOk_congr {p : Point} (h : ∀ i, (t.slot i).state = (s.slot i).state) (hp : s.pointOk p) : t.pointOk p :=
  ⟨hp.1, fun i hc hw ha => hp.2 i hc hw (h i ▸ ha)⟩

theorem Drift.follows (h : Drift s t) (hs : s.followsAdmitted) : t.followsAdmitted := by
  rw [State.followsAdmitted_iff] at *
  obtain ⟨hp, hc⟩ := hs
  refine ⟨fun k => ?_, fun i hi => (h.states i).trans (hc i (h.attempts i hi))⟩
  have hk : t.point k = s.point k := congrArg (fun v => vget v k) h.points
  exact hk ▸ State.pointOk_congr h.states (hp k)

theorem State.reseat_follows {i : Slot} {new : SlotEntry} (hs : s.followsAdmitted) : (s.reseat i new).followsAdmitted := by
  rw [State.followsAdmitted_iff] at *
  obtain ⟨hp, hc⟩ := hs
  obtain ⟨hpts, hatt⟩ := s.changeSlot_points i new
  have hpoint (k : Fin 64) : (s.reseat i new).point k = (s.changeSlot i new).point k := by
    unfold State.reseat
    split
    · exact congrArg (fun v => vget v k) (Calms.drift (State.pollLeaves_calm _ i)).points
    · rfl
  have hattempt (j : Slot) (hj : ((s.reseat i new).cyc.attempt? j).isSome) :
      (s.cyc.attempt? j).isSome ∧ ((s.slot i).state = .admitted → new.state ≠ .admitted → j ≠ i) := by
    unfold State.reseat at hj
    split at hj
    · refine ⟨hatt j ((Calms.drift (State.pollLeaves_calm _ i)).attempts j hj), fun _ _ hji => ?_⟩
      rw [hji, State.pollLeaves_attempt] at hj
      cases hj
    · rename_i hno
      simp only [Bool.and_eq_true, decide_eq_true_eq, not_and] at hno
      exact ⟨hatt j hj, fun h1 h2 => absurd h2 (hno h1)⟩
  refine ⟨fun k => ?_, fun j hj => ?_⟩
  · obtain ⟨hen, hcard⟩ := hp k
    rw [hpoint, hpts]
    split
    · exact State.pointOk_cleared _
    · rename_i hno
      refine ⟨hen, fun j hk hw ha => ?_⟩
      rw [State.reseat_state] at ha
      by_cases hji : j = i
      · subst hji
        rw [if_pos rfl] at ha
        by_cases hold : (s.slot j).state = .admitted
        · refine absurd ⟨hold, ha, ?_⟩ hno
          simp [Point.ofCard, hk, hw]
        · exact hcard j hk hw hold
      · rw [if_neg hji] at ha
        exact hcard j hk hw ha
  · obtain ⟨hsome, hleft⟩ := hattempt j hj
    rw [State.reseat_state]
    split
    · rename_i hji
      by_contra hne
      exact hleft (hji ▸ hc j hsome) hne hji
    · exact hc j hsome

theorem Change.follows (h : Change G s t) (hG : G) (hs : s.followsAdmitted) : t.followsAdmitted := by
  cases h with
  | calm h => exact h.drift.follows hs
  | reseat i new _ _ => exact State.reseat_follows hs
  | quality q => exact (s.takeQuality_drift q).follows hs
  | point k p h =>
    rw [State.followsAdmitted_iff] at *
    obtain ⟨hp, hc⟩ := hs
    refine ⟨fun j => ?_, hc⟩
    have hj : (s.putPoint k p).point j = if j = k then p else s.point j := by
      by_cases hjk : j = k
      · subst hjk
        rw [if_pos rfl]
        exact vget_vset_self ..
      · rw [if_neg hjk]
        exact vget_vset_ne _ _ (Ne.symm hjk)
    rw [hj]
    split
    · exact State.pointOk_congr (fun _ => rfl) (h hG (hp k))
    · exact State.pointOk_congr (fun _ => rfl) (hp j)
  | attempt c h =>
    rw [State.followsAdmitted_iff] at *
    obtain ⟨hp, hc⟩ := hs
    refine ⟨fun k => State.pointOk_congr (fun _ => rfl) (hp k), fun i hi => ?_⟩
    obtain h1 | h1 := h i hi
    · exact h1
    · exact hc i h1
  | reconfigure i c =>
    have h1 : Drift s (s.putSlot i { s.slot i with cfg := c }) := by
      refine ⟨State.points_of_course (s.putSlot_course i _), fun j hj => ?_, fun j => ?_⟩
      · rwa [State.cyc_of_course (s.putSlot_course i _)] at hj
      · by_cases hj : i = j
        · subst hj
          rw [State.putSlot_slot_self]
        · rw [State.putSlot_slot_ne _ _ hj]
    refine Drift.follows ?_ hs
    unfold State.reconfigure
    split
    · exact h1.trans (Calms.drift (State.emptyQueue_calm ..))
    · exact h1

theorem State.withCfgs_slot (s : State) (c : Slot → PortCfg) (q : Nat) (i : Slot) :
    ({ s with sm := s.sm.withCfgs c q } : State).slot i = { s.slot i with cfg := c i } := by
  simp [State.slot, SlotManager.withCfgs, vget]

theorem Run.follows (h : Run F G s t) (hG : G) (hs : s.followsAdmitted) : t.followsAdmitted := by
  cases h with
  | change h => exact h.follows hG hs
  | stage c x => exact Drift.follows (.of_sm rfl rfl rfl) hs
  | hub h _ => exact Drift.follows (.of_sm rfl rfl rfl) hs
  | install c q _ => exact Drift.follows (s := s) ⟨rfl, fun _ h => h, fun i => by rw [State.withCfgs_slot]⟩ hs
  | reset => exact Drift.follows (.of_sm rfl rfl rfl) hs

theorem State.coldResets_slot (s : State) (i : Slot) : s.coldResets.slot i = (s.slot i).coldWith := by
  simp [State.coldResets, State.slot, vget]

theorem State.coldResets_point (s : State) (k : Fin 64) : s.coldResets.point k = Point.cold := vget_replicate _ k

/-- Settles O10: a slot that leaves ADMITTED clears its card's points and ends its attempt (`State.reseat_follows`). -/
theorem pointsFollowSlots : Obligations.PointsFollowSlots := by
  unfold Obligations.PointsFollowSlots
  intro s t hp hc e
  refine step_keeps_of (P := State.followsAdmitted) (fun _ _ h => h) (fun h hs => ?_) (fun _ => ?_) ⟨hp, hc⟩ e
  · cases h with
    | run h _ => exact chain_keeps (P := State.followsAdmitted) (fun hr hu => Run.follows hr hs.2 hu) h hs
    | port h =>
      obtain ⟨hsm, -, -, hcyc, halarm, -⟩ := h.core
      exact Drift.follows (.of_sm (congrArg AlarmUnit.points halarm) hcyc hsm) hs
  · refine State.followsAdmitted_iff.mpr ⟨fun k => ?_, fun i hi => ?_⟩
    · rw [State.coldResets_point]
      exact State.pointOk_cold PointCfg.cold
    · cases hi

end Sys2Proof.Machine
end

section
/-! SUPPORT. R91 and R92 (O9): the queues follow the slots and the quality. -/

namespace Sys2Proof.Machine

open Sys2Proof

variable {s t u : State} {F G : Prop}

/-! ## Changes that leave the slots' service and the quality alone -/

/-- The slots' service, the quality and the hub state stay, and an empty queue stays empty unless it is open. -/
structure Steady (s t : State) : Prop where
  service : ∀ i, (t.slot i).service = (s.slot i).service
  quality : t.sw.quality = s.sw.quality
  hub : t.cmd.hub = s.cmd.hub
  queues : ∀ i c, s.sw.queue i c = EgressQueue.nil → t.sw.queue i c = EgressQueue.nil ∨ s.queueOpen i c

theorem Steady.refl (s : State) : Steady s s := ⟨fun _ => rfl, rfl, rfl, fun _ _ => .inl⟩

theorem SlotEntry.serving_of_service {e f : SlotEntry} (h : e.service = f.service) : e.serving = f.serving := by
  simp only [SlotEntry.service, Prod.mk.injEq] at h
  obtain ⟨h1, h2, -⟩ := h
  unfold SlotEntry.serving
  rw [h1, h2]

theorem SlotEntry.cfg_of_service {e f : SlotEntry} (h : e.service = f.service) : e.cfg = f.cfg := congrArg (fun x => x.2.2) h

theorem Steady.queueOpen (h : Steady s t) {i : Slot} {c : Cls} (ho : t.queueOpen i c) : s.queueOpen i c := by
  obtain ⟨h1, h2⟩ := ho
  refine ⟨SlotEntry.serving_of_service (h.service i) ▸ h1, fun hc => ?_⟩
  rw [← SlotEntry.cfg_of_service (h.service i), ← h.quality]
  exact h2 hc

theorem Steady.trans (h : Steady s t) (k : Steady t u) : Steady s u :=
  ⟨fun i => (k.service i).trans (h.service i), k.quality.trans h.quality, k.hub.trans h.hub, fun i c hn =>
    (h.queues i c hn).elim (fun ht => (k.queues i c ht).imp id h.queueOpen) .inr⟩

theorem Steady.stays (h : Steady s t) {i : Slot} {c : Cls} (hn : s.sw.queue i c = EgressQueue.nil) (ho : ¬ s.queueOpen i c) :
    t.sw.queue i c = EgressQueue.nil := (h.queues i c hn).resolve_right ho

theorem Steady.of_same (hm : t.sm = s.sm) (hw : t.sw = s.sw) (hh : t.cmd.hub = s.cmd.hub) : Steady s t :=
  ⟨fun i => by rw [State.slot, hm]; rfl, by rw [hw], hh, fun i c hn => .inl (by rwa [hw])⟩

theorem State.sw_of_course (h : t.course = s.course) : t.sw = s.sw := congrArg (fun x => x.2.1) h

theorem Calm.steady (h : Calm s t) : Steady s t := by
  refine ⟨h.service, ?_, State.hub_of_stage h.stage, fun i c hn => ?_⟩
  · cases h with
    | entry j e _ => rw [State.sw_of_course (s.putSlot_course j e)]
    | dropHeld p => rw [State.sw_of_course (s.dropHeld_course p)]
    | sw w h => exact h.2.1
    | _ => rfl
  · cases h with
    | entry j e _ => exact .inl (by rwa [State.sw_of_course (s.putSlot_course j e)])
    | dropHeld p => exact .inl (by rwa [State.sw_of_course (s.dropHeld_course p)])
    | sw w h => exact h.2.2 i c hn
    | _ => exact .inl hn

theorem Calms.steady (h : Calms s t) : Steady s t :=
  chain_keeps (P := fun u => Steady s u) (fun h hs => hs.trans h.steady) h (.refl s)

/-! ## Queues that are emptied (R90) -/

theorem State.emptyQueue_queue (i : Slot) (s : State) (c : Cls) : (State.emptyQueue i s c).sw.queue i c = EgressQueue.nil := by
  unfold State.emptyQueue
  dsimp only
  split
  · rename_i h
    rw [List.isEmpty_iff, List.append_eq_nil_iff] at h
    obtain ⟨h1, h2⟩ := h
    exact congrArg₂ EgressQueue.mk h1 h2
  · refine (SwitchCore.keeps_dropRefs _ _).queues i c ((SwitchCore.keeps_bump _ _ _).queues i c ?_)
    exact SwitchCore.queue_setQueue_self ..

theorem State.queueOpen_serving {i : Slot} {c : Cls} (h : (s.slot i).serving = false) : ¬ s.queueOpen i c := fun ho => by
  rw [ho.1] at h
  cases h

/-- A flush leaves empty each queue it names that is not open. -/
theorem State.flush_queue {i : Slot} {cs : List Cls} {c : Cls} (hc : c ∈ cs) (ho : ¬ s.queueOpen i c) :
    (s.flush i cs).sw.queue i c = EgressQueue.nil := by
  have hfold (l : List Cls) (u : State) (hu : Steady s u) (hl : c ∈ l ∨ u.sw.queue i c = EgressQueue.nil) :
      Steady s (l.foldl (State.emptyQueue i) u) ∧ (l.foldl (State.emptyQueue i) u).sw.queue i c = EgressQueue.nil := by
    induction l generalizing u with
    | nil => exact ⟨hu, hl.resolve_left (by simp)⟩
    | cons d l ih =>
      have hd : Steady u (State.emptyQueue i u d) := Calms.steady (State.emptyQueue_calm i u d)
      refine ih _ (hu.trans hd) ?_
      obtain hcl | hn := hl
      · obtain rfl | hcl := List.mem_cons.mp hcl
        · exact .inr (State.emptyQueue_queue i u c)
        · exact .inl hcl
      · exact .inr (hd.stays hn fun h => ho (hu.queueOpen h))
  obtain ⟨hu, hn⟩ := hfold cs s (.refl s) (.inl hc)
  exact (Calms.steady (State.kickSlot_calm _ i)).stays hn fun h => ho (hu.queueOpen h)

/-! ## The invariant -/

theorem Steady.follow (h : Steady s t) (hs : s.queuesFollow) : t.queuesFollow := by
  obtain ⟨h1, h2, h3⟩ := hs
  have hstate (i : Slot) := SlotEntry.state_of_service (h.service i)
  refine ⟨fun i => ?_, fun i hg => ?_, fun hh i => hstate i ▸ h3 (h.hub ▸ hh) i⟩
  · rw [SlotEntry.serving_of_service (h.service i), hstate]
    by_cases hserv : (s.slot i).serving = true
    · exact .inl hserv
    · exact .inr ((h1 i).resolve_left hserv |>.imp id fun hn c =>
        h.stays (hn c) (State.queueOpen_serving (Bool.not_eq_true _ ▸ hserv)))
  · rw [SlotEntry.cfg_of_service (h.service i), h.quality] at hg
    exact h.stays (h2 i hg) fun ho => not_le.mpr hg (ho.2 rfl)

/-- R92: a new quality shuts the gates that it fails. -/
theorem State.takeQuality_follow {q : Nat} (hs : s.queuesFollow) : (s.takeQuality q).queuesFollow := by
  obtain ⟨h1, h2, h3⟩ := hs
  let s0 : State := { s with sw := { s.sw with quality := q } }
  let f : State → Slot → State := fun s i => if (s.slot i).cfg.gate < q then s.flush i [.timed] else s
  have hstep (u : State) (i : Slot) : Steady u (f u i) := by
    unfold f
    split
    · exact Calms.steady (u.flush_calm ..)
    · exact .refl u
  have hfold (l : List Slot) (u : State) (hu : Steady s0 u) (i : Slot) (hg : (s.slot i).cfg.gate < q)
      (hi : i ∈ l ∨ u.sw.queue i .timed = EgressQueue.nil) : (l.foldl f u).sw.queue i .timed = EgressQueue.nil := by
    have hshut (v : State) (hv : Steady s0 v) : ¬ v.queueOpen i .timed := fun ho =>
      not_le.mpr hg ((hv.queueOpen ho).2 rfl)
    induction l generalizing u with
    | nil => exact hi.resolve_left (by simp)
    | cons j l ih =>
      refine ih _ (hu.trans (hstep u j)) ?_
      obtain hil | hn := hi
      · obtain rfl | hil := List.mem_cons.mp hil
        · have hgate : (u.slot i).cfg.gate < q := by rw [SlotEntry.cfg_of_service (hu.service i)]; exact hg
          refine .inr ?_
          unfold f
          rw [if_pos hgate]
          exact State.flush_queue (List.mem_singleton_self _) (hshut u hu)
        · exact .inl hil
      · exact .inr ((hstep u j).stays hn (hshut u hu))
  have hall : Steady s0 (s.takeQuality q) :=
    chain_keeps (P := fun u => Steady s0 u) (fun h hu => hu.trans h) (foldl_chain (r := Steady) (f := f)
      (fun u i => .single (hstep u i)) allSlots s0) (.refl s0)
  have hstate (i : Slot) := SlotEntry.state_of_service (hall.service i)
  refine ⟨fun i => ?_, fun i hg => ?_, fun hh i => hstate i ▸ h3 (hall.hub ▸ hh) i⟩
  · rw [SlotEntry.serving_of_service (hall.service i), hstate]
    by_cases hserv : (s.slot i).serving = true
    · exact .inl hserv
    · exact .inr ((h1 i).resolve_left hserv |>.imp id fun hn c =>
        hall.stays (hn c) (State.queueOpen_serving (Bool.not_eq_true _ ▸ hserv)))
  · rw [SlotEntry.cfg_of_service (hall.service i), hall.quality] at hg
    exact hfold allSlots s0 (.refl s0) i hg (.inl (List.mem_finRange i))

theorem State.putTime_follow {x : TimeBase} (hs : s.queuesFollow) : (s.putTime x).queuesFollow := by
  have h1 : Steady s (reimage refImageWords s (retouch [0x34, 0x35, 0x36, 0x37] s { s with time := x })) :=
    .of_same rfl rfl rfl
  unfold State.putTime
  dsimp only
  split
  · exact h1.follow hs
  · exact (Calm.steady (.deliver _)).follow (State.takeQuality_follow (h1.follow hs))

theorem State.movePoint_steady (s : State) (k : Fin 64) (p : Point) : Steady s (s.movePoint k p) := by
  obtain ⟨hsm, -, -, hsw⟩ := s.movePoint_sm k p
  exact .of_same hsm hsw (State.hub_of_stage (s.movePoint_bares k p).stage)

theorem State.clearCardPoints_steady (s : State) (i : Slot) : Steady s (s.clearCardPoints i) := by
  refine chain_keeps (P := fun u => Steady s u) (fun h hu => hu.trans h) (foldl_chain (r := Steady) (fun u k => ?_) _ s) (.refl s)
  dsimp only
  split
  · exact .single (u.movePoint_steady ..)
  · exact .refl

end Sys2Proof.Machine
end

section
/-! SUPPORT. R77, R182 and R91: the queues when a slot's entry or its configuration is replaced. -/

namespace Sys2Proof.Machine

open Sys2Proof

variable {s t u : State} {F G : Prop}

/-- R71, R91: an entry that replaces one in service or draining and is in neither has its queues flushed. -/
theorem SlotEntry.flushes {old new : SlotEntry} (hold : old.serving = true ∨ old.state = .draining)
    (hserv : new.serving = false) (hdrain : new.state ≠ .draining) :
    (old.leaves new || (!old.fenced && new.fenced)) = true := by
  unfold SlotEntry.serving at hold hserv
  unfold SlotEntry.leaves
  obtain hs | hd := hold
  · simp only [Bool.and_eq_true, beq_iff_eq, Bool.not_eq_true'] at hs
    obtain ⟨hadm, hf⟩ := hs
    by_cases hn : new.state = .admitted
    · rw [hn] at hserv
      simp_all
    · simp [hadm, hn, hdrain]
  · simp [hd, hdrain]

theorem State.seats_idle {i : Slot} (h : s.seats i) (hh : s.cmd.hub = .unconfigured ∨ s.cmd.hub = .loading .load)
    (hi : (s.slot i).state = .empty ∨ (s.slot i).state = .seated) : False := by
  obtain ⟨h1, h2⟩ | h := h
  · exact hi.elim h1 h2
  · obtain hh | hh := hh <;> rw [hh] at h <;> cases h

theorem State.putSlot_hub (s : State) (i : Slot) (e : SlotEntry) : (s.putSlot i e).cmd.hub = s.cmd.hub :=
  State.hub_of_stage (congrArg (fun x => x.2.2.2.2) (s.putSlot_course i e))

/-- The queues after a slot's entry has been replaced, given the state `u` in which the flush of R91 has been made. -/
theorem State.queuesFollow_putSlot {i : Slot} {new : SlotEntry} (hs : s.queuesFollow) (hcfg : new.cfg = (s.slot i).cfg)
    (hst : new.state = .empty ∨ new.state = .seated ∨ new.state = (s.slot i).state ∨ s.seats i)
    (hu : Steady (s.putSlot i new) u)
    (hflush : ((s.slot i).leaves new || (!(s.slot i).fenced && new.fenced)) = true → new.serving = false →
      ∀ c, u.sw.queue i c = EgressQueue.nil) : u.queuesFollow := by
  obtain ⟨h1, h2, h3⟩ := hs
  have hsw : (s.putSlot i new).sw = s.sw := State.sw_of_course (s.putSlot_course i new)
  have hself : ((s.putSlot i new).slot i) = new := s.putSlot_slot_self i new
  have hother {j : Slot} (h : i ≠ j) : (s.putSlot i new).slot j = s.slot j := s.putSlot_slot_ne new h
  have hnil {j : Slot} {c : Cls} (hn : s.sw.queue j c = EgressQueue.nil) (ho : ¬ (s.putSlot i new).queueOpen j c) :
      u.sw.queue j c = EgressQueue.nil := hu.stays (by rw [hsw]; exact hn) ho
  refine ⟨fun j => ?_, fun j hg => ?_, fun hh j => ?_⟩
  · have hstate := SlotEntry.state_of_service (hu.service j)
    rw [SlotEntry.serving_of_service (hu.service j), hstate]
    by_cases hserv : ((s.putSlot i new).slot j).serving = true
    · exact .inl hserv
    · have hclosed (c : Cls) := State.queueOpen_serving (c := c) (Bool.not_eq_true _ ▸ hserv)
      by_cases hj : i = j
      · subst hj
        rw [hself] at hserv ⊢
        by_cases hd : new.state = .draining
        · exact .inr (.inl hd)
        · have hf : new.serving = false := Bool.not_eq_true _ ▸ hserv
          refine .inr (.inr fun c => ?_)
          obtain ho | ho | hn := h1 i
          · exact hflush (SlotEntry.flushes (.inl ho) hf hd) hf c
          · exact hflush (SlotEntry.flushes (.inr ho) hf hd) hf c
          · exact hnil (hn c) (hclosed c)
      · rw [hother hj] at hserv ⊢
        exact .inr ((h1 j).resolve_left hserv |>.imp id fun hn c => hnil (hn c) (hclosed c))
  · rw [SlotEntry.cfg_of_service (hu.service j), hu.quality, hsw] at hg
    have hcfgj : ((s.putSlot i new).slot j).cfg = (s.slot j).cfg := by
      by_cases hj : i = j
      · subst hj
        rw [hself, hcfg]
      · rw [hother hj]
    refine hnil (h2 j (hcfgj ▸ hg)) fun ho => ?_
    have := ho.2 rfl
    rw [hsw] at this
    exact not_le.mpr hg this
  · rw [hu.hub, State.putSlot_hub] at hh
    rw [SlotEntry.state_of_service (hu.service j)]
    by_cases hj : i = j
    · subst hj
      rw [hself]
      obtain h | h | h | h := hst
      · exact .inl h
      · exact .inr h
      · exact h ▸ h3 hh i
      · exact (State.seats_idle h hh (h3 hh i)).elim
    · rw [hother hj]
      exact h3 hh j

theorem State.changeSlot_follow {i : Slot} {new : SlotEntry} (hs : s.queuesFollow) (hcfg : new.cfg = (s.slot i).cfg)
    (hst : new.state = .empty ∨ new.state = .seated ∨ new.state = (s.slot i).state ∨ s.seats i) :
    (s.changeSlot i new).queuesFollow := by
  unfold State.changeSlot
  extract_lets old s1 s2 s3 s4 s5
  have h2 : Steady s1 s2 := by
    unfold s2
    split
    · exact .refl _
    · exact Calms.steady s1.roomReport_calm
  have h3 : Steady s2 s3 := by
    unfold s3
    split
    · exact Calms.steady (s2.flushBoth_calm i)
    · exact .refl _
  have hq3 : s3.queuesFollow := by
    refine State.queuesFollow_putSlot hs hcfg hst (h2.trans h3) fun hf hserv c => ?_
    have hclosed : ¬ s2.queueOpen i c := fun ho => State.queueOpen_serving
      (by rw [s.putSlot_slot_self i new]; exact hserv) (h2.queueOpen ho)
    have he : s3 = s2.flushBoth i := if_pos hf
    rw [he]
    exact State.flush_queue (by cases c <;> simp) hclosed
  have hq4 : s4.queuesFollow := by
    unfold s4
    split
    · exact (s3.clearCardPoints_steady i).follow hq3
    · exact hq3
  have hq5 : s5.queuesFollow := by
    unfold s5
    split
    · exact State.putTime_follow hq4
    · exact hq4
  split
  · exact hq5
  · exact (Calms.steady (s5.kickSlot_calm i)).follow hq5

theorem State.reseat_follow {i : Slot} {new : SlotEntry} (hs : s.queuesFollow) (hcfg : new.cfg = (s.slot i).cfg)
    (hst : new.state = .empty ∨ new.state = .seated ∨ new.state = (s.slot i).state ∨ s.seats i) :
    (s.reseat i new).queuesFollow := by
  unfold State.reseat
  split
  · exact (Calms.steady (State.pollLeaves_calm _ i)).follow (State.changeSlot_follow hs hcfg hst)
  · exact State.changeSlot_follow hs hcfg hst

/-- R182: a slot's configuration replaced, the TIMED queue flushed when its gate has shut. -/
theorem State.reconfigure_follow {i : Slot} {c : PortCfg} (hs : s.queuesFollow) : (s.reconfigure i c).queuesFollow := by
  obtain ⟨h1, h2, h3⟩ := hs
  let s1 := s.putSlot i { s.slot i with cfg := c }
  have hsw : s1.sw = s.sw := State.sw_of_course (s.putSlot_course i _)
  have hother {j : Slot} (h : i ≠ j) : s1.slot j = s.slot j := s.putSlot_slot_ne _ h
  have hself : s1.slot i = { s.slot i with cfg := c } := s.putSlot_slot_self i _
  have hsame (j : Slot) : (s1.slot j).serving = (s.slot j).serving ∧ (s1.slot j).state = (s.slot j).state := by
    by_cases hj : i = j
    · subst hj
      rw [hself]
      exact ⟨rfl, rfl⟩
    · rw [hother hj]
      exact ⟨rfl, rfl⟩
  have hu : Steady s1 (s.reconfigure i c) := by
    unfold State.reconfigure
    split
    · exact Calms.steady (State.emptyQueue_calm i s1 .timed)
    · exact .refl s1
  refine ⟨fun j => ?_, fun j hg => ?_, fun hh j => ?_⟩
  · rw [SlotEntry.serving_of_service (hu.service j), SlotEntry.state_of_service (hu.service j), (hsame j).1, (hsame j).2]
    by_cases hserv : (s.slot j).serving = true
    · exact .inl hserv
    · refine .inr ((h1 j).resolve_left hserv |>.imp id fun hn d => hu.stays (by rw [hsw]; exact hn d) ?_)
      exact State.queueOpen_serving ((hsame j).1.trans (Bool.not_eq_true _ ▸ hserv))
  · rw [SlotEntry.cfg_of_service (hu.service j), hu.quality, hsw] at hg
    have hshut : ¬ s1.queueOpen j .timed := fun ho => by
      have := ho.2 rfl
      rw [hsw] at this
      exact not_le.mpr hg this
    by_cases hj : i = j
    · subst hj
      rw [hself] at hg
      by_cases hgate : (s.slot i).cfg.gate = c.gate
      · exact hu.stays (by rw [hsw]; exact h2 i (hgate ▸ hg)) hshut
      · unfold State.reconfigure
        rw [if_pos (by simp [hgate]; exact hg)]
        exact State.emptyQueue_queue i _ .timed
    · rw [hother hj] at hg
      exact hu.stays (by rw [hsw]; exact h2 j hg) hshut
  · rw [hu.hub] at hh
    rw [SlotEntry.state_of_service (hu.service j), (hsame j).2]
    exact h3 (State.putSlot_hub s i _ ▸ hh) j

theorem Change.follow (h : Change G s t) (hs : s.queuesFollow) : t.queuesFollow := by
  cases h with
  | calm h => exact h.steady.follow hs
  | reseat i new hcfg hst => exact State.reseat_follow hs hcfg hst
  | quality q => exact State.takeQuality_follow hs
  | point k p _ => exact Steady.follow (.of_same rfl rfl rfl) hs
  | attempt c _ => exact Steady.follow (.of_same rfl rfl rfl) hs
  | reconfigure i c => exact State.reconfigure_follow hs

theorem State.queuesFollow_hub {h : HubState} (hs : s.queuesFollow)
    (hi : h = .unconfigured ∨ h = .loading .load → s.slotsIdle) (c : CommandUnit) (hc : c.hub = h) :
    ({ s with cmd := c } : State).queuesFollow := by
  obtain ⟨h1, h2, -⟩ := hs
  exact ⟨h1, h2, fun hh => hi (hc ▸ hh)⟩

theorem Run.follow (h : Run F G s t) (hF : F) (hs : s.queuesFollow) : t.queuesFollow := by
  cases h with
  | change h => exact h.follow hs
  | stage c x => exact Steady.follow (.of_same rfl rfl rfl) hs
  | hub h hi => exact State.queuesFollow_hub hs (hi hF hs) _ rfl
  | install c q hi =>
    have hidle := hi hF hs
    obtain ⟨h1, -, h3⟩ := hs
    have hnil (i : Slot) : ∀ c, s.sw.queue i c = EgressQueue.nil := by
      refine ((h1 i).resolve_left ?_).resolve_left ?_
      · unfold SlotEntry.serving
        rcases hidle i with h | h <;> simp [h]
      · rcases hidle i with h | h <;> simp [h]
    refine ⟨fun i => .inr (.inr (hnil i)), fun i _ => hnil i .timed, fun hh i => ?_⟩
    rw [State.withCfgs_slot]
    exact h3 hh i
  | reset => exact Steady.follow (.of_same rfl rfl rfl) hs

/-- Settles O9: a slot that stops serving is flushed (`State.changeSlot_follow`), a quality that shuts a gate flushes its TIMED queue
(`State.takeQuality_follow`), and the hub turns to UNCONFIGURED or to LOADING in LOAD mode only with every slot EMPTY or SEATED. -/
theorem queuesFollowSlots : Obligations.QueuesFollowSlots := by
  unfold Obligations.QueuesFollowSlots
  intro s t hfits hs e
  refine step_keeps_of (P := fun s => s.transferFits ∧ s.queuesFollow) (fun _ _ h => h) (fun h hs => ?_) (fun _ => ?_)
    ⟨hfits, hs⟩ e
  · obtain ⟨hf, hq⟩ := hs
    cases h with
    | run h hfits => exact ⟨hfits hf, chain_keeps (P := State.queuesFollow) (fun hr hu => Run.follow hr hf hu) h hq⟩
    | port h =>
      obtain ⟨hsm, -, hsw, -, -, hstage⟩ := h.core
      exact ⟨(State.transferFits_congr hstage).mpr hf, Steady.follow (.of_same hsm hsw (State.hub_of_stage hstage)) hq⟩
  · refine ⟨State.transferFits_of_none rfl, fun i => .inr (.inr ?_), fun i _ => ?_, fun _ i => ?_⟩
    · exact State.reset_queue i
    · exact State.reset_queue i .timed
    · rw [State.coldResets_slot]
      exact .inl rfl

end Sys2Proof.Machine
end

section
/-! SUPPORT. Accesses of the controller on a port that is busy, and the arbiter's decisions. -/

namespace Sys2Proof.Machine

open Sys2Proof

variable {s t u : State}

/-! ## Accesses that wait (O12) -/

/-- An arrival counts a partial control write, and changes nothing else. -/
theorem State.arrived_path (s : State) (c : Classed) : s.arrived c = { s with path := { s.path with
    partialCount := if c.cls = .partialControl then min (s.path.partialCount + 1) 4294967295 else s.path.partialCount } } := by
  unfold State.arrived
  split
  · rename_i h
    rw [if_pos h]
    rfl
  · rename_i h
    rw [if_neg h]

/-- With a GH412 word at the port an access that is not guarded waits. -/
theorem State.busAccess_waits {h : Held} {acc : BusAccess} (hq : s.busQuiet) (hh : s.path.holder = some (.word h))
    (hg : (s.classed acc).cls ≠ .guarded) :
    let c := s.classed acc
    let path := { s.path with
      waiting := some c
      partialCount := if c.cls = .partialControl then min (s.path.partialCount + 1) 4294967295 else s.path.partialCount }
    (s.busAccess acc).path = path ∧ (s.busAccess acc).cwait = true ∧
      (s.busAccess acc).apart = ({ s with path := path } : State).apart := by
  intro c path
  have hown : s.ownHolds = false := State.ownHolds_eq_false.mpr fun c hc => by rw [hh] at hc; cases hc
  have he := State.busAccess_held hq (by rw [hh]; rfl) hown hg
  have hp : (s.busAccess acc).path = path := by
    rw [he, State.fill_path, State.fill_path, State.arrived_path]
    simp only [path, c, hq.2.symm]
  refine ⟨hp, by unfold State.cwait; rw [hp]; rfl, ?_⟩
  rw [he, State.fill_apart, State.fill_apart, State.arrived_path]
  simp only [path, c, hq.2.symm]

/-- R14: with an access of the controller's own at the port the next one stays in its line. -/
theorem State.busAccess_later {k : Classed} (acc : BusAccess) (hw : s.path.waiting = none)
    (hh : s.path.holder = some (.controller k)) :
    (s.busAccess acc).cwait = false ∧
      (s.busAccess acc).path = { s.path with line := s.path.line ++ [acc] } ∧
      (s.busAccess acc).apart = ({ s with path := { s.path with line := s.path.line ++ [acc] } } : State).apart := by
  have he := State.busAccess_own (s := s) (acc := acc) (by unfold State.ownHolds; rw [hh])
  have hp : (s.busAccess acc).path = { s.path with line := s.path.line ++ [acc] } := by
    rw [he, State.fill_path, State.fill_path]
  refine ⟨by unfold State.cwait; rw [hp, hw]; rfl, hp, ?_⟩
  rw [he, State.fill_apart, State.fill_apart]

/-- With an access of the controller waiting, no other comes up. -/
theorem State.bringAccess_waiting {c : Classed} (hw : s.path.waiting = some c) : s.bringAccess = s := by
  unfold State.bringAccess
  rw [hw]
  rfl

/-- R12: an access that waits takes the free port while fewer than sixteen decisions have passed a requester over. -/
theorem State.settle_serves {c : Classed} (hw : s.path.waiting = some c) (hh : s.path.holder = none)
    (hp : s.path.passedOver < 16) :
    s.settle.path.holder = some (.controller c) ∧ s.settle.path.waiting = none ∧
      s.settle.apart = ({ s with path := { s.path with waiting := none } } : State).apart := by
  obtain ⟨n, he, -⟩ := State.arbitrate_serves (s := s.fill) (by rw [State.fill_path]; exact hw)
    (by rw [State.fill_path]; exact hh) (by rw [State.fill_path]; exact hp)
  have hs : s.settle = (s.fill.grantController c n).fill := by
    unfold State.settle
    rw [State.bringAccess_waiting hw, he]
  refine ⟨by rw [hs, State.fill_path]; rfl, by rw [hs, State.fill_path]; rfl, ?_⟩
  obtain ⟨p, l, rp, rl, hf⟩ := s.fill_eq
  rw [hs, State.fill_apart, hf]
  rfl

/-- Settles O12: an access is answered with the port free, waits behind a GH412 word, keeps its place in the line behind
one of the controller's own, and is granted when the port falls free. -/
theorem accessAnsweredOrWaits : Obligations.AccessAnsweredOrWaits := by
  unfold Obligations.AccessAnsweredOrWaits
  refine ⟨fun a s h => ⟨_, rfl, State.busAccess_read h⟩, fun h s hq hh => ?_, fun k a d be s hw hh => ?_,
    fun c o a d s hw hp hh => ?_, fun s hq => ⟨fun a hh => ?_, fun a d be hh => ?_⟩⟩
  · exact ⟨fun a => ⟨_, rfl, State.busAccess_waits (acc := .read a) hq hh fun hc => nomatch hc⟩,
      fun a d be hc => ⟨_, rfl, State.busAccess_waits (acc := .write a d be) hq hh hc⟩⟩
  · exact ⟨⟨_, rfl, State.busAccess_later _ hw hh⟩, ⟨_, rfl, State.busAccess_later _ hw hh⟩,
      ⟨_, rfl, State.busAccess_later _ hw hh⟩⟩
  · have hc : s.complete = { s.release with mem := Memory.writeWord s.mem a d allBytes } := State.complete_word hh
    obtain ⟨h1, h2, h3⟩ := State.settle_serves (s := s.complete) (c := c) (by rw [hc]; exact hw) (by rw [hc]; rfl)
      (by rw [hc]; exact hp)
    refine ⟨_, exec_portAccessComplete_held (by rw [hh]; rfl), h1, ?_, ?_⟩
    · unfold State.cwait State.portComplete
      rw [h2]
      rfl
    · refine h3.trans ?_
      rw [hc]
      rfl
  · obtain ⟨t, he, ht⟩ := exec_portAccessComplete_apart hq (by rw [hh]; rfl)
    exact ⟨t, he, ht.trans ((congrArg State.apart (State.complete_controller hh)).trans rfl)⟩
  · obtain ⟨t, he, ht⟩ := exec_portAccessComplete_apart hq (by rw [hh]; rfl)
    exact ⟨t, he, ht.trans ((congrArg State.apart (State.complete_controller hh)).trans rfl)⟩

/-! ## The arbiter's choice (O18) -/

/-- Two holders that keep back the same words of the requesters. -/
def sameHold (x y : Option PortHolder) : Prop :=
  x = y ∨ (∀ h, x ≠ some (.word h)) ∧ ∀ h, y ≠ some (.word h)

theorem State.inFlight_withPath {p : MemoryPath} (h : sameHold p.holder s.path.holder) (q : Purpose → Bool) :
    ({ s with path := p } : State).inFlight q = s.inFlight q := by
  have off (u : State) (hu : ∀ h, u.path.holder ≠ some (.word h)) : u.inFlight q = false := by
    unfold State.inFlight
    split
    · exact absurd ‹_› (hu _)
    · rfl
  rcases h with h | ⟨h1, h2⟩
  · unfold State.inFlight
    rw [h]
  · rw [off _ h1, off _ h2]

/-- What stands in the waiting places does not turn on the arbiter's bookkeeping. -/
theorem State.fill_withPath {p : MemoryPath} (hz : p.zones = s.path.zones) (h : sameHold p.holder s.path.holder) :
    ({ s with path := p } : State).fill = { s.fill with path := p } := by
  have hc : ({ s with path := p } : State).fillCommand = { s.fillCommand with path := p } := by
    have hpick : ({ s with path := p } : State).pickImage = s.pickImage := by
      unfold State.pickImage State.imageAddr
      simp only [hz]
    have hsup (x : Source) : ({ s with path := p } : State).supply x = s.supply x := by
      cases x with
      | status => rfl
      | image => exact congrArg (Option.map CmdWord.image) hpick
      | transfer => simp only [State.supply, State.inFlight_withPath h]
    have hst : ({ s with path := p } : State).placeStands = s.placeStands := funext fun w => by cases w <;> rfl
    unfold State.fillCommand
    simp only [hsup, hst]
    cases s.cmd.place.filter s.placeStands with
    | some _ => rfl
    | none => cases s.cmd.lastSource.after.find? (fun x => (s.supply x).isSome) <;> rfl
  have hr (u : State) (h : sameHold p.holder u.path.holder) :
      ({ u with path := p } : State).fillRing = { u.fillRing with path := p } := by
    have hw : ({ u with path := p } : State).ringWord = u.ringWord := funext fun x => by
      cases x <;> (unfold State.ringWord; simp only [State.inFlight_withPath h]; rfl)
    unfold State.fillRing
    simp only [hw]
    cases u.ring.place.filter (fun x => (u.ringWord x).isSome) with
    | some _ => rfl
    | none => cases [u.ring.lastSide.other, u.ring.lastSide].find? (fun x => (u.ringWord x).isSome) <;> rfl
  rw [State.fill, hc, hr _ (by rw [State.fillCommand_path]; exact h)]
  rfl

theorem State.fillRing_fillRing (s : State) : s.fillRing.fillRing = s.fillRing := by
  have stays (t : State) (x : RingSide) (hp : t.ring.place = some x) (hw : (t.ringWord x).isSome = true) :
      t.fillRing = t := by
    unfold State.fillRing
    rw [hp, Option.filter_some, if_pos hw]
  have words (p : Option RingSide) (l : RingSide) :
      ({ s with ring := { s.ring with place := p, lastSide := l } } : State).ringWord = s.ringWord :=
    funext fun x => by cases x <;> rfl
  cases hp : s.ring.place.filter (fun x => (s.ringWord x).isSome) with
  | some x =>
    obtain ⟨h1, h2⟩ := Option.filter_eq_some_iff.mp hp
    rw [stays s x h1 h2, stays s x h1 h2]
  | none =>
    cases hf : [s.ring.lastSide.other, s.ring.lastSide].find? (fun x => (s.ringWord x).isSome) with
    | some x =>
      have hw : (s.ringWord x).isSome = true := by simpa using List.find?_some hf
      have e : s.fillRing = { s with ring := { s.ring with place := some x, lastSide := x } } := by
        unfold State.fillRing; rw [hp]; simp only [hf]
      rw [e]
      exact stays _ x rfl (by rw [words]; exact hw)
    | none =>
      have e : s.fillRing = { s with ring := { s.ring with place := none } } := by
        unfold State.fillRing; rw [hp]; simp only [hf]
      rw [e]
      unfold State.fillRing
      simp only [Option.filter_none, words _ s.ring.lastSide, hf]

theorem State.fillRing_eq (s : State) : ∃ p l, s.fillRing = { s with ring := { s.ring with place := p, lastSide := l } } := by
  unfold State.fillRing
  split
  · exact ⟨s.ring.place, s.ring.lastSide, rfl⟩
  · split
    · exact ⟨_, _, rfl⟩
    · exact ⟨_, s.ring.lastSide, rfl⟩

theorem State.fillCommand_withRing (s : State) (r : RingEngine) :
    ({ s with ring := r } : State).fillCommand = { s.fillCommand with ring := r } := by
  have hsup (x : Source) : ({ s with ring := r } : State).supply x = s.supply x := by cases x <;> rfl
  have hst : ({ s with ring := r } : State).placeStands = s.placeStands := funext fun w => by cases w <;> rfl
  unfold State.fillCommand
  simp only [hsup, hst]
  cases s.cmd.place.filter s.placeStands with
  | some _ => rfl
  | none => cases s.cmd.lastSource.after.find? (fun x => (s.supply x).isSome) <;> rfl

/-- Filling the waiting places again changes nothing. -/
theorem State.fill_fill (s : State) : s.fill.fill = s.fill := by
  have hc : s.fillCommand.fillRing.fillCommand = s.fillCommand.fillRing := by
    obtain ⟨p, l, he⟩ := s.fillCommand.fillRing_eq
    rw [he, State.fillCommand_withRing, State.fillCommand_fillCommand]
  rw [State.fill, State.fill, hc, State.fillRing_fillRing]

theorem State.waits_withPath (s : State) (p : MemoryPath) : ({ s with path := p } : State).waits = s.waits :=
  funext fun r => by cases r <;> rfl

theorem State.chosen_withPath {p : MemoryPath} (hl : p.lastServed = s.path.lastServed) :
    ({ s with path := p } : State).chosen = s.chosen := by
  unfold State.chosen
  rw [State.waits_withPath, hl]

/-- A requester's place in the cyclic order (R13). -/
def Requester.turn : Requester → Nat
  | .command => 0
  | .ring => 1
  | .cycle => 2
  | .alarm => 3

theorem rel_of_find? {α : Type} {R : α → α → Prop} (hr : ∀ x, R x x) {f : α → Bool} :
    ∀ {l : List α} {w x : α}, l.Pairwise R → l.find? f = some w → x ∈ l → f x = true → R w x := by
  intro l
  induction l with
  | nil => exact fun _ h => nomatch h
  | cons y l ih =>
    intro w x hp hf hx hfx
    obtain ⟨hy, hp⟩ := List.pairwise_cons.mp hp
    rw [List.find?_cons] at hf
    split at hf
    · cases hf
      rcases List.mem_cons.mp hx with rfl | hx
      · exact hr x
      · exact hy x hx
    · rename_i hn
      rcases List.mem_cons.mp hx with rfl | hx
      · rw [hfx] at hn
        cases hn
      · exact ih hp hf hx hfx

/-- R13: the distance of a requester from the one served last. -/
def Requester.distance (last r : Requester) : Nat := (r.turn + 3 - last.turn) % 4

/-- R13: the requester chosen has a word waiting, and comes first after the one served last. -/
theorem State.chosen_first {w : Requester} (h : s.chosen = some w) :
    s.waits w = true ∧ ∀ x, s.waits x = true → s.path.lastServed.distance w ≤ s.path.lastServed.distance x := by
  have hsorted (l : Requester) : l.after.Pairwise (fun x y => l.distance x ≤ l.distance y) := by cases l <;> decide
  have hall (l x : Requester) : x ∈ l.after := by cases l <;> cases x <;> decide
  exact ⟨by simpa using List.find?_some h, fun x hx => rel_of_find? (R := fun x y => Requester.distance _ x ≤ Requester.distance _ y)
    (fun _ => Nat.le_refl _) (hsorted _) h (hall _ x) hx⟩

theorem State.chosen_isSome {r : Requester} (h : s.waits r = true) : ∃ w, s.chosen = some w := by
  cases hc : s.chosen with
  | some w => exact ⟨w, rfl⟩
  | none => rw [State.waits_of_chosen_none hc r] at h; cases h

theorem State.waits_alarm : s.waits .alarm = true ↔ s.alarm.queue ≠ [] := by
  change s.alarmWord.isSome = true ↔ _
  unfold State.alarmWord
  cases s.alarm.queue <;> simp

/-! ## Decisions (R12) -/

theorem State.grant_path (s : State) (w : Requester) : (s.grant w).path = s.path ∨
    ∃ h : Held, h.who = w ∧
      (s.grant w).path = { s.path with holder := some (.word h), passedOver := 0, lastServed := w } := by
  unfold State.grant State.grantCommand State.grantRing State.hold
  cases w with
  | command =>
    dsimp only
    split
    · exact .inl rfl
    · exact .inr ⟨_, rfl, rfl⟩
    · exact .inr ⟨_, rfl, rfl⟩
    · split
      · exact .inl rfl
      · exact .inr ⟨_, rfl, rfl⟩
  | ring =>
    dsimp only
    split
    · exact .inl rfl
    · split
      · exact .inl rfl
      · exact .inr ⟨_, rfl, rfl⟩
  | cycle =>
    dsimp only
    split
    · exact .inr ⟨_, rfl, rfl⟩
    · exact .inl rfl
  | alarm =>
    dsimp only
    split
    · exact .inr ⟨_, rfl, rfl⟩
    · exact .inl rfl

/-- R12: with none of the controller's accesses waiting, or sixteen decisions passed over, the requester chosen is
granted. -/
theorem State.settle_grants {w : Requester} (hh : s.bringAccess.path.holder = none)
    (hw : s.bringAccess.path.waiting = none ∨ ¬ s.bringAccess.path.passedOver < 16)
    (hc : s.bringAccess.fill.chosen = some w) :
    ∃ h : Held, h.who = w ∧ s.settle.path =
      { s.bringAccess.path with holder := some (.word h), passedOver := 0, lastServed := w } := by
  have ha : s.bringAccess.fill.arbitrate = s.bringAccess.fill.grant w := by
    have hp := s.bringAccess.fill_path
    generalize s.bringAccess = u at hh hw hc hp
    unfold State.arbitrate
    rw [hp, hh, hc]
    simp only [Option.isSome_none, Bool.false_eq_true, if_false]
    rcases hw with hw | hw
    · rw [hw]
    · cases u.path.waiting with
      | none => rfl
      | some c => exact if_neg hw
  have hsome := State.grant_holds hc
  obtain hg | ⟨h, hw, hg⟩ := s.bringAccess.fill.grant_path w
  · rw [hg, State.fill_path, hh] at hsome
    cases hsome
  · refine ⟨h, hw, ?_⟩
    unfold State.settle
    rw [State.fill_path, ha, hg, State.fill_path]

/-- R12: the controller's access that comes up next is granted, the count as the words that wait ask. -/
theorem State.settle_next {acc : BusAccess} {rest : List BusAccess} (hw : s.path.waiting = none)
    (hl : s.path.line = acc :: rest) (hh : s.path.holder = none) (hp : s.path.passedOver < 16)
    (hg : (s.classed acc).cls ≠ .guarded) :
    s.settle = { s.fill with path := { (s.arrived (s.classed acc)).path with
      line := rest
      passedOver := if s.fill.chosen = none then 0 else s.path.passedOver + 1
      holder := some (.controller (s.classed acc)) } } := by
  have hb : s.bringAccess = { s with path := { (s.arrived (s.classed acc)).path with
      waiting := some (s.classed acc), line := rest } } := by
    rw [State.bringAccess_next hw (State.ownHolds_none hh), hl, State.nextAccess_cons hg, State.arrived_path]
  obtain ⟨n, hn⟩ := s.arrived_eq (s.classed acc)
  rw [hn] at hb ⊢
  have hsame (c : Classed) : sameHold (some (.controller c)) s.path.holder :=
    .inr ⟨fun _ h => (nomatch h), fun _ h => (nomatch hh.symm.trans h)⟩
  have hfill := State.fill_withPath (s := s) (p := { s.path with
    partialCount := n, waiting := some (s.classed acc), line := rest }) rfl (.inl rfl)
  have hch : s.bringAccess.fill.chosen = s.fill.chosen := by
    rw [hb, hfill]
    exact State.chosen_withPath (by rw [State.fill_path])
  have harb : s.bringAccess.fill.arbitrate = { s.fill with path := { s.path with
      partialCount := n, line := rest, waiting := none
      passedOver := if s.fill.chosen = none then 0 else s.path.passedOver + 1
      holder := some (.controller (s.classed acc)) } } := by
    unfold State.arbitrate
    rw [hch, hb, hfill]
    simp only [hh, Option.isSome_none, Bool.false_eq_true, if_false, hp, if_true]
    cases s.fill.chosen with
    | none => rfl
    | some w => rfl
  unfold State.settle
  rw [harb, State.fill_withPath (by rw [State.fill_path]) (by rw [State.fill_path]; exact hsame _), State.fill_fill]
  simp only [hw]

/-! ## The passed-over count (R12) -/

/-- R12: the passed-over count never exceeds sixteen. -/
def State.overBounded (s : State) : Prop := s.path.passedOver ≤ 16

theorem overBounded_of_outside (h : t.outside = s.outside) (hs : s.overBounded) : t.overBounded :=
  (outside_passedOver h).trans_le hs

theorem State.nextAccess_overBounded (l : List BusAccess) (s : State) (hs : s.overBounded) :
    (State.nextAccess l s).overBounded := by
  induction l generalizing s with
  | nil => exact hs
  | cons acc rest ih =>
    unfold State.nextAccess
    dsimp only
    split
    · exact ih _ (overBounded_of_outside (State.guardHit_outside ..) hs)
    · unfold State.overBounded
      rw [State.arrived_path]
      exact hs

theorem State.arbitrate_overBounded (hs : s.overBounded) : s.arbitrate.overBounded := by
  have hgrant (w : Requester) : (s.grant w).overBounded := by
    unfold State.overBounded
    obtain h | ⟨x, -, h⟩ := s.grant_path w
    · rw [h]
      exact hs
    · rw [h]
      exact Nat.zero_le _
  unfold State.arbitrate
  split
  · exact hs
  · split
    · exact hs
    · exact hgrant _
    · exact Nat.zero_le _
    · split
      · rename_i h
        exact h
      · exact hgrant _

theorem State.settle_overBounded (hs : s.overBounded) : s.settle.overBounded := by
  have hfill (u : State) (hu : u.overBounded) : u.fill.overBounded := by
    unfold State.overBounded
    rw [State.fill_path]
    exact hu
  refine hfill _ (State.arbitrate_overBounded (hfill _ ?_))
  unfold State.bringAccess
  split
  · exact hs
  · exact State.nextAccess_overBounded _ _ hs

theorem State.complete_overBounded (hs : s.overBounded) : s.complete.overBounded := by
  unfold State.complete
  split
  · exact hs
  · rename_i c _
    refine overBounded_of_outside (State.handOver_outside ..) ?_
    cases c.acc <;> exact hs
  · rename_i h _
    refine overBounded_of_outside (State.completed_outside ..) ?_
    cases h.op <;> exact hs

theorem State.portComplete_overBounded (hs : s.overBounded) : s.portComplete.overBounded :=
  State.settle_overBounded (State.complete_overBounded hs)

theorem State.serve_overBounded (k : Nat) (s : State) (hs : s.overBounded) : (s.serve k).overBounded := by
  induction k generalizing s with
  | zero => exact hs
  | succ k ih =>
    unfold State.serve
    split
    · exact ih _ (State.portComplete_overBounded hs)
    · exact hs

theorem State.engaged_overBounded (hs : s.overBounded) : s.engaged.overBounded := by
  unfold State.engaged
  split
  · exact hs
  · exact State.settle_overBounded hs

theorem State.runPort_overBounded {p : State → Held → Bool} (k : Nat) (s : State) (hs : s.overBounded) :
    ∀ t ∈ State.runPort p k s, t.overBounded := by
  induction k generalizing s with
  | zero => exact fun t h => nomatch h
  | succ k ih =>
    have hc := State.portComplete_overBounded hs
    intro t h
    unfold State.runPort at h
    split at h
    · exact nomatch h
    · exact ih _ hc t h
    · split at h
      · exact Option.some.inj h ▸ hc
      · exact ih _ hc t h

theorem State.resetBlocks_outside (s : State) : s.resetBlocks.outside = s.outside := by
  have h : s.resetTables.resetLog.ringReset.outside = s.outside := by
    rw [State.ringReset_outside]
    unfold State.resetLog State.resetTables
    (repeat' split) <;> simp [State.alarmLeaves_outside, State.emptyTables_outside]
  unfold State.resetBlocks
  dsimp only
  rw [outside_with, State.setHub_outside, State.emptyZones_outside, State.setCyc_outside, h]

/-- Every row keeps the bound. -/
theorem exec_overBounded {c : Instr} (hs : s.overBounded) (e : exec c s = .next t) : t.overBounded := by
  obtain ⟨accs, rfl⟩ | ⟨p, rfl⟩ | ⟨u, hu, rfl⟩ | h | h | ⟨-, h⟩ := exec_rowShape e
  · have hbus : (({ s with path := { s.path with line := s.path.line ++ accs } } : State).settle).overBounded :=
      State.settle_overBounded hs
    unfold State.busAccesses
    dsimp only
    split
    · exact hbus
    · exact State.serve_overBounded _ _ hbus
  · unfold State.awaitPort
    split
    · exact State.runPort_overBounded _ _ (State.engaged_overBounded hs) _ ‹_›
    · exact State.engaged_overBounded hs
  · exact State.settle_overBounded (overBounded_of_outside hu hs)
  · exact h ▸ State.portComplete_overBounded (State.engaged_overBounded hs)
  · rw [h, State.controllerResets_eq]
    exact State.settle_overBounded (overBounded_of_outside (State.resetBlocks_outside _) (Nat.zero_le _))
  · rw [h]
    exact Nat.zero_le _

/-! ## The turns of controller and requesters (O18) -/

/-- R12: a read that takes the port is answered, and then the requester chosen is granted. -/
theorem State.serve_read_grants {a : Addr} {w : Requester} (hw : s.path.waiting = none) (hl : s.path.line = [.read a])
    (hh : s.path.holder = none) (hp : s.path.passedOver < 16) (hc : s.fill.chosen = some w) :
    ∃ x : Held, x.who = w ∧ (s.settle.serve 2).path = { s.path with
      line := [], cdata := Memory.readWord s.mem a, holder := some (.word x), passedOver := 0, lastServed := w } := by
  have h1 : s.settle = { s.fill with path := { s.path with
      line := [], passedOver := s.path.passedOver + 1, holder := some (.controller ⟨.read a, .read⟩) } } := by
    rw [State.settle_next hw hl hh hp (fun h => nomatch h), hc]
    rfl
  have h2 : s.settle.complete = { s.fill with path := { s.path with
      line := [], passedOver := s.path.passedOver + 1, holder := none, cdata := Memory.readWord s.mem a } } := by
    rw [State.complete_controller (c := ⟨.read a, .read⟩) (by rw [h1]), h1, ← s.fill_mem]
    rfl
  have hb : s.settle.complete.bringAccess = s.settle.complete := State.bringAccess_quiet (by rw [h2]; exact ⟨hw, rfl⟩)
  have hf : s.settle.complete.fill = s.settle.complete := by
    rw [h2, State.fill_withPath (by rw [State.fill_path]) (.inl (by rw [State.fill_path, hh])), State.fill_fill]
  obtain ⟨x, hx, hg⟩ := State.settle_grants (s := s.settle.complete) (w := w) (by rw [hb, h2]) (.inl (by rw [hb, h2]; exact hw))
    (by
      rw [hb, hf, h2, ← hc]
      exact State.chosen_withPath (by rw [State.fill_path]))
  rw [hb] at hg
  refine ⟨x, hx, ?_⟩
  have hserve : s.settle.serve 2 = s.settle.complete.settle := by
    have hnext : s.settle.serve 2 = s.settle.portComplete.serve 1 := by
      rw [State.serve, h1]
    rw [hnext]
    exact State.serve_idle fun c hc => by
      unfold State.portComplete at hc
      rw [hg] at hc
      cases hc
  rw [hserve, hg, h2]

/-- With the line empty, one access on the bus is the line. -/
theorem State.busAccess_line {acc : BusAccess} (hl : s.path.line = []) (hh : s.path.holder = none) :
    s.busAccess acc = ({ s with path := { s.path with line := [acc] } } : State).settle.serve 2 := by
  unfold State.busAccess State.busAccesses
  simp only [hh, hl, Option.isSome_none, Bool.false_eq_true, if_false, List.nil_append, List.length_nil,
    List.length_singleton]

/-- The arbiter's choice turns on no more of the path than the zones, the holder and the requester served last. -/
theorem State.chosen_path {p : MemoryPath} (hz : p.zones = s.path.zones) (hh : sameHold p.holder s.path.holder)
    (hl : p.lastServed = s.path.lastServed) : ({ s with path := p } : State).fill.chosen = s.fill.chosen := by
  rw [State.fill_withPath hz hh]
  exact State.chosen_withPath (by rw [State.fill_path, hl])

theorem State.busAccess_read_grants {a : Addr} {w : Requester} (h : s.portFree) (hc : s.fill.chosen = some w) :
    ∃ x : Held, x.who = w ∧ (s.busAccess (.read a)).path = { s.path with
      cdata := Memory.readWord s.mem a, holder := some (.word x), passedOver := 0, lastServed := w } := by
  obtain ⟨⟨hw, hl⟩, hh, hp⟩ := h
  obtain ⟨x, hx, he⟩ := State.serve_read_grants (s := { s with path := { s.path with line := [.read a] } }) hw rfl hh hp
    ((State.chosen_path (p := { s.path with line := [.read a] }) rfl (.inl rfl) rfl).trans hc)
  refine ⟨x, hx, ?_⟩
  rw [State.busAccess_line hl hh, he]
  simp only [hl]

/-- R12: with the count at sixteen a read waits, and the requester chosen is granted. -/
theorem State.settle_read_waits {a : Addr} {w : Requester} (hw : s.path.waiting = none) (hl : s.path.line = [.read a])
    (hh : s.path.holder = none) (hp : s.path.passedOver = 16) (hc : s.fill.chosen = some w) :
    ∃ x : Held, x.who = w ∧ s.settle.path = { s.path with
      line := [], waiting := some ⟨.read a, .read⟩, holder := some (.word x), passedOver := 0, lastServed := w } := by
  have hb : s.bringAccess = { s with path := { s.path with waiting := some ⟨.read a, .read⟩, line := [] } } := by
    rw [State.bringAccess_next hw (State.ownHolds_none hh), hl]
    exact State.nextAccess_cons (fun h => nomatch h)
  obtain ⟨x, hx, hg⟩ := State.settle_grants (w := w) (by rw [hb]; exact hh) (.inr (by rw [hb]; exact hp ▸ Nat.lt_irrefl 16))
    (by
      rw [hb]
      exact (State.chosen_path (p := { s.path with waiting := some ⟨.read a, .read⟩, line := [] }) rfl (.inl rfl) rfl).trans hc)
  rw [hb] at hg
  exact ⟨x, hx, hg⟩

theorem State.busAccess_read_waits {a : Addr} {w : Requester} (h : s.busQuiet) (hh : s.path.holder = none)
    (hp : s.path.passedOver = 16) (hc : s.fill.chosen = some w) :
    ∃ x : Held, x.who = w ∧ (s.busAccess (.read a)).mem = s.mem ∧ (s.busAccess (.read a)).path = { s.path with
      waiting := some ⟨.read a, .read⟩, holder := some (.word x), passedOver := 0, lastServed := w } := by
  obtain ⟨hw, hl⟩ := h
  obtain ⟨x, hx, hg⟩ := State.settle_read_waits (s := { s with path := { s.path with line := [.read a] } }) hw rfl hh hp
    ((State.chosen_path (p := { s.path with line := [.read a] }) rfl (.inl rfl) rfl).trans hc)
  have hserve : s.busAccess (.read a) = ({ s with path := { s.path with line := [.read a] } } : State).settle := by
    rw [State.busAccess_line hl hh]
    refine State.serve_idle fun c hc => ?_
    rw [hg] at hc
    cases hc
  refine ⟨x, hx, by rw [hserve, State.settle_mem], ?_⟩
  rw [hserve, hg]
  simp only [hl]

/-- R12: a read that completes with the next access on its bus: the next one is granted. -/
theorem State.portComplete_read_next {b : Addr} {acc : BusAccess} {rest : List BusAccess}
    (hh : s.path.holder = some (.controller ⟨.read b, .read⟩)) (hw : s.path.waiting = none)
    (hl : s.path.line = acc :: rest) (hg : (s.classed acc).cls ≠ .guarded) (hp : s.path.passedOver < 16) :
    s.portComplete.path.holder = some (.controller (s.classed acc)) ∧ s.portComplete.path.line = rest ∧
      s.portComplete.path.passedOver = if s.release.fill.chosen = none then 0 else s.path.passedOver + 1 := by
  have hc : s.complete = { s.release with path := { s.release.path with cdata := Memory.readWord s.mem b } } :=
    State.complete_controller hh
  have hclass : s.complete.classed acc = s.classed acc := by
    rw [hc]
    cases acc <;> rfl
  have hchosen : s.complete.fill.chosen = s.release.fill.chosen := by
    rw [hc]
    exact State.chosen_path (p := { s.release.path with cdata := Memory.readWord s.mem b }) rfl (.inl rfl) rfl
  have hs := State.settle_next (s := s.complete) (acc := acc) (rest := rest) (by rw [hc]; exact hw) (by rw [hc]; exact hl)
    (by rw [hc]; rfl) (by rw [hc]; exact hp) (by rw [hclass]; exact hg)
  rw [hclass, hchosen] at hs
  unfold State.portComplete
  rw [hs]
  refine ⟨rfl, rfl, ?_⟩
  rw [hc]
  rfl

/-- Settles O18: each decision is one of `State.settle_next` and `State.settle_grants`, and the count rises only below
sixteen. -/
theorem arbiterPassesOverAtMostSixteen : Obligations.ArbiterPassesOverAtMostSixteen := by
  unfold Obligations.ArbiterPassesOverAtMostSixteen
  intro turn waits first
  have hturn : turn = Requester.turn := funext fun r => by cases r <;> rfl
  have hwaits (u : State) (r : Requester) : waits u r ↔ u.waits r = true := by
    cases r with
    | alarm => exact State.waits_alarm.symm
    | _ => exact Iff.rfl
  have hfirst (s : State) (w : Requester) (hc : s.fill.chosen = some w) : first s w := by
    obtain ⟨h1, h2⟩ := State.chosen_first hc
    rw [State.fill_path] at h2
    refine ⟨(hwaits _ _).mpr h1, fun x hx => ?_⟩
    rw [hturn]
    exact h2 x ((hwaits _ _).mp hx)
  have hchosen (s : State) (h : ∃ r, waits s.fill r) : ∃ w, s.fill.chosen = some w := by
    obtain ⟨r, hr⟩ := h
    exact State.chosen_isSome ((hwaits _ _).mp hr)
  clear_value first waits turn
  refine ⟨fun a s h hr => ?_, fun a s h hh hp hr => ?_, fun b acc rest s hh hw hl hg hp => ?_, fun s t h e => ?_⟩
  · obtain ⟨w, hc⟩ := hchosen s hr
    obtain ⟨x, rfl, he⟩ := State.busAccess_read_grants (a := a) h hc
    refine ⟨_, x, rfl, ?_⟩
    rw [State.cwait, he]
    exact ⟨rfl, rfl, hfirst s _ hc, rfl, rfl, by rw [h.1.1]; rfl⟩
  · obtain ⟨w, hc⟩ := hchosen s hr
    obtain ⟨x, rfl, hm, he⟩ := State.busAccess_read_waits (a := a) h hh hp hc
    refine ⟨_, x, rfl, ?_⟩
    rw [State.cwait, he]
    exact ⟨rfl, hfirst s _ hc, rfl, rfl, rfl, rfl, hm⟩
  · obtain ⟨h1, h2, h3⟩ := State.portComplete_read_next hh hw hl hg hp
    refine ⟨_, exec_portAccessComplete_held (by rw [hh]; rfl), h1, h2, fun hr => ?_, fun hn => ?_⟩
    · obtain ⟨w, hc⟩ := hchosen _ hr
      rw [h3, hc]
      rfl
    · have hnone : s.release.fill.chosen = none := by
        cases hc : s.release.fill.chosen with
        | none => rfl
        | some w => exact absurd ((hwaits _ _).mpr (State.chosen_first hc).1) (hn w)
      rw [h3, hnone]
      rfl
  · exact step_keeps (P := State.overBounded) (fun _ _ h => h) (fun c s t hs e => exec_overBounded hs e) h e

end Sys2Proof.Machine
end

section
/-! SUPPORT. Changes of a slot that find nothing else to act on: what they come to, exactly. -/

namespace Sys2Proof.Machine

open Sys2Proof

variable {s t u : State} {i : Slot} {p : Plane}

/-! ## Operations with nothing to do -/

/-- The slot states in which a lane may draw the slot's egress queues (R50). -/
def SlotState.drawing (st : SlotState) : Prop := st = .admitted ∨ st = .draining

/-- A lane with nothing to start: it is not free, or no frame that it may send waits. -/
def State.laneStill (s : State) (i : Slot) (p : Plane) : Prop :=
  (s.lane i p).state = .up → (s.lane i p).tx = .none →
    (s.lane i p).queue = [] ∧ ((s.slot i).state.drawing → ∀ c, s.sw.queue i c = EgressQueue.nil)

theorem State.laneStill_of_down (h : (s.lane i p).state ≠ .up) : s.laneStill i p := fun hu => absurd hu h

theorem State.eligible_nil {c : Cls} (h : s.sw.queue i c = EgressQueue.nil) : s.eligible i p c = none := by
  unfold State.eligible
  rw [h]
  rfl

theorem State.drawing_of_draws (h : s.draws? i p = true) : (s.slot i).state.drawing := by
  simp only [State.draws?, Bool.and_eq_true, Bool.or_eq_true, beq_iff_eq] at h
  exact h.1

theorem State.kickLane_still (h : s.laneStill i p) : s.kickLane i p = s := by
  unfold State.kickLane
  dsimp only
  split
  · rename_i hc
    simp only [Bool.and_eq_true, decide_eq_true_eq] at hc
    obtain ⟨hq, hw⟩ := h hc.1 hc.2
    rw [hq]
    dsimp only
    split
    · rename_i hd
      have hnil := hw (State.drawing_of_draws hd)
      rw [State.eligible_nil (hnil .timed), State.eligible_nil (hnil .bulk)]
    · rfl
  · rfl

theorem State.kickSlot_still (h : ∀ p, s.laneStill i p) : s.kickSlot i = s := by
  unfold State.kickSlot
  rw [State.kickLane_still (h .a), State.kickLane_still (h .b)]

theorem State.emptyQueue_nil {c : Cls} (h : s.sw.queue i c = EgressQueue.nil) : State.emptyQueue i s c = s := by
  unfold State.emptyQueue
  rw [h]
  rfl

theorem State.flush_still {cs : List Cls} (h : ∀ c, s.sw.queue i c = EgressQueue.nil) (hl : ∀ p, s.laneStill i p) :
    s.flush i cs = s := by
  unfold State.flush
  rw [foldl_still fun c => State.emptyQueue_nil (h c), State.kickSlot_still hl]

/-- No card point watches the slot. -/
def State.noCardPoint (s : State) (i : Slot) : Prop :=
  ∀ k, ((s.point k).cfg.kind.isCard && (s.point k).cfg.which == i.val + 1) = false

theorem State.clearCardPoints_still (h : s.noCardPoint i) : s.clearCardPoints i = s := by
  unfold State.clearCardPoints
  refine foldl_still (fun k => if_neg fun hc => ?_) _
  simp only [Bool.and_eq_true, decide_eq_true_eq] at hc
  have := h k
  rw [hc.1, hc.2] at this
  simp at this

/-- No reference entry names the slot. -/
def State.noRef (s : State) (i : Slot) : Prop := ∀ k, (s.ref k).names i = false

theorem reimage_same {ws : List ImgWord} (h : ∀ w ∈ ws, s.imageValue w = t.imageValue w) : reimage ws s t = t := by
  have hf : ∀ l : List ImgWord,
      ws.foldl (fun l w => if s.imageValue w = t.imageValue w || l.contains w then l else l ++ [w]) l = l := by
    intro l
    induction ws with
    | nil => rfl
    | cons w ws ih =>
      rw [List.foldl_cons, if_pos (by rw [decide_eq_true (h w (List.mem_cons_self ..))]; rfl)]
      exact ih fun x hx => h x (List.mem_cons_of_mem w hx)
  unfold reimage
  rw [hf, ite_self]

theorem State.putTime_self (s : State) : s.putTime s.time = s := by
  unfold State.putTime
  rw [if_pos rfl]
  have h : retouch [0x34, 0x35, 0x36, 0x37] s { s with time := s.time } = s := retouch_same fun _ _ => rfl
  rw [h, reimage_same fun _ _ => rfl]

theorem State.disqualifySlot_still (h : s.noRef i) : s.disqualifySlot i = s := by
  have hm : s.time.refs.map (fun r => if r.names i then r.disqualify else r) = s.time.refs := by
    refine Vector.ext fun k hk => ?_
    have hn : (s.time.refs[k]).names i = false := h ⟨k, hk⟩
    rw [Vector.getElem_map, hn]
    rfl
  have ht : s.time.rejudge (s.time.disqualifySlot i) = s.time := by
    unfold TimeBase.rejudge TimeBase.disqualifySlot
    rw [hm, if_pos rfl]
  unfold State.disqualifySlot
  rw [ht, State.putTime_self]

theorem State.roomReport_still (h : s.ring.tx = none) : s.roomReport = s := by
  have hr : ({ s.ring with tx := none } : RingEngine) = s.ring := by rw [← h]
  unfold State.roomReport
  rw [h, Option.map_none, hr]

/-! ## A slot's entry replaced (R77) -/

/-- A slot's entry replaced, with SLOT_CHANGE delivered when its summary changes (R77). -/
def State.becomes (s : State) (i : Slot) (e : SlotEntry) : State :=
  if (s.slot i).summary = e.summary then s.setSlot i e else s.slotBecomes i e

theorem State.putSlot_apart (s : State) (i : Slot) (e : SlotEntry) : (s.putSlot i e).apart = (s.becomes i e).apart := by
  unfold State.putSlot State.becomes
  dsimp only
  split <;> rfl

theorem State.becomes_apart (s : State) (i : Slot) (e : SlotEntry) : (s.becomes i e).apart = (s.apart.becomes i e).apart := by
  unfold State.becomes
  have h : s.apart.slot i = s.slot i := rfl
  rw [h]
  split <;> rfl

theorem State.putSlot_congr {x : State} (h : s.apart = x.apart) (i : Slot) (e : SlotEntry) :
    (s.putSlot i e).apart = (x.becomes i e).apart := by
  rw [State.putSlot_apart, State.becomes_apart, h, ← State.becomes_apart]

theorem State.becomes_same {e : SlotEntry} (h : (s.slot i).summary = e.summary) : s.becomes i e = s.setSlot i e := if_pos h

theorem State.becomes_moves {e : SlotEntry} (h : (s.slot i).state ≠ e.state) : s.becomes i e = s.slotBecomes i e :=
  if_neg fun hs => h (congrArg (·.1) hs)

/-! A change of an entry leaves alone what is not the slot manager's. -/

@[simp] theorem State.putSlot_lanes (s : State) (i : Slot) (e : SlotEntry) : (s.putSlot i e).lanes = s.lanes := by
  unfold State.putSlot
  dsimp only
  split <;> rfl

@[simp] theorem State.putSlot_sw (s : State) (i : Slot) (e : SlotEntry) : (s.putSlot i e).sw = s.sw := by
  unfold State.putSlot
  dsimp only
  split <;> rfl

@[simp] theorem State.putSlot_ring (s : State) (i : Slot) (e : SlotEntry) : (s.putSlot i e).ring = s.ring := by
  unfold State.putSlot
  dsimp only
  split <;> rfl

@[simp] theorem State.putSlot_alarm (s : State) (i : Slot) (e : SlotEntry) : (s.putSlot i e).alarm = s.alarm := by
  unfold State.putSlot
  dsimp only
  split <;> rfl

@[simp] theorem State.putSlot_time (s : State) (i : Slot) (e : SlotEntry) : (s.putSlot i e).time = s.time := by
  unfold State.putSlot
  dsimp only
  split <;> rfl

@[simp] theorem State.putSlot_cyc (s : State) (i : Slot) (e : SlotEntry) : (s.putSlot i e).cyc = s.cyc := by
  unfold State.putSlot
  dsimp only
  split <;> rfl

@[simp] theorem State.putSlot_osc (s : State) (i : Slot) (e : SlotEntry) : (s.putSlot i e).osc = s.osc := by
  unfold State.putSlot
  dsimp only
  split <;> rfl

/-- What a change of a slot's entry would act on is not there. -/
structure State.changeStill (s : State) (i : Slot) (new : SlotEntry) : Prop where
  lanes : ∀ p, (s.lane i p).state = .up → (s.lane i p).tx = .none →
    (s.lane i p).queue = [] ∧ (new.state.drawing → ∀ c, s.sw.queue i c = EgressQueue.nil)
  serving : (s.slot i).serving = new.serving ∨ s.ring.tx = none
  queues : ((s.slot i).leaves new || (!(s.slot i).fenced && new.fenced)) = false ∨ ∀ c, s.sw.queue i c = EgressQueue.nil
  cards : (s.slot i).state = .admitted → new.state ≠ .admitted → s.noCardPoint i
  refs : (s.slot i).breaksRef new = false ∨ s.noRef i

theorem State.changeSlot_still {new : SlotEntry} (h : s.changeStill i new) : s.changeSlot i new = s.putSlot i new := by
  have hl : ∀ p, (s.putSlot i new).laneStill i p := fun p => by
    unfold State.laneStill State.lane
    rw [State.putSlot_lanes, State.putSlot_sw, State.putSlot_slot_self]
    exact h.lanes p
  have h2 : (if (s.slot i).serving = new.serving then s.putSlot i new else (s.putSlot i new).roomReport) = s.putSlot i new := by
    split
    · rfl
    · exact State.roomReport_still (by rw [State.putSlot_ring]; exact h.serving.resolve_left ‹_›)
  have h3 : (if (s.slot i).leaves new || (!(s.slot i).fenced && new.fenced) then (s.putSlot i new).flushBoth i
      else s.putSlot i new) = s.putSlot i new := by
    split
    · rename_i hc
      exact State.flush_still (fun c => by
        rw [State.putSlot_sw]
        exact (h.queues.resolve_left (by rw [hc]; exact Bool.noConfusion)) c) hl
    · rfl
  have h4 : (if (s.slot i).state = .admitted && new.state ≠ .admitted then (s.putSlot i new).clearCardPoints i
      else s.putSlot i new) = s.putSlot i new := by
    split
    · rename_i hc
      simp only [Bool.and_eq_true, decide_eq_true_eq] at hc
      refine State.clearCardPoints_still fun k => ?_
      have := h.cards hc.1 hc.2 k
      unfold State.point at this ⊢
      rw [State.putSlot_alarm]
      exact this
    · rfl
  have h5 : (if (s.slot i).breaksRef new then (s.putSlot i new).disqualifySlot i else s.putSlot i new) = s.putSlot i new := by
    split
    · rename_i hc
      refine State.disqualifySlot_still fun k => ?_
      have := h.refs.resolve_left (by rw [hc]; exact Bool.noConfusion) k
      unfold State.ref at this ⊢
      rw [State.putSlot_time]
      exact this
    · rfl
  unfold State.changeSlot
  dsimp only
  rw [h2, h3, h4, h5, State.kickSlot_still hl, ite_self]

/-! ## The lanes' enables (R39) -/

/-- A lane port with nothing in transmission or to be sent, after its enable has gone off. -/
def LanePort.offClear (l : LanePort) : LanePort :=
  if l.state = .up then { l.settled .off [] with enable := false } else { l with enable := false, state := .off }

theorem State.leaveUp_clear {st : LaneState} (htx : (s.lane i p).tx = .none) :
    s.leaveUp i p st = s.setLane i p ((s.lane i p).settled st []) := by
  have hs (sent : List Byte) : (s.lane i p).settled st sent = (s.lane i p).settled st [] := by
    unfold LanePort.settled
    rw [htx]
  unfold State.leaveUp
  dsimp only
  rw [hs]
  cases hx : (s.lane i p).tx with
  | none => rfl
  | control f bs => rw [hx] at htx; cases htx
  | data c id => rw [hx] at htx; cases htx

theorem State.setLane_setLane (s : State) (i : Slot) (p : Plane) (l m : LanePort) :
    (s.setLane i p l).setLane i p m = s.setLane i p m := by
  unfold State.setLane
  simp only [vset_vset, vget_vset_self]
  cases p <;> rfl

/-- R39: the enable of a lane with nothing to send goes off. -/
theorem State.laneOff_clear (h : (s.lane i p).state = .up → (s.lane i p).tx = .none ∧ (s.lane i p).queue = []) :
    State.laneOff i s p = (s.setLane i p (s.lane i p).offClear).putSlot i ((s.slot i).recordLane p .off) := by
  unfold State.laneOff LanePort.offClear
  dsimp only
  by_cases hu : (s.lane i p).state = .up
  · obtain ⟨htx, hq⟩ := h hu
    have hun : (s.lane i p).unsent = [] := by
      unfold LanePort.unsent
      rw [htx, hq]
      rfl
    simp only [if_pos hu, hun, State.leaveUp_clear htx, State.reportUnsent, List.foldl_nil, State.setLane_setLane,
      State.lane_setLane_self]
    rfl
  · simp only [if_neg hu, State.reportUnsent, List.foldl_nil]
    rfl

/-- A lane port that is UP has nothing in transmission and nothing to be sent. -/
def LanePort.clear (l : LanePort) : Prop := l.state = .up → l.tx = .none ∧ l.queue = []

theorem State.setSlot_setSlot (s : State) (i : Slot) (e f : SlotEntry) : (s.setSlot i e).setSlot i f = s.setSlot i f := by
  unfold State.setSlot
  rw [vset_vset]

theorem SlotEntry.recordLane_summary (e : SlotEntry) (p : Plane) (st : LaneState) :
    (e.recordLane p st).summary = e.summary := by
  unfold SlotEntry.recordLane
  dsimp only
  split <;> cases p <;> rfl

/-- The port table's copies after both lanes have gone to a state that is not UP (R157). -/
def SlotEntry.lanesTo (e : SlotEntry) (st : LaneState) : SlotEntry := (e.recordLane .a st).recordLane .b st

theorem SlotEntry.lanesTo_summary (e : SlotEntry) (st : LaneState) : (e.lanesTo st).summary = e.summary := by
  unfold SlotEntry.lanesTo
  rw [SlotEntry.recordLane_summary, SlotEntry.recordLane_summary]

/-- Both lane ports of a slot after an operation on each. -/
def Lanes.both (l : Lanes) (g : LanePort → LanePort) : Lanes := { a := g l.a, b := g l.b }

/-- What an operation of `State.followEnable` on one lane comes to. -/
def laneStep (i : Slot) (F : State → Plane → State) (C : LanePort → Prop) (g : LanePort → LanePort) (st : LaneState) : Prop :=
  ∀ s p, C (s.lane i p) →
    (F s p).apart = ((s.setLane i p (g (s.lane i p))).setSlot i ((s.slot i).recordLane p st)).apart

theorem laneOff_step (i : Slot) : laneStep i (State.laneOff i) LanePort.clear LanePort.offClear .off := by
  intro s p h
  rw [State.laneOff_clear h, State.putSlot_apart]
  exact congrArg State.apart (State.becomes_same (SlotEntry.recordLane_summary ..).symm)

theorem laneOn_step (i : Slot) : laneStep i (State.laneOn i) (·.state = .off)
    (fun l => { l with enable := true, state := .training }) .training := by
  intro s p h
  unfold State.laneOn
  dsimp only
  rw [if_pos h, State.putSlot_apart]
  exact congrArg State.apart (State.becomes_same (SlotEntry.recordLane_summary ..).symm)

theorem laneStep.both {F : State → Plane → State} {C : LanePort → Prop} {g : LanePort → LanePort} {st : LaneState}
    (hF : laneStep i F C g st) (h : ∀ p, C (s.lane i p)) : ([Plane.a, Plane.b].foldl F s).apart =
      (({ s with lanes := vset s.lanes i ((vget s.lanes i).both g) } : State).setSlot i ((s.slot i).lanesTo st)).apart := by
  have ha := hF s .a (h .a)
  simp only [List.foldl]
  generalize F s .a = v at ha
  have hlane : v.lane i .b = s.lane i .b :=
    (congrArg (fun x : State => x.lane i .b) ha).trans (s.lane_setLane_other i .a _)
  have hslot : v.slot i = (s.slot i).recordLane .a st :=
    (congrArg (fun x : State => x.slot i) ha).trans (State.slot_setSlot_self ..)
  rw [hF v .b (by rw [hlane]; exact h .b), hlane, hslot]
  change ((v.apart.setLane i .b _).setSlot i _).apart = _
  rw [ha]
  have hl : vset (vset s.lanes i ((vget s.lanes i).set .a (g (s.lane i .a)))) i
      ((vget (vset s.lanes i ((vget s.lanes i).set .a (g (s.lane i .a)))) i).set .b (g (s.lane i .b))) =
      vset s.lanes i ((vget s.lanes i).both g) := by
    rw [vget_vset_self, vset_vset]
    rfl
  simp only [State.apart, State.setLane, State.setSlot, vset_vset, hl]
  rfl

/-! ## Moves -/

theorem State.becomes_setSlot {e f : SlotEntry} (h : f.summary = e.summary) :
    (s.becomes i e).setSlot i f = s.becomes i f := by
  unfold State.becomes
  rw [h]
  split
  · exact s.setSlot_setSlot i e f
  · exact congrArg (fun x : State => x.withCauses 0x200) (s.setSlot_setSlot i e f)

/-- What a move of a slot would act on is not there. -/
structure State.moveStill (s : State) (i : Slot) (new : SlotEntry) : Prop extends s.changeStill i new where
  entry : (s.slot i).state = .admitted → new.state ≠ .admitted → s.cyc.entry = none

theorem State.pollLeaves_still (h : s.cyc.entry = none) : s.pollLeaves i = s := by
  unfold State.pollLeaves State.pollRun
  rw [h]

theorem State.moveSlot_changed {new : SlotEntry} (h : s.moveStill i new) :
    s.moveSlot i new = (s.putSlot i new).followEnable i (s.slot i).state := by
  have hp : (if (s.slot i).state = .admitted && new.state ≠ .admitted then (s.putSlot i new).pollLeaves i
      else s.putSlot i new) = s.putSlot i new := by
    split
    · rename_i hc
      simp only [Bool.and_eq_true, decide_eq_true_eq] at hc
      exact State.pollLeaves_still (by rw [State.putSlot_cyc]; exact h.entry hc.1 hc.2)
    · rfl
  unfold State.moveSlot
  dsimp only
  rw [State.changeSlot_still h.tochangeStill, hp]

/-- A move between states whose lane enables are alike. -/
theorem State.moveSlot_keeps {new : SlotEntry} (h : s.moveStill i new) (hl : (s.slot i).state.laneOn = new.state.laneOn) :
    s.moveSlot i new = s.putSlot i new := by
  rw [State.moveSlot_changed h]
  unfold State.followEnable
  dsimp only
  rw [State.putSlot_slot_self, if_pos hl]

/-- A move with which the lane enables go on or off. -/
theorem State.moveSlot_steps {new : SlotEntry} {F : State → Plane → State} {C : LanePort → Prop} {g : LanePort → LanePort}
    {st : LaneState} (h : s.moveStill i new) (hF : laneStep i F C g st) (hc : ∀ p, C (s.lane i p))
    (hf : (s.putSlot i new).followEnable i (s.slot i).state = [Plane.a, Plane.b].foldl F (s.putSlot i new)) :
    (s.moveSlot i new).apart =
      (({ s with lanes := vset s.lanes i ((vget s.lanes i).both g) } : State).becomes i (new.lanesTo st)).apart := by
  rw [State.moveSlot_changed h, hf, hF.both fun p => by
    unfold State.lane
    rw [State.putSlot_lanes]
    exact hc p, State.putSlot_slot_self, State.putSlot_lanes]
  have hp := s.putSlot_apart i new
  generalize s.putSlot i new = v at hp
  rw [← State.becomes_setSlot (SlotEntry.lanesTo_summary new st)]
  change ({ v.apart with lanes := _ } : State).setSlot i _ = _
  rw [hp]
  unfold State.becomes
  have hslot : ({ s with lanes := vset s.lanes i ((vget s.lanes i).both g) } : State).slot i = s.slot i := rfl
  rw [hslot]
  split <;> rfl

/-- A move that takes the lane enables off. -/
theorem State.moveSlot_off {new : SlotEntry} (h : s.moveStill i new) (hon : (s.slot i).state.laneOn = true)
    (hoff : new.state.laneOn = false) (hc : ∀ p, (s.lane i p).clear) : (s.moveSlot i new).apart =
      (({ s with lanes := vset s.lanes i ((vget s.lanes i).both LanePort.offClear) } : State).becomes i
        (new.lanesTo .off)).apart := by
  refine State.moveSlot_steps h (laneOff_step i) hc ?_
  unfold State.followEnable
  dsimp only
  rw [State.putSlot_slot_self, hon, hoff, if_neg Bool.noConfusion, if_neg Bool.noConfusion]

/-- A move that takes the lane enables on, both lanes OFF. -/
theorem State.moveSlot_on {new : SlotEntry} (h : s.moveStill i new) (hoff : (s.slot i).state.laneOn = false)
    (hon : new.state.laneOn = true) (hc : ∀ p, (s.lane i p).state = .off) : (s.moveSlot i new).apart =
      (({ s with lanes := vset s.lanes i (vget s.lanes i).enabled } : State).becomes i (new.lanesTo .training)).apart := by
  refine State.moveSlot_steps h (laneOn_step i) hc ?_
  unfold State.followEnable
  dsimp only
  rw [State.putSlot_slot_self, hon, hoff, if_neg Bool.noConfusion, if_pos rfl]

end Sys2Proof.Machine
end

section
/-! SUPPORT. Moves of a slot without lanes (`State.slotDark`), and the slot commands, pins and timers that rest on them. -/

namespace Sys2Proof.Machine

open Sys2Proof

variable {s t u g : State} {i : Slot} {st : SlotState} {f : SlotEntry → SlotEntry}

/-! ## Entries entered (R59, R60, R74) -/

theorem Delay.invalidate_of_invalid {d : Delay} (h : d.valid = false) : d.invalidate = d := by
  unfold Delay.invalidate
  rw [← h]

/-- An entry entering a state, with no effects of leaving and no delay to invalidate. -/
theorem SlotEntry.enter_plain {e : SlotEntry} {osc : Nat} (hd : e.state ≠ .draining)
    (ha : e.state = .admitted → st = .draining)
    (hp : st = .powering → e.delayA.valid = false ∧ e.delayB.valid = false) :
    e.enter st osc = { e with state := st, pwren := st.powered, timer := st.timerFrom osc e.attempts
                              override := e.override && !st.clearsOverride } := by
  have hleft : ((e.state == .admitted && st != .draining) || e.state == .draining) = false := by
    rw [beq_eq_false_iff_ne.mpr hd, Bool.or_false]
    by_cases h : e.state = .admitted
    · rw [ha h]
      exact Bool.and_false _
    · rw [beq_eq_false_iff_ne.mpr h, Bool.false_and]
  unfold SlotEntry.enter
  simp only [hleft, Bool.false_eq_true, if_false]
  by_cases h : st = .powering
  · obtain ⟨h1, h2⟩ := hp h
    rw [if_pos h, Delay.invalidate_of_invalid h1, Delay.invalidate_of_invalid h2]
  · rw [if_neg h]

/-- The slot states without traffic: neither ADMITTED nor DRAINING. -/
def SlotState.offTraffic (st : SlotState) : Prop := st ≠ .admitted ∧ st ≠ .draining

/-- A change of an entry that touches neither the delays nor the active plane, and sets no FENCED flag. -/
structure SlotEntry.mild (e new : SlotEntry) : Prop where
  delayA : new.delayA = e.delayA
  delayB : new.delayB = e.delayB
  active : new.active = e.active
  fenced : new.fenced = true → e.fenced = true

theorem State.moveStill_dark {new : SlotEntry} (hd : s.slotDark i) (ho : (s.slot i).state.offTraffic) (hn : new.state ≠ .admitted)
    (hm : (s.slot i).mild new) : s.moveStill i new := by
  obtain ⟨hdown, hda, hdb⟩ := hd
  obtain ⟨hna, hnd⟩ := ho
  have hnf : (!(s.slot i).fenced && new.fenced) = false := by
    cases hf : new.fenced with
    | false => rw [Bool.and_false]
    | true => rw [hm.fenced hf]; rfl
  have hinvalid : ((s.slot i).delay (s.slot i).active).valid = false := by
    cases (s.slot i).active
    · exact hda
    · exact hdb
  constructor
  · constructor
    · exact fun p hu => absurd hu (hdown p)
    · left
      unfold SlotEntry.serving
      rw [beq_eq_false_iff_ne.mpr hna, beq_eq_false_iff_ne.mpr hn, Bool.false_and, Bool.false_and]
    · left
      unfold SlotEntry.leaves
      rw [hnf, beq_eq_false_iff_ne.mpr hna, beq_eq_false_iff_ne.mpr hnd]
      rfl
    · exact fun h => absurd h hna
    · left
      unfold SlotEntry.breaksRef
      rw [hnf, hinvalid, hm.active, beq_eq_false_iff_ne.mpr hna]
      simp
  · exact fun h => absurd h hna

theorem State.slotDark_putSlot {e : SlotEntry} (hd : s.slotDark i) (ha : e.delayA = (s.slot i).delayA)
    (hb : e.delayB = (s.slot i).delayB) : (s.putSlot i e).slotDark i := by
  unfold State.slotDark State.lane at hd ⊢
  rw [State.putSlot_lanes, State.putSlot_slot_self, ha, hb]
  exact hd

/-- Moves that follow one another deliver SLOT_CHANGE once, as far as the pending set shows. -/
theorem State.slotBecomes_slotBecomes (s : State) (i : Slot) (e f : SlotEntry) :
    (s.slotBecomes i e).slotBecomes i f = s.slotBecomes i f := by
  unfold State.slotBecomes State.withCauses State.setSlot
  simp only [vset_vset, BitVec.or_assoc, BitVec.or_self]

theorem State.slotBecomes_apart (s : State) (i : Slot) (e : SlotEntry) :
    (s.slotBecomes i e).apart = (s.apart.slotBecomes i e).apart := rfl

/-- An entry replaced twice, its state changing each time. -/
theorem State.putSlot_putSlot_apart {e f : SlotEntry} (h1 : (s.slot i).state ≠ e.state) (h2 : e.state ≠ f.state) :
    ((s.putSlot i e).putSlot i f).apart = (s.slotBecomes i f).apart := by
  rw [State.putSlot_apart, State.becomes_moves (by rw [State.putSlot_slot_self]; exact h2), State.slotBecomes_apart,
    State.putSlot_apart, State.becomes_moves h1, ← State.slotBecomes_apart, State.slotBecomes_slotBecomes]

theorem State.putSlot_moves {e : SlotEntry} (h : (s.slot i).state ≠ e.state) :
    (s.putSlot i e).apart = (s.slotBecomes i e).apart := by
  rw [State.putSlot_apart, State.becomes_moves h]

/-! ## Dark moves -/

/-- The entry of a slot without lanes as it enters a state. -/
def SlotEntry.enterDark (e : SlotEntry) (st : SlotState) (osc : Nat) : SlotEntry :=
  { e with state := st, pwren := st.powered, timer := st.timerFrom osc e.attempts
           override := e.override && !st.clearsOverride }

/-- What a move into a state without lanes may set beforehand: no state, configuration or pin. -/
structure SlotEntry.prepares (e new : SlotEntry) : Prop extends e.mild new where
  state : new.state = e.state
  cfg : new.cfg = e.cfg
  latch : new.latch = e.latch
  pgood : new.pgood = e.pgood

theorem SlotEntry.prepares_refl (e : SlotEntry) : e.prepares (id e) := ⟨⟨rfl, rfl, rfl, id⟩, rfl, rfl, rfl, rfl⟩

theorem SlotEntry.enterDark_clears {e : SlotEntry} {osc : Nat} (h : st.clearsOverride = true) :
    e.enterDark st osc = { e with
      state := st, pwren := st.powered, timer := st.timerFrom osc e.attempts, override := false } := by
  unfold SlotEntry.enterDark
  rw [h, Bool.not_true, Bool.and_false]

theorem SlotEntry.enterDark_keeps {e : SlotEntry} {osc : Nat} (h : st.clearsOverride = false) :
    e.enterDark st osc = { e with state := st, pwren := st.powered, timer := st.timerFrom osc e.attempts } := by
  unfold SlotEntry.enterDark
  rw [h, Bool.not_false, Bool.and_true]

theorem SlotEntry.prepares_noAttempts (e : SlotEntry) : e.prepares e.noAttempts := ⟨⟨rfl, rfl, rfl, id⟩, rfl, rfl, rfl, rfl⟩

/-- A slot without lanes enters a state whose lane enables are as before. -/
theorem State.enterSlot_dark (st : SlotState) (hd : s.slotDark i) (ho : (s.slot i).state.offTraffic) (hst : st ≠ .admitted)
    (hf : (s.slot i).prepares (f (s.slot i))) (hl : (s.slot i).state.laneOn = st.laneOn) :
    s.enterSlot i st f = s.putSlot i ((f (s.slot i)).enterDark st s.osc) := by
  have he : (f (s.slot i)).enter st s.osc = (f (s.slot i)).enterDark st s.osc :=
    SlotEntry.enter_plain (by rw [hf.state]; exact ho.2) (by rw [hf.state]; exact fun h => absurd h ho.1)
      fun _ => by rw [hf.delayA, hf.delayB]; exact hd.2
  unfold State.enterSlot
  rw [he]
  refine State.moveSlot_keeps (State.moveStill_dark hd ho hst ?_) hl
  exact ⟨hf.delayA, hf.delayB, hf.active, hf.fenced⟩

/-- A slot without lanes is powered, with power-good still to come (R63). -/
theorem State.enterPowering_dark (hd : s.slotDark i) (ho : (s.slot i).state.offTraffic)
    (hf : (s.slot i).prepares (f (s.slot i))) (hl : (s.slot i).state.laneOn = false) (hp : (s.slot i).pgood = false) :
    s.enterPowering i f = s.putSlot i ((f (s.slot i)).enterDark .powering s.osc) := by
  unfold State.enterPowering
  dsimp only
  rw [State.enterSlot_dark .powering hd ho (by decide) hf hl, State.putSlot_slot_self]
  refine if_neg ?_
  rw [SlotEntry.enterDark, hf.pgood, hp]
  exact Bool.false_ne_true

theorem State.mayPower_seated (hf : (s.slot i).prepares (f (s.slot i))) :
    (s.putSlot i ((f (s.slot i)).enterDark .seated s.osc)).mayPower i = s.mayPower i := by
  unfold State.mayPower
  rw [State.putSlot_slot_self, State.putSlot_hub]
  simp only [SlotEntry.enterDark, hf.cfg, hf.latch]

/-- R62: a slot without lanes enters SEATED, and is not powered. -/
theorem State.enterSeated_stays (hd : s.slotDark i) (ho : (s.slot i).state.offTraffic) (hne : (s.slot i).state ≠ .seated)
    (hf : (s.slot i).prepares (f (s.slot i))) (hl : (s.slot i).state.laneOn = false) (hp : s.mayPower i = false) :
    (s.enterSeated i f).apart = (s.slotBecomes i ((f (s.slot i)).enterDark .seated s.osc)).apart := by
  unfold State.enterSeated
  rw [State.enterSlot_dark .seated hd ho (by decide) hf hl,
    State.judgeSeated_still (.inr ((State.mayPower_seated hf).trans hp)), State.putSlot_moves hne]

/-- R62: a slot without lanes enters SEATED and is powered, with power-good still to come. -/
theorem State.enterSeated_powers (hd : s.slotDark i) (ho : (s.slot i).state.offTraffic) (hne : (s.slot i).state ≠ .seated)
    (hf : (s.slot i).prepares (f (s.slot i))) (hl : (s.slot i).state.laneOn = false) (hp : s.mayPower i = true)
    (hg : (s.slot i).pgood = false) : (s.enterSeated i f).apart =
      (s.slotBecomes i (((f (s.slot i)).enterDark .seated s.osc).enterDark .powering s.osc)).apart := by
  have hmay := (State.mayPower_seated hf).trans hp
  have hslot := s.putSlot_slot_self i ((f (s.slot i)).enterDark .seated s.osc)
  have hdark := State.slotDark_putSlot (e := (f (s.slot i)).enterDark .seated s.osc) hd hf.delayA hf.delayB
  have hpow := State.enterPowering_dark (f := id) hdark (by rw [hslot]; exact (⟨by decide, by decide⟩ : SlotState.seated.offTraffic))
    (SlotEntry.prepares_refl _) (by rw [hslot]; rfl) (by rw [hslot]; exact hf.pgood.trans hg)
  unfold State.enterSeated State.judgeSeated
  rw [State.enterSlot_dark .seated hd ho (by decide) hf hl, if_pos (by rw [hmay, hslot]; rfl), hpow, State.putSlot_osc, id,
    hslot]
  exact State.putSlot_putSlot_apart hne (by decide : SlotState.seated ≠ .powering)

/-! ## Moves into DRAINING (R71) -/

/-- R71: an ADMITTED slot with nothing else to act on enters DRAINING. -/
theorem State.enterDraining_still (c : DrainCause) (h : s.slotStill i) (ha : (s.slot i).state = .admitted) :
    s.enterDraining i c = s.putSlot i { s.slot i with
      state := .draining, drainCause := c, timer := some (s.osc + 10000000), pwren := true } := by
  have he : SlotEntry.enter { s.slot i with drainCause := c } .draining s.osc = { s.slot i with
      state := .draining, drainCause := c, timer := some (s.osc + 10000000), pwren := true } := by
    rw [SlotEntry.enter_plain (by rw [show SlotEntry.state _ = _ from ha]; decide) (fun _ => rfl) (fun h => nomatch h)]
    simp only [SlotState.clearsOverride, Bool.not_false, Bool.and_true]
    rfl
  unfold State.enterDraining State.enterSlot
  rw [he]
  obtain ⟨hlanes, hq, hentry, htx, hrefs, hcards⟩ := h
  refine State.moveSlot_keeps ?_ (by rw [ha]; rfl)
  exact { lanes := fun p _ _ => ⟨hlanes p, fun _ => hq⟩, serving := .inr htx, queues := .inr hq, cards := fun _ _ => hcards, refs := .inr hrefs
          entry := fun _ _ => hentry }

/-! ## The slot commands (R75) -/

theorem slotOf_none {n : Nat} (h : n = 0 ∨ 12 < n) : slotOf n = none := dif_neg (by omega)

theorem slotOf_number (i : Slot) : slotOf (BitVec.ofNat 32 (i.val + 1)).toNat = some i := by
  have hi := i.isLt
  have hn : (BitVec.ofNat 32 (i.val + 1)).toNat = i.val + 1 := by
    rw [BitVec.toNat_ofNat]
    omega
  unfold slotOf
  rw [hn, dif_pos (by omega)]
  rfl

theorem State.Shadows.begun_slot {o : OpenCmd} {m : Memory} (hg : g.Shadows (s.begun o m)) (i : Slot) :
    g.slot i = s.slot i := by
  rw [State.slot, hg.sm]
  rfl

theorem State.Shadows.begun_dark {o : OpenCmd} {m : Memory} (hg : g.Shadows (s.begun o m)) (h : s.slotDark i) :
    g.slotDark i := by
  change g.apart.slotDark i
  rw [hg.begun_apart]
  exact h

theorem State.Shadows.begun_still {o : OpenCmd} {m : Memory} (hg : g.Shadows (s.begun o m)) (h : s.slotStill i) :
    g.slotStill i := by
  change g.apart.slotStill i
  rw [hg.begun_apart]
  exact h

theorem State.Shadows.begun_osc {o : OpenCmd} {m : Memory} (hg : g.Shadows (s.begun o m)) : g.osc = s.osc := by
  change g.apart.osc = _
  rw [hg.begun_apart]
  rfl

theorem State.Shadows.begun_mayPower {o : OpenCmd} {m : Memory} (hg : g.Shadows (s.begun o m)) (i : Slot) :
    g.mayPower i = s.mayPower i := by
  change g.apart.mayPower i = _
  rw [hg.begun_apart]
  rfl

/-- A slot command whose owner answers without doing anything. -/
theorem State.Shadows.answers {o : OpenCmd} {m : Memory} {k : Command} {a : Answer} (h : s.takesCommand)
    (hg : g.Shadows (s.begun o m)) : (g.finishAnswer k a).apart =
      (s.afterCommand m (s.cmd.record.opened.finished k a.result a.item false)).apart := hg.answered h

/-- A slot command that moves its slot. -/
theorem State.Shadows.moves {o : OpenCmd} {m : Memory} {k : Command} {e : SlotEntry} (h : s.takesCommand)
    (hg : g.Shadows (s.begun o m)) (hu : u.apart = (g.slotBecomes i e).apart) :
    (u.finishAnswer k .done).apart =
      ((s.afterCommand m (s.cmd.record.opened.finished k .done 0 false)).slotBecomes i e).apart := by
  rw [State.finishAnswer, State.finish_apart, hu, State.slotBecomes_apart, hg.begun_apart, h.after_eq]
  rfl

theorem exec_slotRelease {unread : BitVec 20} {v : Word} {x : State} (h : s.takesCommand) (hh : s.cmd.hub = .inService)
    (hrun : ∀ g : State, g.Shadows (s.begun ⟨.slotRelease, 1, [v]⟩ (commandMem s.mem 0x0A 1 unread [v])) →
      ((g.slotReleaseOp v.toNat).1.finishAnswer .slotRelease (g.slotReleaseOp v.toNat).2).apart = x) :
    ∃ t, exec (.slotRelease 1 unread [v]) s = .next t ∧ t.apart = x :=
  exec_runs (k := .slotRelease) rfl h rfl rfl rfl (by rw [hh]; rfl) hrun

theorem exec_slotRetry {unread : BitVec 20} {v : Word} {x : State} (h : s.takesCommand) (hh : s.cmd.hub = .inService)
    (hrun : ∀ g : State, g.Shadows (s.begun ⟨.slotRetry, 1, [v]⟩ (commandMem s.mem 0x0B 1 unread [v])) →
      ((g.slotRetryOp v.toNat).1.finishAnswer .slotRetry (g.slotRetryOp v.toNat).2).apart = x) :
    ∃ t, exec (.slotRetry 1 unread [v]) s = .next t ∧ t.apart = x :=
  exec_runs (k := .slotRetry) rfl h rfl rfl rfl (by rw [hh]; rfl) hrun

theorem exec_slotOverride {unread : BitVec 20} {v : Word} {x : State} (h : s.takesCommand) (hh : s.cmd.hub = .inService)
    (hrun : ∀ g : State, g.Shadows (s.begun ⟨.slotOverride, 1, [v]⟩ (commandMem s.mem 0x0C 1 unread [v])) →
      ((g.slotOverrideOp v.toNat).1.finishAnswer .slotOverride (g.slotOverrideOp v.toNat).2).apart = x) :
    ∃ t, exec (.slotOverride 1 unread [v]) s = .next t ∧ t.apart = x :=
  exec_runs (k := .slotOverride) rfl h rfl rfl rfl (by rw [hh]; rfl) hrun

/-- R75: what each command makes of a number that names a slot. -/
theorem State.slotReleaseOp_slot (s : State) (i : Slot) : s.slotReleaseOp (BitVec.ofNat 32 (i.val + 1)).toNat =
    if (s.slot i).state = .admitted then (s.enterDraining i .release, .done) else (s, .refused) := by
  unfold State.slotReleaseOp
  rw [slotOf_number]

theorem State.slotRetryOp_slot (s : State) (i : Slot) : s.slotRetryOp (BitVec.ofNat 32 (i.val + 1)).toNat =
    if (s.slot i).state = .lockedOut then (s.enterSeated i SlotEntry.noAttempts, .done) else (s, .refused) := by
  unfold State.slotRetryOp
  rw [slotOf_number]

theorem State.slotOverrideOp_slot (s : State) (i : Slot) : s.slotOverrideOp (BitVec.ofNat 32 (i.val + 1)).toNat =
    if ((s.slot i).state = .rejected && (s.slot i).cfg.provisioned && (s.slot i).latch) = true then
      (s.enterPowering i (fun e => { e with override := true, attempts := 0 }), .done)
    else (s, .refused) := by
  unfold State.slotOverrideOp
  rw [slotOf_number]

/-- Settles O29: a command outside its slot state does nothing; in it, the slot moves as its new state says. -/
theorem slotCommandsTaken : Obligations.SlotCommandsTaken := by
  unfold Obligations.SlotCommandsTaken
  intro unread s h hh
  refine ⟨fun v hv => ?_, fun i => ?_⟩
  · have h1 : ∃ t, exec (.slotRelease 1 unread [v]) s = .next t ∧ t.apart = (s.afterCommand (commandMem s.mem 0x0A 1 unread [v])
        (s.cmd.record.opened.finished .slotRelease .refusedParameter 1 false)).apart := by
      apply exec_slotRelease h hh
      intro g hg
      unfold State.slotReleaseOp
      rw [slotOf_none hv]
      exact hg.answers h
    have h2 : ∃ t, exec (.slotRetry 1 unread [v]) s = .next t ∧ t.apart = (s.afterCommand (commandMem s.mem 0x0B 1 unread [v])
        (s.cmd.record.opened.finished .slotRetry .refusedParameter 1 false)).apart := by
      apply exec_slotRetry h hh
      intro g hg
      unfold State.slotRetryOp
      rw [slotOf_none hv]
      exact hg.answers h
    have h3 : ∃ t, exec (.slotOverride 1 unread [v]) s = .next t ∧ t.apart = (s.afterCommand (commandMem s.mem 0x0C 1 unread [v])
        (s.cmd.record.opened.finished .slotOverride .refusedParameter 1 false)).apart := by
      apply exec_slotOverride h hh
      intro g hg
      unfold State.slotOverrideOp
      rw [slotOf_none hv]
      exact hg.answers h
    obtain ⟨t1, e1, a1⟩ := h1
    obtain ⟨t2, e2, a2⟩ := h2
    obtain ⟨t3, e3, a3⟩ := h3
    exact ⟨t1, t2, t3, e1, e2, e3, a1, a2, a3⟩
  · intro v e
    refine ⟨fun hne => ?_, fun hne => ?_, fun hne => ?_, fun ha hst => ?_, fun hl hd hp => ?_, fun hl hd hprov hlatch hpg => ?_,
      fun hr hd hprov hlatch hpg => ?_⟩
    · apply exec_slotRelease h hh
      intro g hg
      rw [State.slotReleaseOp_slot, hg.begun_slot, if_neg hne]
      exact hg.answers h
    · apply exec_slotRetry h hh
      intro g hg
      rw [State.slotRetryOp_slot, hg.begun_slot, if_neg hne]
      exact hg.answers h
    · apply exec_slotOverride h hh
      intro g hg
      rw [State.slotOverrideOp_slot, hg.begun_slot, if_neg (by
        simp only [Bool.and_eq_true, decide_eq_true_eq]
        rintro ⟨⟨h1, h2⟩, h3⟩
        rcases hne with hne | hne | hne
        · exact hne h1
        · exact Bool.noConfusion (hne.symm.trans h2)
        · exact Bool.noConfusion (hne.symm.trans h3))]
      exact hg.answers h
    · apply exec_slotRelease h hh
      intro g hg
      have hslot := hg.begun_slot i
      rw [State.slotReleaseOp_slot, hslot, if_pos ha, State.enterDraining_still _ (hg.begun_still hst) (hslot ▸ ha), hslot,
        hg.begun_osc]
      refine hg.moves h (State.putSlot_moves ?_)
      rw [hslot]
      exact ne_of_eq_of_ne ha (by decide : SlotState.admitted ≠ .draining)
    · apply exec_slotRetry h hh
      intro g hg
      have hslot := hg.begun_slot i
      rw [State.slotRetryOp_slot, hslot, if_pos hl]
      refine hg.moves h ((State.enterSeated_stays (hg.begun_dark hd) ?_ ?_ (SlotEntry.prepares_noAttempts _) ?_ ?_).trans ?_)
      · rw [hslot, hl]
        exact ⟨by decide, by decide⟩
      · rw [hslot, hl]
        decide
      · rw [hslot, hl]
        rfl
      · rw [hg.begun_mayPower]
        unfold State.mayPower
        rcases hp with hp | hp <;> simp [e, hp]
      · rw [hslot, SlotEntry.enterDark_clears rfl]
        rfl
    · apply exec_slotRetry h hh
      intro g hg
      have hslot := hg.begun_slot i
      rw [State.slotRetryOp_slot, hslot, if_pos hl]
      refine hg.moves h ((State.enterSeated_powers (hg.begun_dark hd) ?_ ?_ (SlotEntry.prepares_noAttempts _) ?_ ?_ ?_).trans ?_)
      · rw [hslot, hl]
        exact ⟨by decide, by decide⟩
      · rw [hslot, hl]
        decide
      · rw [hslot, hl]
        rfl
      · rw [hg.begun_mayPower]
        unfold State.mayPower
        simp [e, hprov, hlatch, hh, HubState.allowsPowering]
      · rw [hslot]
        exact hpg
      · rw [hslot, SlotEntry.enterDark_clears (st := .seated) rfl, SlotEntry.enterDark_keeps rfl, hg.begun_osc]
        rfl
    · apply exec_slotOverride h hh
      intro g hg
      have hslot := hg.begun_slot i
      rw [State.slotOverrideOp_slot, hslot, if_pos (by simp [e, hr, hprov, hlatch])]
      refine hg.moves h ?_
      dsimp only
      rw [State.enterPowering_dark (hg.begun_dark hd) (by rw [hslot, hr]; exact ⟨by decide, by decide⟩)
        ⟨⟨rfl, rfl, rfl, id⟩, rfl, rfl, rfl, rfl⟩ (by rw [hslot, hr]; rfl) (by rw [hslot]; exact hpg),
        State.putSlot_moves (by rw [hslot, hr]; exact (by decide : SlotState.rejected ≠ .powering)), hslot,
        SlotEntry.enterDark_keeps rfl, hg.begun_osc]
      rfl

end Sys2Proof.Machine
end

section
/-! SUPPORT. Slot pins and slot timers (O45 to O47). -/

namespace Sys2Proof.Machine

open Sys2Proof

variable {s t u g : State} {i : Slot} {st : SlotState} {f : SlotEntry → SlotEntry}

/-! ## Rows of the blocks' work -/

/-- A row that is work of the blocks, on a quiet bus. -/
theorem work_apart {x : State} (hq : s.busQuiet) (ho : u.outside = s.outside) (hx : u.apart = x) :
    ∃ t, settled u = .next t ∧ t.apart = x := settled_apart (outside_busQuiet ho hq) hx

theorem State.setSlot_slotBecomes (s : State) (i : Slot) (e f : SlotEntry) :
    (s.setSlot i e).slotBecomes i f = s.slotBecomes i f :=
  congrArg (fun x : State => x.withCauses 0x200) (s.setSlot_setSlot i e f)

theorem SlotEntry.lanesTo_dark {e : SlotEntry} {st : LaneState} (ha : e.delayA.valid = false) (hb : e.delayB.valid = false) :
    e.lanesTo st = { e with laneA := st, laneB := st } := by
  have h1 : e.recordLane .a st = { e with laneA := st } := by
    unfold SlotEntry.recordLane
    dsimp only
    split
    · exact congrArg (fun d => ({ e with laneA := st, delayA := d } : SlotEntry)) (Delay.invalidate_of_invalid ha)
    · rfl
  have h2 (x : SlotEntry) (hx : x.delayB.valid = false) : x.recordLane .b st = { x with laneB := st } := by
    unfold SlotEntry.recordLane
    dsimp only
    split
    · exact congrArg (fun d => ({ x with laneB := st, delayB := d } : SlotEntry)) (Delay.invalidate_of_invalid hx)
    · rfl
  unfold SlotEntry.lanesTo
  rw [h1]
  exact h2 _ hb

theorem LanePort.clear_of_down {l : LanePort} (h : l.state ≠ .up) : l.clear := fun hu => absurd hu h

theorem LanePort.offClear_of_down {l : LanePort} (h : l.state ≠ .up) : l.offClear = { l with enable := false, state := .off } :=
  if_neg h

/-- The lane ports of a slot whose lanes are not UP, after their enables have gone off. -/
theorem State.offClear_dark (h : ∀ p, (s.lane i p).state ≠ .up) :
    (vget s.lanes i).both LanePort.offClear = (vget s.lanes i).disabled := by
  have ha : (vget s.lanes i).a.offClear = _ := LanePort.offClear_of_down (h .a)
  have hb : (vget s.lanes i).b.offClear = _ := LanePort.offClear_of_down (h .b)
  unfold Lanes.both Lanes.disabled
  rw [ha, hb]

/-- A slot without lanes in UP leaves a state with lanes for one without. -/
theorem State.enterSlot_darkens (st : SlotState) (hd : s.slotDark i) (ho : (s.slot i).state.offTraffic) (hst : st ≠ .admitted)
    (hf : (s.slot i).prepares (f (s.slot i))) (hon : (s.slot i).state.laneOn = true) (hoff : st.laneOn = false) :
    (s.enterSlot i st f).apart = (State.slotBecomes { s with lanes := vset s.lanes i (vget s.lanes i).disabled } i
      { (f (s.slot i)).enterDark st s.osc with laneA := .off, laneB := .off }).apart := by
  have he : (f (s.slot i)).enter st s.osc = (f (s.slot i)).enterDark st s.osc :=
    SlotEntry.enter_plain (by rw [hf.state]; exact ho.2) (by rw [hf.state]; exact fun h => absurd h ho.1)
      fun _ => by rw [hf.delayA, hf.delayB]; exact hd.2
  have hmove := State.moveSlot_off (new := (f (s.slot i)).enterDark st s.osc)
    (State.moveStill_dark hd ho hst ⟨hf.delayA, hf.delayB, hf.active, hf.fenced⟩) hon hoff
    fun p => LanePort.clear_of_down (hd.1 p)
  unfold State.enterSlot
  rw [he, hmove, State.offClear_dark hd.1, SlotEntry.lanesTo_dark (by exact (congrArg Delay.valid hf.delayA).trans hd.2.1)
    (by exact (congrArg Delay.valid hf.delayB).trans hd.2.2), State.becomes_moves]
  intro h
  have h : (s.slot i).state = st := h
  rw [h, hoff] at hon
  cases hon

/-- R63: a slot in POWERING, its lanes OFF, enters TRAINING. -/
theorem State.enterTraining_dark (hd : s.slotDark i) (ho : (s.slot i).state.offTraffic) (hl : (s.slot i).state.laneOn = false)
    (hoff : ∀ p, (s.lane i p).state = .off) :
    (s.enterTraining i).apart = (State.slotBecomes { s with lanes := vset s.lanes i (vget s.lanes i).enabled } i
      { (s.slot i).enterDark .training s.osc with laneA := .training, laneB := .training }).apart := by
  have he : (id (s.slot i)).enter .training s.osc = (s.slot i).enterDark .training s.osc :=
    SlotEntry.enter_plain ho.2 (fun h => absurd h ho.1) fun h => nomatch h
  have hmove := State.moveSlot_on (new := (s.slot i).enterDark .training s.osc)
    (State.moveStill_dark hd ho (fun h => nomatch h) ⟨rfl, rfl, rfl, id⟩) hl rfl hoff
  unfold State.enterTraining State.enterSlot
  rw [he, hmove, SlotEntry.lanesTo_dark (by exact hd.2.1) (by exact hd.2.2), State.becomes_moves]
  intro h
  have h : (s.slot i).state = .training := h
  rw [h] at hl
  cases hl

/-! ## Presence (O45) -/

theorem State.slotDark_setSlot {e : SlotEntry} (hd : s.slotDark i) (ha : e.delayA = (s.slot i).delayA)
    (hb : e.delayB = (s.slot i).delayB) : (s.setSlot i e).slotDark i := by
  unfold State.slotDark at hd ⊢
  rw [State.slot_setSlot_self, ha, hb]
  exact hd

/-- R61: a loss of presence in a state without lanes. -/
theorem State.presenceOff_dark (hd : s.slotDark i) (he : (s.slot i).state ≠ .empty) (ho : (s.slot i).state.offTraffic)
    (hl : (s.slot i).state.laneOn = false) : (s.presenceOff i).apart =
      (State.slotBecomes { s with alarm := { s.alarm with marks :=
          if (s.slot i).state = .powering then { s.alarm.marks with surprise := vset s.alarm.marks.surprise i true }
          else s.alarm.marks } } i
        { s.slot i with pres := false, state := .empty, attempts := 0, fenced := false, override := false, timer := none
                        pwren := false }).apart := by
  have hpow : (s.slot i).state.powered = decide ((s.slot i).state = .powering) := by
    obtain ⟨hna, hnd⟩ := ho
    cases hst : (s.slot i).state <;> rw [hst] at hl hna hnd <;> first | rfl | cases hl
  have key (u : State) (hu : u.slot i = { s.slot i with pres := false }) (hlanes : u.lanes = s.lanes) :
      (u.enterSlot i .empty (fun e => { e with attempts := 0, fenced := false })).apart = (u.slotBecomes i
        { s.slot i with pres := false, state := .empty, attempts := 0, fenced := false, override := false, timer := none
                        pwren := false }).apart := by
    have hdu : u.slotDark i := by
      unfold State.slotDark State.lane at hd ⊢
      rw [hu, hlanes]
      exact hd
    rw [State.enterSlot_dark .empty hdu (by rw [hu]; exact ho) (by decide) ⟨⟨rfl, rfl, rfl, fun h => absurd h Bool.false_ne_true⟩, rfl, rfl, rfl, rfl⟩
      (by rw [hu]; exact hl), hu, SlotEntry.enterDark_clears rfl, State.putSlot_moves (by rw [hu]; exact he)]
    rfl
  unfold State.presenceOff
  dsimp only
  rw [if_neg he, hpow]
  by_cases hp : (s.slot i).state = .powering
  · rw [decide_eq_true hp, if_pos rfl]
    refine (key ((s.setSlot i { s.slot i with pres := false }).markSurprise i) (State.slot_setSlot_self s i _) rfl).trans ?_
    simp only [if_pos hp]
    exact congrArg State.apart (State.setSlot_slotBecomes { s with
      alarm := { s.alarm with marks := { s.alarm.marks with surprise := vset s.alarm.marks.surprise i true } } } i _ _)
  · rw [decide_eq_false hp, if_neg Bool.false_ne_true]
    refine (key _ (State.slot_setSlot_self s i _) rfl).trans ?_
    simp only [if_neg hp]
    exact congrArg State.apart (State.setSlot_slotBecomes s i _ _)

/-- R61: an arrival, and a loss in EMPTY. -/
theorem State.presenceOn_eq (s : State) (i : Slot) : s.presenceOn i = s.setSlot i
    (if (s.slot i).state = .empty then { s.slot i with pres := true, timer := some (s.osc + 5000000) }
     else { s.slot i with pres := true }) := rfl

theorem State.presenceOff_empty (h : (s.slot i).state = .empty) :
    s.presenceOff i = s.setSlot i { s.slot i with pres := false, timer := none } := by
  unfold State.presenceOff
  dsimp only
  rw [if_pos h, State.setSlot_setSlot]

/-! ## Latch and power-good (O46) -/

/-- A pin recorded: the slot with its lanes as before. -/
theorem State.slotDark_pin {e : SlotEntry} (hd : s.slotDark i) (hm : (s.slot i).mild e) : (s.setSlot i e).slotDark i :=
  State.slotDark_setSlot hd hm.delayA hm.delayB

/-- A dark move of a slot whose pin has just been recorded. -/
theorem State.enterSlot_pinned (st : SlotState) {e : SlotEntry} (hd : s.slotDark i) (hm : (s.slot i).mild e)
    (ho : e.state.offTraffic) (hst : st ≠ .admitted) (hf : e.prepares (f e)) (hl : e.state.laneOn = st.laneOn)
    (hne : e.state ≠ st) :
    ((s.setSlot i e).enterSlot i st f).apart = (s.slotBecomes i ((f e).enterDark st s.osc)).apart := by
  have hslot := s.slot_setSlot_self i e
  rw [State.enterSlot_dark st (State.slotDark_pin hd hm) (by rw [hslot]; exact ho) hst (by rw [hslot]; exact hf)
    (by rw [hslot]; exact hl), hslot, State.putSlot_moves (by rw [hslot]; exact hne), State.setSlot_slotBecomes]
  rfl

theorem State.powers_pinned {e : SlotEntry} (hd : s.slotDark i) (hm : (s.slot i).mild e) (ho : e.state.offTraffic)
    (hl : e.state.laneOn = false) (hne : e.state ≠ .powering) (hp : e.pgood = false) :
    ((s.setSlot i e).enterPowering i id).apart = (s.slotBecomes i (e.enterDark .powering s.osc)).apart := by
  have hslot := s.slot_setSlot_self i e
  rw [State.enterPowering_dark (State.slotDark_pin hd hm) (by rw [hslot]; exact ho) (SlotEntry.prepares_refl _)
    (by rw [hslot]; exact hl) (by rw [hslot]; exact hp), hslot, State.putSlot_moves (by rw [hslot]; exact hne),
    State.setSlot_slotBecomes]
  rfl

theorem State.seats_pinned {e : SlotEntry} (hd : s.slotDark i) (hm : (s.slot i).mild e) (ho : e.state.offTraffic)
    (hl : e.state.laneOn = false) (hne : e.state ≠ .seated) (hp : (s.setSlot i e).mayPower i = false) :
    ((s.setSlot i e).enterSeated i id).apart = (s.slotBecomes i (e.enterDark .seated s.osc)).apart := by
  have hslot := s.slot_setSlot_self i e
  rw [State.enterSeated_stays (State.slotDark_pin hd hm) (by rw [hslot]; exact ho) (by rw [hslot]; exact hne)
    (SlotEntry.prepares_refl _) (by rw [hslot]; exact hl) hp, hslot, State.setSlot_slotBecomes]
  rfl

theorem State.mayPower_setSlot (s : State) (i : Slot) (e : SlotEntry) :
    (s.setSlot i e).mayPower i = (s.cmd.hub.allowsPowering && e.cfg.provisioned && e.latch) := by
  unfold State.mayPower
  rw [State.slot_setSlot_self]
  rfl

/-- R72: the latch closes. -/
theorem State.latchOn_cases (s : State) (i : Slot) : s.latchOn i =
    if (s.slot i).state = .released then (s.setSlot i { s.slot i with latch := true }).enterSeated i id
    else if (s.slot i).state = .seated then (s.setSlot i { s.slot i with latch := true }).judgeSeated i
    else s.setSlot i { s.slot i with latch := true } := by
  unfold State.latchOn
  dsimp only
  cases (s.slot i).state <;> rfl

/-- R72: the latch opens. -/
theorem State.latchOff_cases (s : State) (i : Slot) : s.latchOff i =
    let s1 := s.setSlot i { s.slot i with latch := false }
    if (s.slot i).state ∈ [.powering, .training, .identifying] then s1.enterSlot i .released id
    else if (s.slot i).state = .admitted then s1.enterDraining i .release
    else if (s.slot i).state ∈ [.faulted, .lockedOut, .rejected] then s1.enterSlot i .released SlotEntry.noAttempts
    else s1 := by
  unfold State.latchOff
  dsimp only
  cases (s.slot i).state <;> rfl

theorem State.powerGoodOff_cases (s : State) (i : Slot) : s.powerGoodOff i =
    let s1 := s.setSlot i { s.slot i with pgood := false }
    if (s.slot i).state ∈ [.training, .identifying, .admitted] then s1.enterFaulted i .power
    else if (s.slot i).state = .draining then s1.endDrain i
    else s1 := by
  unfold State.powerGoodOff
  dsimp only
  cases (s.slot i).state <;> rfl

theorem State.judgeSeated_powers (h : (s.slot i).state = .seated) (hp : s.mayPower i = true) :
    s.judgeSeated i = s.enterPowering i id := by
  unfold State.judgeSeated
  rw [h, hp]
  rfl

theorem State.slotStill_setSlot (e : SlotEntry) (h : s.slotStill i) : (s.setSlot i e).slotStill i := h

/-- The backoff after the attempts counted (R73). -/
theorem backoff_eq (osc n : Nat) : SlotState.faulted.timerFrom osc n = some (osc + 100000000 * 2 ^ (n - 1)) := rfl

/-- Settles O46: a pin is recorded, and the move it brings is one of the dark moves, or R71's into DRAINING. -/
theorem latchAndPowerGoodTaken : Obligations.LatchAndPowerGoodTaken := by
  unfold Obligations.LatchAndPowerGoodTaken
  refine ⟨fun i s hq => ?_, fun i s hq => ?_⟩
  · intro e
    have hmild (b : Bool) : e.mild { e with latch := b } := ⟨rfl, rfl, rfl, id⟩
    refine ⟨fun he hd hh hprov hp => ?_, fun he hd hno => ?_, fun he => ?_, fun he hd => ?_, fun he hd => ?_, fun he hst => ?_,
      fun he => ?_⟩
    · refine work_apart hq (by simp) ?_
      have he' : (s.slot i).state = .seated := he
      have hslot := s.slot_setSlot_self i { s.slot i with latch := true }
      rw [State.latchOn_cases, he', if_neg (by decide), if_pos rfl, State.judgeSeated_powers (by rw [hslot]; exact he')
        (by rw [State.mayPower_setSlot, hh]; exact congrArg (fun b => (true && b) && true) hprov),
        State.powers_pinned hd (hmild true) (by rw [he']; exact ⟨by decide, by decide⟩) (by rw [he']; rfl)
          (by rw [he']; exact (by decide : SlotState.seated ≠ .powering)) hp, SlotEntry.enterDark_keeps rfl]
      rfl
    · refine work_apart hq (by simp) ?_
      have he' : (s.slot i).state = .released := he
      rw [State.latchOn_cases, he', if_pos rfl, State.seats_pinned hd (hmild true) (by rw [he']; exact ⟨by decide, by decide⟩)
        (by rw [he']; rfl) (by rw [he']; exact (by decide : SlotState.released ≠ .seated))
        (by
          rw [State.mayPower_setSlot]
          rcases hno with hno | hno
          · rw [hno]
            rfl
          · rw [show PortCfg.provisioned _ = false from hno, Bool.and_false]
            rfl), SlotEntry.enterDark_clears rfl]
      rfl
    · refine work_apart hq (by simp) (congrArg State.apart ?_)
      rw [State.latchOn_cases]
      rcases he with ⟨h1, h2⟩ | ⟨h1, h2⟩
      · rw [if_neg h2, if_neg h1]
      · have h1' : (s.slot i).state = .seated := h1
        rw [if_neg (by rw [h1']; decide), if_pos h1']
        refine State.judgeSeated_still (.inr ?_)
        rw [State.mayPower_setSlot]
        rcases h2 with h2 | h2
        · rw [h2]
          rfl
        · rw [show PortCfg.provisioned _ = false from h2, Bool.and_false]
          rfl
    · refine work_apart hq (by simp) ?_
      have he' : (s.slot i).state = .powering := he
      rw [State.latchOff_cases, he']
      dsimp only
      rw [if_pos (by decide), State.enterSlot_pinned .released hd (hmild false) (by rw [he']; exact ⟨by decide, by decide⟩) (by decide)
        (SlotEntry.prepares_refl _) (by rw [he']; rfl) (by rw [he']; exact (by decide : SlotState.powering ≠ .released)),
        SlotEntry.enterDark_clears rfl]
      rfl
    · refine work_apart hq (by simp) ?_
      have hstates : e.state ∉ [.powering, .training, .identifying] ∧ e.state ≠ .admitted ∧ e.state.offTraffic ∧
          e.state.laneOn = false ∧ e.state ≠ .released := by
        simp only [List.mem_cons, List.not_mem_nil, or_false] at he
        rcases he with he | he | he <;> rw [he] <;> exact ⟨by decide, by decide, ⟨by decide, by decide⟩, rfl, by decide⟩
      obtain ⟨h1, h2, h3, h4, h5⟩ := hstates
      rw [State.latchOff_cases]
      dsimp only
      rw [if_neg h1, if_neg h2, if_pos he, State.enterSlot_pinned .released hd (hmild false) h3 (by decide)
        (SlotEntry.prepares_noAttempts _) h4 h5, SlotEntry.enterDark_clears rfl]
      rfl
    · refine work_apart hq (by simp) ?_
      have he' : (s.slot i).state = .admitted := he
      have hslot := s.slot_setSlot_self i { s.slot i with latch := false }
      rw [State.latchOff_cases, he']
      dsimp only
      rw [if_neg (by decide), if_pos rfl, State.enterDraining_still _ (State.slotStill_setSlot _ hst) (by rw [hslot]; exact he'),
        hslot, State.putSlot_moves (by rw [hslot, he']; exact (by decide : SlotState.admitted ≠ .draining)),
        State.setSlot_slotBecomes]
      rfl
    · refine work_apart hq (by simp) (congrArg State.apart ?_)
      have hstates : e.state ∉ [.powering, .training, .identifying] ∧ e.state ≠ .admitted ∧
          e.state ∉ [.faulted, .lockedOut, .rejected] := by
        simp only [List.mem_cons, List.not_mem_nil, or_false] at he
        rcases he with he | he | he | he <;> rw [he] <;> exact ⟨by decide, by decide, by decide⟩
      obtain ⟨h1, h2, h3⟩ := hstates
      rw [State.latchOff_cases]
      dsimp only
      rw [if_neg h1, if_neg h2, if_neg h3]
  · intro e
    have hmild (b : Bool) : e.mild { e with pgood := b } := ⟨rfl, rfl, rfl, id⟩
    refine ⟨fun he hd hoff => ?_, fun he => ?_, fun he hd => ?_, fun he => ?_⟩
    · refine work_apart hq (by simp) ?_
      have he' : (s.slot i).state = .powering := he
      have hslot := s.slot_setSlot_self i { s.slot i with pgood := true }
      unfold State.powerGoodOn
      dsimp only
      rw [if_pos he', State.enterTraining_dark (State.slotDark_pin hd (hmild true))
        (by rw [hslot]; rw [he']; exact ⟨by decide, by decide⟩) (by rw [hslot, he']; rfl) hoff, hslot,
        SlotEntry.enterDark_keeps rfl]
      exact congrArg State.apart (State.setSlot_slotBecomes { s with lanes := vset s.lanes i (vget s.lanes i).enabled } i _ _)
    · refine work_apart hq (by simp) (congrArg State.apart ?_)
      exact if_neg he
    · refine work_apart hq (by simp) ?_
      have he' : (s.slot i).state = .training := he
      have hslot := s.slot_setSlot_self i { s.slot i with pgood := false }
      rw [State.powerGoodOff_cases, he']
      dsimp only
      rw [if_pos (by decide)]
      unfold State.enterFaulted
      rw [State.enterSlot_darkens .faulted (State.slotDark_pin hd (hmild false))
        (by rw [hslot]; rw [he']; exact ⟨by decide, by decide⟩) (by decide) ⟨⟨rfl, rfl, rfl, id⟩, rfl, rfl, rfl, rfl⟩
        (by rw [hslot, he']; rfl) rfl, hslot, SlotEntry.enterDark_keeps rfl]
      exact congrArg State.apart (State.setSlot_slotBecomes { s with lanes := vset s.lanes i (vget s.lanes i).disabled } i _ _)
    · refine work_apart hq (by simp) (congrArg State.apart ?_)
      have hstates : e.state ∉ [.training, .identifying, .admitted] ∧ e.state ≠ .draining := by
        rcases he with he | he
        · cases hst : e.state <;> rw [hst] at he <;> first | exact ⟨by decide, by decide⟩ | cases he
        · rw [he]
          exact ⟨by decide, by decide⟩
      obtain ⟨h1, h2⟩ := hstates
      rw [State.powerGoodOff_cases]
      dsimp only
      rw [if_neg h1, if_neg h2]

end Sys2Proof.Machine
end

section
/-! SUPPORT. What leaves the slot manager alone, and the fields of a slot's entry that only its own moves change. -/

namespace Sys2Proof.Machine

open Sys2Proof

variable {s t u : State}

/-! ## The slot manager untouched -/

theorem foldl_sm {α : Type} {f : State → α → State} (h : ∀ s x, (f s x).sm = s.sm) (l : List α) (s : State) :
    (l.foldl f s).sm = s.sm := by
  induction l generalizing s with
  | nil => rfl
  | cons x l ih => rw [List.foldl_cons, ih, h]

@[simp] theorem State.reportStart_sm (s : State) (f : CtlFrame) : (s.reportStart f).sm = s.sm := by
  unfold State.reportStart
  split <;> rfl

@[simp] theorem State.kickLane_sm (s : State) (i : Slot) (p : Plane) : (s.kickLane i p).sm = s.sm := by
  unfold State.kickLane State.startData
  dsimp only
  (repeat' split) <;> simp

@[simp] theorem State.kickSlot_sm (s : State) (i : Slot) : (s.kickSlot i).sm = s.sm := by
  rw [State.kickSlot, State.kickLane_sm, State.kickLane_sm]

@[simp] theorem State.roomReport_sm (s : State) : s.roomReport.sm = s.sm := rfl

@[simp] theorem State.dropClaim_sm (s : State) (id : Nat) : (s.dropClaim id).sm = s.sm := by
  unfold State.dropClaim
  dsimp only
  split <;> rfl

@[simp] theorem State.abandonTx_sm (i : Slot) (c : Cls) (s : State) (p : Plane) : (State.abandonTx i c s p).sm = s.sm := by
  unfold State.abandonTx
  dsimp only
  (repeat' split) <;> simp

@[simp] theorem State.emptyQueue_sm (i : Slot) (s : State) (c : Cls) : (State.emptyQueue i s c).sm = s.sm := by
  unfold State.emptyQueue
  dsimp only
  split <;> simp

@[simp] theorem State.flush_sm (s : State) (i : Slot) (cs : List Cls) : (s.flush i cs).sm = s.sm := by
  rw [State.flush, State.kickSlot_sm, foldl_sm (by simp)]

@[simp] theorem State.flushBoth_sm (s : State) (i : Slot) : (s.flushBoth i).sm = s.sm := s.flush_sm i _

@[simp] theorem State.takeQuality_sm (s : State) (q : Nat) : (s.takeQuality q).sm = s.sm := by
  unfold State.takeQuality
  exact foldl_sm (fun s i => by split <;> simp) _ _

@[simp] theorem State.putTime_sm (s : State) (x : TimeBase) : (s.putTime x).sm = s.sm := by
  unfold State.putTime
  dsimp only
  split <;> simp

@[simp] theorem State.disqualifySlot_sm (s : State) (i : Slot) : (s.disqualifySlot i).sm = s.sm := by
  simp [State.disqualifySlot]

@[simp] theorem State.clearCardPoints_sm (s : State) (i : Slot) : (s.clearCardPoints i).sm = s.sm :=
  foldl_sm (fun s k => by dsimp only; split <;> simp [State.movePoint_sm]) _ _

@[simp] theorem State.observeCard_sm (s : State) (i : Slot) (flags : BitVec 4) (codes : List Byte) :
    (s.observeCard i flags codes).sm = s.sm :=
  foldl_sm (fun s k => by dsimp only; split <;> simp [State.movePoint_sm]) _ _

@[simp] theorem State.submit_sm (s : State) (i : Slot) (p : Plane) (f : CtlFrame) : (s.submit i p f).1.sm = s.sm := by
  unfold State.submit
  dsimp only
  split <;> simp

@[simp] theorem State.leaveUp_sm (s : State) (i : Slot) (p : Plane) (st : LaneState) : (s.leaveUp i p st).sm = s.sm := by
  unfold State.leaveUp
  dsimp only
  split <;> simp

@[simp] theorem State.pollLeaves_sm (s : State) (i : Slot) : (s.pollLeaves i).sm = s.sm := by
  unfold State.pollLeaves
  split
  · split <;> rfl
  · rfl

@[simp] theorem State.boundaryElapsed_sm (s : State) : s.boundaryElapsed.sm = s.sm := by
  unfold State.boundaryElapsed State.endWait
  (repeat' split) <;> rfl

@[simp] theorem State.carry_sm (s : State) : s.carry.sm = s.sm := by
  unfold State.carry State.rollover
  split <;> simp

@[simp] theorem State.stretch_sm (s : State) (k : Nat) : (s.stretch k).sm = s.sm := by
  have hf (u : State) : u.fillCommand.sm = u.sm := State.sm_eq_of_apart u.fillCommand_apart
  unfold State.stretch
  rw [hf, State.boundaryElapsed_sm, State.carry_sm]
  exact hf s

theorem State.runOsc_sm (fuel : Nat) (s : State) (n : Nat) : (State.runOsc fuel s n).sm = s.sm := by
  induction fuel generalizing s n with
  | zero => rfl
  | succ k ih => unfold State.runOsc; split <;> simp [ih]

@[simp] theorem State.advance_sm (s : State) (n : Nat) : (s.advance n).sm = s.sm := State.runOsc_sm n s n

@[simp] theorem State.advanceTo_sm (s : State) (x : Nat) : (s.advanceTo x).sm = s.sm := s.advance_sm _

@[simp] theorem State.advanceTo_slot (s : State) (x : Nat) (i : Slot) : (s.advanceTo x).slot i = s.slot i := by
  rw [State.slot, State.advanceTo_sm]
  rfl

/-! ## The fields that only a move of the slot changes -/

/-- An entry without what polls and lane events set: the FENCED flag, the active plane, the lane states, the delays and the
counts of misses and alternate successes. -/
def SlotEntry.held (e : SlotEntry) : SlotEntry :=
  { e with fenced := false, active := .a, laneA := .off, laneB := .off, delayA := ⟨0, false⟩, delayB := ⟨0, false⟩
           missed := 0, alt := 0 }

/-- The held fields of every slot. -/
def State.held (s : State) (i : Slot) : SlotEntry := (s.slot i).held

theorem State.held_of_sm (h : t.sm = s.sm) : t.held = s.held := funext fun i => by
  rw [State.held, State.slot, h]
  rfl

theorem State.setSlot_held (s : State) (i : Slot) (e : SlotEntry) :
    (s.setSlot i e).held = Function.update s.held i e.held := by
  funext j
  by_cases h : j = i
  · subst h
    rw [Function.update_self, State.held, State.slot_setSlot_self]
  · rw [Function.update_of_ne h, State.held, State.slot_setSlot_ne s e (Ne.symm h)]
    rfl

theorem State.putSlot_held (s : State) (i : Slot) (e : SlotEntry) : (s.putSlot i e).held = Function.update s.held i e.held :=
  (State.held_of_sm (s.putSlot_slot i e)).trans (s.setSlot_held i e)

theorem State.putSlot_held_same {i : Slot} {e : SlotEntry} (h : e.held = (s.slot i).held) : (s.putSlot i e).held = s.held := by
  rw [State.putSlot_held, h]
  exact Function.update_eq_self i s.held

theorem State.changeSlot_held (s : State) (i : Slot) (new : SlotEntry) :
    (s.changeSlot i new).held = Function.update s.held i new.held := by
  refine (State.held_of_sm ?_).trans (s.putSlot_held i new)
  unfold State.changeSlot
  dsimp only
  (repeat' split) <;> simp

theorem Sampling.attempt_held (up : Plane → Bool) (g : Sampling) (a : AttemptRec) : (g.attempt up a).entry.held = g.entry.held := by
  unfold Sampling.attempt
  (repeat' split)
  · cases a.plane <;> rfl
  · rfl
  · rfl

theorem SlotEntry.judgePlane_held (e : SlotEntry) (up : Plane → Bool) (log : List AttemptRec) :
    (e.judgePlane up log).held = e.held := by
  unfold SlotEntry.judgePlane
  (repeat' split) <;> rfl

theorem SlotEntry.judgeMiss_held (e : SlotEntry) (final : AttemptOutcome) : (e.judgeMiss final).held = e.held := by
  unfold SlotEntry.judgeMiss
  dsimp only
  (repeat' split) <;> rfl

theorem Sampling.attempts_held (up : Plane → Bool) (log : List AttemptRec) (g : Sampling) :
    (log.foldl (Sampling.attempt up) g).entry.held = g.entry.held := by
  induction log generalizing g with
  | nil => rfl
  | cons a log ih => exact (ih _).trans (g.attempt_held up a)

@[simp] theorem State.takePoll_held (s : State) (i : Slot) (log : List AttemptRec) (final : AttemptOutcome) :
    (s.takePoll i log final).1.held = s.held := by
  unfold State.takePoll
  extract_lets up g e m t
  rw [State.changeSlot_held]
  have he : e.held = t.held i :=
    (SlotEntry.judgeMiss_held ..).trans ((SlotEntry.judgePlane_held ..).trans (Sampling.attempts_held ..))
  rw [he, Function.update_eq_self]
  rfl

theorem State.pollResult_held (s : State) (a : Addr) (ws : List Word) (w : PollWork) (final : AttemptOutcome)
    (r : Option Nat) : (s.pollResult a ws w final r).held = s.held := State.held_of_sm rfl

@[simp] theorem State.pollFinish_held (s : State) (a : Addr) (ws : List Word) (w : PollWork) (final : AttemptOutcome) :
    (s.pollFinish a ws w final).held = s.held := by
  have hobs (u : State) (i : Slot) (flags : BitVec 4) (codes : List Byte) : (u.observeCard i flags codes).held = u.held :=
    State.held_of_sm (State.observeCard_sm ..)
  unfold State.pollFinish
  dsimp only
  rw [State.pollResult_held]
  split
  · rw [hobs, State.takePoll_held]
  · exact State.takePoll_held ..

@[simp] theorem State.pollGo_held (fuel : Nat) (s : State) (a : Addr) (ws : List Word) (w : PollWork) :
    (State.pollGo fuel s a ws w).held = s.held := by
  induction fuel generalizing s w with
  | zero => rfl
  | succ k ih =>
    unfold State.pollGo
    extract_lets p n tag w1 c s0 s1 r w2
    have hr : r.1.held = s.held := State.held_of_sm (State.submit_sm ..)
    split
    · rfl
    · split
      · exact hr
      · split
        · exact (ih _ _).trans hr
        · exact (State.pollFinish_held ..).trans hr

@[simp] theorem State.attemptEnds_held (s : State) (o : AttemptOutcome) : (s.attemptEnds o).held = s.held := by
  unfold State.attemptEnds
  dsimp only
  (repeat' split) <;> simp

@[simp] theorem State.reportControl_held (s : State) (sent : Bool) (f : CtlFrame) : (s.reportControl sent f).held = s.held := by
  have hjudge (u : State) (a : Addr) (ws : List Word) (w : TimeWork) : (u.timeJudge a ws w).held = u.held := by
    unfold State.timeJudge
    split <;> rfl
  unfold State.reportControl
  dsimp only
  (repeat' split) <;> first | rfl | exact State.attemptEnds_held .. | exact hjudge .. | exact (hjudge ..).trans rfl

@[simp] theorem State.reportUnsent_held (s : State) (fs : List CtlFrame) : (s.reportUnsent fs).held = s.held := by
  unfold State.reportUnsent
  induction fs generalizing s with
  | nil => rfl
  | cons f fs ih => rw [List.foldl_cons, ih, State.reportControl_held]

theorem SlotEntry.recordLane_held (e : SlotEntry) (p : Plane) (st : LaneState) : (e.recordLane p st).held = e.held := by
  unfold SlotEntry.recordLane
  dsimp only
  split <;> cases p <;> rfl

@[simp] theorem State.laneOff_held (i : Slot) (s : State) (p : Plane) : (State.laneOff i s p).held = s.held := by
  unfold State.laneOff
  extract_lets l fs t m u
  have hu : u.sm = s.sm := by
    have ht : t.sm = s.sm := by
      unfold t
      split <;> simp
    exact ht
  rw [State.reportUnsent_held, State.putSlot_held_same (SlotEntry.recordLane_held ..)]
  exact State.held_of_sm hu

@[simp] theorem State.laneOn_held (i : Slot) (s : State) (p : Plane) : (State.laneOn i s p).held = s.held := by
  unfold State.laneOn
  dsimp only
  split
  · exact State.putSlot_held_same (SlotEntry.recordLane_held ..)
  · rfl

@[simp] theorem State.followEnable_held (s : State) (i : Slot) (was : SlotState) : (s.followEnable i was).held = s.held := by
  unfold State.followEnable
  dsimp only [List.foldl]
  (repeat' split) <;> simp

theorem State.moveSlot_held (s : State) (i : Slot) (new : SlotEntry) :
    (s.moveSlot i new).held = Function.update s.held i new.held := by
  unfold State.moveSlot
  dsimp only
  rw [State.followEnable_held]
  split
  · exact (State.held_of_sm (State.pollLeaves_sm ..)).trans (State.changeSlot_held ..)
  · exact State.changeSlot_held ..

/-- What a slot holds once it has entered a state. -/
theorem State.enterSlot_held (s : State) (i : Slot) (st : SlotState) (f : SlotEntry → SlotEntry) :
    ((s.enterSlot i st f).slot i).held = ((f (s.slot i)).enter st s.osc).held :=
  (congrFun (s.moveSlot_held i _) i).trans (Function.update_self ..)

end Sys2Proof.Machine
end

section
/-! SUPPORT. Presence and the slot timers (O45, O47), and the end of a drain (O48). -/

namespace Sys2Proof.Machine

open Sys2Proof

variable {s t u g : State} {i : Slot} {p : Plane} {st : SlotState} {f : SlotEntry → SlotEntry}

/-! ## Entering a state, field by field -/

theorem SlotEntry.enter_pins (e : SlotEntry) (st : SlotState) (osc : Nat) :
    (e.enter st osc).pres = e.pres ∧ (e.enter st osc).attempts = e.attempts ∧ (e.enter st osc).pwren = st.powered ∧
      (e.enter st osc).state = st ∧ (e.enter st osc).cfg = e.cfg := by
  unfold SlotEntry.enter
  dsimp only
  (repeat' split) <;> exact ⟨rfl, rfl, rfl, rfl, rfl⟩

/-- Settles O45: presence is recorded, and a loss takes the slot to EMPTY (`State.presenceOff_dark`, `State.enterSlot_held`). -/
theorem presenceTaken : Obligations.PresenceTaken := by
  unfold Obligations.PresenceTaken
  intro i s hq e
  refine ⟨fun he => ?_, fun he => ?_, fun he => ?_, fun he hd => ?_, fun he => ?_⟩
  · refine work_apart hq (by simp) (congrArg State.apart ?_)
    rw [State.presenceOn_eq, if_pos he]
  · refine work_apart hq (by simp) (congrArg State.apart ?_)
    rw [State.presenceOn_eq, if_neg he]
  · exact work_apart hq (by simp) (congrArg State.apart (State.presenceOff_empty he))
  · have hstates : e.state ≠ .empty ∧ e.state.offTraffic ∧ e.state.laneOn = false := by
      simp only [List.mem_cons, List.not_mem_nil, or_false] at he
      rcases he with he | he | he | he | he | he <;> rw [he] <;> exact ⟨by decide, ⟨by decide, by decide⟩, rfl⟩
    obtain ⟨h1, h2, h3⟩ := hstates
    exact work_apart hq (by simp) (State.presenceOff_dark hd h1 h2 h3)
  · obtain ⟨t, ht, ha⟩ := work_apart (u := s.presenceOff i) hq (by simp) rfl
    have hslot : t.slot i = (s.presenceOff i).slot i := (congrArg (fun x : State => x.slot i) ha :)
    have hheld : ((s.presenceOff i).slot i).held =
        (SlotEntry.enter { s.slot i with pres := false, attempts := 0, fenced := false } .empty s.osc).held := by
      unfold State.presenceOff
      dsimp only
      rw [if_neg he, State.enterSlot_held]
      split
      · unfold State.markSurprise
        exact congrArg (fun x : SlotEntry => (SlotEntry.enter { x with attempts := 0, fenced := false } .empty s.osc).held)
          (s.slot_setSlot_self i _)
      · exact congrArg (fun x : SlotEntry => (SlotEntry.enter { x with attempts := 0, fenced := false } .empty s.osc).held)
          (s.slot_setSlot_self i _)
    obtain ⟨h1, h2, h3, h4, -⟩ := SlotEntry.enter_pins { s.slot i with pres := false, attempts := 0, fenced := false } .empty s.osc
    rw [← hslot] at hheld
    refine ⟨t, ht, ?_, ?_, ?_, ?_⟩
    · exact (congrArg SlotEntry.state hheld).trans h4
    · exact (congrArg SlotEntry.pwren hheld).trans h3
    · exact (congrArg SlotEntry.pres hheld).trans h1
    · exact (congrArg SlotEntry.attempts hheld).trans h2

/-! ## Slot timers (O47) -/

theorem State.onSlotTimer_passed {F : State → State} (h : (s.slot i).timer = none ∨ (s.slot i).state ≠ st) :
    s.onSlotTimer i st F = s := by
  unfold State.onSlotTimer
  split
  · rename_i x hx
    refine if_neg fun hs => h.elim (fun hn => ?_) (fun hn => hn hs)
    rw [hx] at hn
    cases hn
  · rfl

theorem State.onSlotTimer_expires {F : State → State} {x : Nat} (ht : (s.slot i).timer = some x) (hs : (s.slot i).state = st) :
    s.onSlotTimer i st F = F (s.advanceTo x) := by
  unfold State.onSlotTimer
  rw [ht]
  exact if_pos hs

/-- A slot timer's row, on a quiet bus. -/
theorem timer_apart {F : State → State} {x : Nat} {y : State} (hq : s.busQuiet) (hF : ∀ u : State, (F u).outside = u.outside)
    (ht : (s.slot i).timer = some x) (hs : (s.slot i).state = st) (hx : (F (s.advanceTo x)).apart = y) :
    ∃ t, settled (s.onSlotTimer i st F) = .next t ∧ t.apart = y := by
  refine work_apart hq (State.onSlotTimer_outside s i st F hF) ?_
  rw [State.onSlotTimer_expires ht hs, hx]

/-- A dark move of a slot. -/
theorem State.enterSlot_dark_apart (st : SlotState) (hd : s.slotDark i) (ho : (s.slot i).state.offTraffic) (hst : st ≠ .admitted)
    (hf : (s.slot i).prepares (f (s.slot i))) (hl : (s.slot i).state.laneOn = st.laneOn) (hne : (s.slot i).state ≠ st) :
    (s.enterSlot i st f).apart = (s.slotBecomes i ((f (s.slot i)).enterDark st s.osc)).apart := by
  rw [State.enterSlot_dark st hd ho hst hf hl, State.putSlot_moves hne]

theorem State.enterPowering_apart (hd : s.slotDark i) (ho : (s.slot i).state.offTraffic)
    (hf : (s.slot i).prepares (f (s.slot i))) (hl : (s.slot i).state.laneOn = false) (hp : (s.slot i).pgood = false)
    (hne : (s.slot i).state ≠ .powering) :
    (s.enterPowering i f).apart = (s.slotBecomes i ((f (s.slot i)).enterDark .powering s.osc)).apart := by
  rw [State.enterPowering_dark hd ho hf hl hp, State.putSlot_moves hne]

/-- R73: a slot without lanes fails. -/
theorem State.enterFaulted_dark (r : FailReason) (hd : s.slotDark i) (hs : (s.slot i).state = .powering) :
    (s.enterFaulted i r).apart = (s.slotBecomes i { s.slot i with
      state := .faulted, attempts := min ((s.slot i).attempts + 1) 3, reason := r, pwren := false
      timer := some (s.osc + 100000000 * 2 ^ (min ((s.slot i).attempts + 1) 3 - 1)) }).apart := by
  unfold State.enterFaulted
  rw [State.enterSlot_dark_apart .faulted hd (by rw [hs]; exact ⟨by decide, by decide⟩) (by decide)
    ⟨⟨rfl, rfl, rfl, id⟩, rfl, rfl, rfl, rfl⟩ (by rw [hs]; rfl) (by rw [hs]; decide), SlotEntry.enterDark_keeps rfl]
  rfl

/-- R73: a slot with lanes, none of them UP, fails. -/
theorem State.enterFaulted_darkens (r : FailReason) (hd : s.slotDark i)
    (hs : (s.slot i).state = .training ∨ (s.slot i).state = .identifying) :
    (s.enterFaulted i r).apart = (State.slotBecomes { s with lanes := vset s.lanes i (vget s.lanes i).disabled } i { s.slot i with
      state := .faulted, attempts := min ((s.slot i).attempts + 1) 3, reason := r, pwren := false, laneA := .off, laneB := .off
      timer := some (s.osc + 100000000 * 2 ^ (min ((s.slot i).attempts + 1) 3 - 1)) }).apart := by
  unfold State.enterFaulted
  rw [State.enterSlot_darkens .faulted hd (by rcases hs with hs | hs <;> rw [hs] <;> exact ⟨by decide, by decide⟩) (by decide)
    ⟨⟨rfl, rfl, rfl, id⟩, rfl, rfl, rfl, rfl⟩ (by rcases hs with hs | hs <;> rw [hs] <;> rfl) rfl, SlotEntry.enterDark_keeps rfl]
  rfl

/-- R65: with no lane UP no frame was being received. -/
theorem State.overtake_down (h : (s.lane i p).state ≠ .up) : s.overtake i t p = t := by
  unfold State.overtake
  split
  · exact if_neg h
  · rfl

theorem State.identExpired_dark (hd : s.slotDark i) : s.identExpired i = s.enterFaulted i .ident := by
  unfold State.identExpired
  simp only [List.foldl, State.overtake_down (hd.1 .a), State.overtake_down (hd.1 .b)]

/-- The lane ports of a slot with one lane in UP, after their enables have gone off. -/
theorem Lanes.both_offClear {l : Lanes} (h : (l.get p.other).state ≠ .up) :
    l.both LanePort.offClear = l.disabled.set p (l.get p).offClear := by
  unfold Lanes.both Lanes.disabled
  cases p with
  | a =>
    have hb : l.b.offClear = _ := LanePort.offClear_of_down h
    rw [hb]
    rfl
  | b =>
    have ha : l.a.offClear = _ := LanePort.offClear_of_down h
    rw [ha]
    rfl

/-- R65, R59: a lane port with nothing to send after the ident wait has expired, at an oscillator count. -/
def LanePort.identOver (l : LanePort) (osc : Nat) : LanePort :=
  { l with
    enable := false, state := .off, staging := none
    partialCount := if l.staging.isSome then min (l.partialCount + 1) 4294967295 else l.partialCount
    overtaken := match l.staging with | some g => some { buffer := g, osc := osc } | none => l.overtaken }

theorem LanePort.offClear_up {l : LanePort} (hup : l.state = .up) (htx : l.tx = .none) (hqueue : l.queue = [])
    (hns : l.notSent ≤ 4294967295) : l.offClear = { l with
      enable := false, state := .off, staging := none
      partialCount := if l.staging.isSome then min (l.partialCount + 1) 4294967295 else l.partialCount } := by
  obtain ⟨enable, state, staging, queue, tx, pc, sa, rs, ns, lo, ov⟩ := l
  dsimp only at hup htx hqueue hns
  subst hup htx hqueue
  have hmin : satAdd Config.sat32 ns 0 = ns := Nat.min_eq_left hns
  unfold LanePort.offClear LanePort.settled
  rw [if_pos rfl]
  cases staging with
  | none => simp [LanePort.unsent, Tx.control?, LanePort.countNotSent, hmin]
  | some g => simp [LanePort.unsent, Tx.control?, LanePort.countNotSent, LanePort.countPartial, hmin]; rfl

/-- R73: the entry of a slot that fails. -/
def SlotEntry.failed (e : SlotEntry) (r : FailReason) (osc : Nat) : SlotEntry :=
  { e with state := .faulted, attempts := min (e.attempts + 1) 3, reason := r, pwren := false, laneA := .off, laneB := .off
           timer := some (osc + 100000000 * 2 ^ (min (e.attempts + 1) 3 - 1)) }

/-- R65, R59: the ident wait expires with one lane UP, nothing being sent. -/
theorem State.identExpired_up (hup : (s.lane i p).state = .up) (htx : (s.lane i p).tx = .none)
    (hqueue : (s.lane i p).queue = []) (hns : (s.lane i p).notSent ≤ 4294967295) (ho : (s.lane i p.other).state ≠ .up)
    (hs : (s.slot i).state = .identifying) (hda : (s.slot i).delayA.valid = false) (hdb : (s.slot i).delayB.valid = false) :
    (s.identExpired i).apart = (State.slotBecomes
      { s with lanes := vset s.lanes i ((vget s.lanes i).disabled.set p ((s.lane i p).identOver s.osc)) } i
      ((s.slot i).failed .ident s.osc)).apart := by
  have hlane (q : Plane) (h : (s.lane i q).state = .up) : q = p := by
    by_contra hne
    exact ho (Plane.eq_other_of_ne hne ▸ h)
  have hfault : (s.enterFaulted i .ident).apart = (State.slotBecomes
      { s with lanes := vset s.lanes i ((vget s.lanes i).disabled.set p (s.lane i p).offClear) } i
      ((s.slot i).failed .ident s.osc)).apart := by
    have he : SlotEntry.enter { s.slot i with attempts := min ((s.slot i).attempts + 1) 3, reason := .ident } .faulted s.osc =
        SlotEntry.enterDark { s.slot i with attempts := min ((s.slot i).attempts + 1) 3, reason := .ident } .faulted s.osc :=
      SlotEntry.enter_plain (ne_of_eq_of_ne hs (by decide)) (fun h => absurd (hs.symm.trans h) (by decide)) (fun h => nomatch h)
    have hstill : s.moveStill i
        (SlotEntry.enterDark { s.slot i with attempts := min ((s.slot i).attempts + 1) 3, reason := .ident } .faulted s.osc) := by
      refine { lanes := fun q hq _ => ?_, serving := .inl ?_, queues := .inl ?_, cards := ?_, refs := .inl ?_, entry := ?_ }
      · obtain rfl := hlane q hq
        exact ⟨hqueue, fun h => h.elim (fun h => nomatch h) (fun h => nomatch h)⟩
      · unfold SlotEntry.serving
        rw [hs]
        rfl
      · unfold SlotEntry.leaves SlotEntry.enterDark
        rw [hs]
        simp
      · exact fun h => absurd (hs.symm.trans h) (by decide)
      · have hinvalid : ((s.slot i).delay (s.slot i).active).valid = false := by
          cases (s.slot i).active
          · exact hda
          · exact hdb
        unfold SlotEntry.breaksRef SlotEntry.enterDark
        rw [hs, hinvalid]
        simp
      · exact fun h => absurd (hs.symm.trans h) (by decide)
    unfold State.enterFaulted State.enterSlot
    rw [he, State.moveSlot_off hstill (by rw [hs]; rfl) rfl fun q hq => by
      obtain rfl := hlane q hq
      exact ⟨htx, hqueue⟩, Lanes.both_offClear ho, SlotEntry.lanesTo_dark (by exact hda) (by exact hdb),
      State.becomes_moves (by exact ne_of_eq_of_ne hs (by decide : SlotState.identifying ≠ .faulted)),
      SlotEntry.enterDark_keeps rfl]
    rfl
  have hover : s.identExpired i = s.overtake i (s.enterFaulted i .ident) p := by
    unfold State.identExpired
    simp only [List.foldl]
    cases p with
    | a => exact State.overtake_down ho
    | b => rw [State.overtake_down (p := .a) ho]
  have hoff := LanePort.offClear_up hup htx hqueue hns
  have hset (x y : LanePort) : vset (vset s.lanes i ((vget s.lanes i).disabled.set p x)) i
      ((vget (vset s.lanes i ((vget s.lanes i).disabled.set p x)) i).set p y) =
      vset s.lanes i ((vget s.lanes i).disabled.set p y) := by
    rw [vget_vset_self, vset_vset]
    cases p <;> rfl
  rw [hover]
  generalize s.enterFaulted i .ident = v at hfault
  unfold State.overtake
  cases hg : (s.lane i p).staging with
  | none =>
    dsimp only
    rw [hfault, hoff]
    unfold LanePort.identOver
    rw [hg]
  | some g =>
    dsimp only
    rw [if_pos hup]
    have hv : v.lane i p = (s.lane i p).offClear := by
      refine (congrArg (fun x : State => x.lane i p) hfault :).trans ?_
      change Lanes.get (vget (vset s.lanes i ((vget s.lanes i).disabled.set p (s.lane i p).offClear)) i) p = _
      rw [vget_vset_self, Lanes.get_set_self]
    rw [hv]
    change (v.apart.setLane i p _).apart = _
    rw [hfault]
    unfold State.setLane
    refine (congrArg (fun l => (State.slotBecomes { s with lanes := l } i ((s.slot i).failed .ident s.osc)).apart)
      (hset (s.lane i p).offClear _)).trans ?_
    rw [hoff]
    unfold LanePort.identOver
    rw [hg]

/-- Settles O47: the oscillator runs up to the expiry, and the move is one of the dark moves; only the ident wait may find a
lane UP. -/
theorem slotTimersExpire : Obligations.SlotTimersExpire := by
  unfold Obligations.SlotTimersExpire
  refine ⟨fun i s hq => ?_, fun i x s hq hx => ?_⟩
  · intro passed
    have hpass {F : State → State} {st : SlotState} {c : Instr} (he : exec c s = settled (s.onSlotTimer i st F)) : passed c st :=
      fun h => by
        obtain ⟨t, ht, ha⟩ := work_apart (u := s.onSlotTimer i st F) hq (by rw [State.onSlotTimer_passed h]) rfl
        exact ⟨t, he.trans ht, by rw [ha, State.onSlotTimer_passed h]⟩
    exact ⟨hpass rfl, hpass rfl, hpass rfl, hpass rfl, hpass rfl, hpass rfl⟩
  · intro e u
    have hslot : u.slot i = e := State.advanceTo_slot s x i
    refine ⟨fun p he => ?_, fun hd => ⟨fun he hp => ?_, fun he hp hg => ?_, ?_, fun he hn => ?_, fun he hn hp hg => ?_,
      fun he hn hp => ?_⟩⟩
    · intro l n hup htx hqueue hns ho hda hdb off
      refine timer_apart hq (by simp) hx he ?_
      have h := State.identExpired_up (s := u) (i := i) hup htx hqueue hns ho (by rw [hslot]; exact he)
        (by rw [hslot]; exact hda) (by rw [hslot]; exact hdb)
      rw [hslot] at h
      exact h
    · refine timer_apart hq (by simp) hx he ?_
      have h := State.enterSeated_stays (f := id) hd (by rw [hslot, he]; exact ⟨by decide, by decide⟩) (by rw [hslot, he]; decide)
        (SlotEntry.prepares_refl _) (by rw [hslot, he]; rfl) hp
      rw [hslot, SlotEntry.enterDark_clears rfl] at h
      exact h
    · refine timer_apart hq (by simp) hx he ?_
      have h := State.enterSeated_powers (f := id) hd (by rw [hslot, he]; exact ⟨by decide, by decide⟩) (by rw [hslot, he]; decide)
        (SlotEntry.prepares_refl _) (by rw [hslot, he]; rfl) hp (by rw [hslot]; exact hg)
      rw [hslot, SlotEntry.enterDark_clears (st := .seated) rfl, SlotEntry.enterDark_keeps rfl] at h
      exact h
    · intro n faulted off
      refine ⟨fun he => ?_, fun he => ?_, fun he => ?_⟩
      · refine timer_apart hq (by simp) hx he ?_
        have h := State.enterFaulted_dark (s := u) .power hd (by rw [hslot]; exact he)
        rw [hslot] at h
        exact h
      · refine timer_apart hq (by simp) hx he ?_
        have h := State.enterFaulted_darkens (s := u) .link hd (by rw [hslot]; exact .inl he)
        rw [hslot] at h
        exact h
      · refine timer_apart hq (by simp) hx he ?_
        have h := State.enterFaulted_darkens (s := u) .ident hd (by rw [hslot]; exact .inr he)
        rw [hslot] at h
        exact (congrArg State.apart (State.identExpired_dark hd)).trans h
    · refine timer_apart hq (by simp) hx he ?_
      unfold State.backoffDone
      change (if 3 ≤ (u.slot i).attempts then _ else _ : State).apart = _
      rw [hslot, if_pos hn]
      have h := State.enterSlot_dark_apart (f := id) .lockedOut hd (by rw [hslot, he]; exact ⟨by decide, by decide⟩) (by decide)
        (SlotEntry.prepares_refl _) (by rw [hslot, he]; rfl) (by rw [hslot, he]; decide)
      rw [hslot, SlotEntry.enterDark_clears rfl] at h
      exact h
    · refine timer_apart hq (by simp) hx he ?_
      unfold State.backoffDone
      change (if 3 ≤ (u.slot i).attempts then _ else if u.mayPower i then _ else _ : State).apart = _
      rw [hslot, if_neg (Nat.not_le.mpr hn), if_pos hp]
      have h := State.enterPowering_apart (f := id) hd (by rw [hslot, he]; exact ⟨by decide, by decide⟩)
        (SlotEntry.prepares_refl _) (by rw [hslot, he]; rfl) (by rw [hslot]; exact hg) (by rw [hslot, he]; decide)
      rw [hslot, SlotEntry.enterDark_keeps rfl] at h
      exact h
    · refine timer_apart hq (by simp) hx he ?_
      unfold State.backoffDone
      change (if 3 ≤ (u.slot i).attempts then _ else if u.mayPower i then _ else _ : State).apart = _
      rw [hslot, if_neg (Nat.not_le.mpr hn), hp, if_neg Bool.false_ne_true]
      have h := State.enterSeated_stays (f := id) hd (by rw [hslot, he]; exact ⟨by decide, by decide⟩) (by rw [hslot, he]; decide)
        (SlotEntry.prepares_refl _) (by rw [hslot, he]; rfl) hp
      rw [hslot, SlotEntry.enterDark_clears rfl] at h
      exact h

end Sys2Proof.Machine
end

section
/-! SUPPORT. The end of a drain (O48). -/

namespace Sys2Proof.Machine

open Sys2Proof

variable {s t u g : State} {i : Slot} {p : Plane} {st : SlotState} {f : SlotEntry → SlotEntry} {G : Prop}

/-! ## The queues of one slot (R91) -/

/-- R91 for one slot: its queues are empty unless it serves or drains. -/
def State.queueFollows (s : State) (i : Slot) : Prop :=
  (s.slot i).serving = true ∨ (s.slot i).state = .draining ∨ ∀ c, s.sw.queue i c = EgressQueue.nil

/-- The slots' service stays, and an empty queue of a slot that does not serve stays empty. -/
structure Gentle (s t : State) : Prop where
  service : ∀ i, (t.slot i).service = (s.slot i).service
  queues : ∀ i c, s.sw.queue i c = EgressQueue.nil → t.sw.queue i c = EgressQueue.nil ∨ (s.slot i).serving = true

theorem Gentle.refl (s : State) : Gentle s s := ⟨fun _ => rfl, fun _ _ => .inl⟩

theorem Gentle.serving (h : Gentle s t) (i : Slot) : (t.slot i).serving = (s.slot i).serving :=
  SlotEntry.serving_of_service (h.service i)

theorem Gentle.trans (h : Gentle s t) (k : Gentle t u) : Gentle s u :=
  ⟨fun i => (k.service i).trans (h.service i), fun i c hn =>
    (h.queues i c hn).elim (fun ht => (k.queues i c ht).imp id fun hk => h.serving i ▸ hk) .inr⟩

theorem Steady.gentle (h : Steady s t) : Gentle s t :=
  ⟨h.service, fun i c hn => (h.queues i c hn).imp id (·.1)⟩

theorem Calms.gentle (h : Calms s t) : Gentle s t := h.steady.gentle

theorem foldl_gentle {α : Type} {F : State → α → State} (h : ∀ u x, Gentle u (F u x)) (l : List α) (s : State) :
    Gentle s (l.foldl F s) := by
  induction l generalizing s with
  | nil => exact .refl s
  | cons x l ih => exact (h s x).trans (ih _)

theorem State.takeQuality_gentle (s : State) (q : Nat) : Gentle s (s.takeQuality q) := by
  have h0 : Gentle s { s with sw := { s.sw with quality := q } } := ⟨fun _ => rfl, fun _ _ => .inl⟩
  refine h0.trans (foldl_gentle (fun u k => ?_) _ _)
  split
  · exact Calms.gentle (u.flush_calm ..)
  · exact .refl u

theorem State.putTime_gentle (s : State) (x : TimeBase) : Gentle s (s.putTime x) := by
  have h1 : Steady s (reimage refImageWords s (retouch [0x34, 0x35, 0x36, 0x37] s { s with time := x })) :=
    .of_same rfl rfl rfl
  unfold State.putTime
  dsimp only
  split
  · exact h1.gentle
  · exact (h1.gentle.trans (State.takeQuality_gentle _ _)).trans (Calm.steady (.deliver _)).gentle

theorem Gentle.follows (h : Gentle s t) (hs : s.queueFollows i) : t.queueFollows i := by
  unfold State.queueFollows
  rw [h.serving i, SlotEntry.state_of_service (h.service i)]
  by_cases hserv : (s.slot i).serving = true
  · exact .inl hserv
  · exact .inr ((hs.resolve_left hserv).imp id fun hn c => (h.queues i c (hn c)).resolve_right hserv)

/-- R71, R91: a slot whose entry is replaced by one that neither serves nor drains has its queues flushed. -/
theorem State.changeSlot_queueFollows {j : Slot} {new : SlotEntry} (hs : s.queueFollows i) :
    (s.changeSlot j new).queueFollows i := by
  unfold State.changeSlot
  extract_lets old s1 s2 s3 s4 s5
  have h2 : Gentle s1 s2 := by
    unfold s2
    split
    · exact .refl _
    · exact Calms.gentle s1.roomReport_calm
  have h3 : Gentle s2 s3 := by
    unfold s3
    split
    · exact Calms.gentle (s2.flushBoth_calm j)
    · exact .refl _
  have hsw : s1.sw = s.sw := s.putSlot_sw j new
  have hq3 : s3.queueFollows i := by
    by_cases hj : j = i
    · subst hj
      have hself : s1.slot j = new := s.putSlot_slot_self j new
      unfold State.queueFollows
      rw [h3.serving j, h2.serving j, SlotEntry.state_of_service (h3.service j), SlotEntry.state_of_service (h2.service j),
        hself]
      by_cases hserv : new.serving = true
      · exact .inl hserv
      by_cases hd : new.state = .draining
      · exact .inr (.inl hd)
      refine .inr (.inr fun c => ?_)
      have hf : new.serving = false := Bool.not_eq_true _ ▸ hserv
      have hempty (hold : old.serving = true ∨ old.state = .draining) : s3.sw.queue j c = EgressQueue.nil := by
        have he : s3 = s2.flushBoth j := if_pos (SlotEntry.flushes hold hf hd)
        rw [he]
        refine State.flush_queue (by cases c <;> simp) (State.queueOpen_serving ?_)
        rw [h2.serving j, hself, hf]
      obtain ho | ho | hn := hs
      · exact hempty (.inl ho)
      · exact hempty (.inr ho)
      · refine ((h2.trans h3).queues j c (by rw [hsw]; exact hn c)).resolve_right ?_
        rw [hself]
        exact hserv
    · have hother : s1.slot i = s.slot i := s.putSlot_slot_ne new hj
      refine (h2.trans h3).follows ?_
      unfold State.queueFollows
      rw [hother, hsw]
      exact hs
  have h4 : Gentle s3 s4 := by
    unfold s4
    split
    · exact (s3.clearCardPoints_steady j).gentle
    · exact .refl _
  have h5 : Gentle s4 s5 := by
    unfold s5
    split
    · exact State.putTime_gentle _ _
    · exact .refl _
  have hq5 := (h4.trans h5).follows hq3
  split
  · exact hq5
  · exact (Calms.gentle (s5.kickSlot_calm j)).follows hq5

theorem Change.queueFollows (h : Change G s t) (hs : s.queueFollows i) : t.queueFollows i := by
  cases h with
  | calm h => exact h.steady.gentle.follows hs
  | reseat j new hcfg hst =>
    unfold State.reseat
    split
    · exact (Calms.gentle (State.pollLeaves_calm _ j)).follows (State.changeSlot_queueFollows hs)
    · exact State.changeSlot_queueFollows hs
  | quality q => exact (s.takeQuality_gentle q).follows hs
  | point k p _ => exact (Steady.of_same rfl rfl rfl).gentle.follows hs
  | attempt c _ => exact (Steady.of_same rfl rfl rfl).gentle.follows hs
  | reconfigure j c =>
    have hput : (s.putSlot j { s.slot j with cfg := c }).queueFollows i := by
      unfold State.queueFollows
      rw [State.putSlot_sw]
      by_cases hj : j = i
      · subst hj
        rw [State.putSlot_slot_self]
        exact hs
      · rw [State.putSlot_slot_ne _ _ hj]
        exact hs
    unfold State.reconfigure
    split
    · exact (Calms.gentle (State.emptyQueue_calm j _ .timed)).follows hput
    · exact hput

theorem Changes.queueFollows (h : Changes G s t) (hs : s.queueFollows i) : t.queueFollows i :=
  chain_keeps (P := fun u => u.queueFollows i) (fun h hu => Change.queueFollows h hu) h hs

/-! ## The end of a drain, with nothing left to act on (R70, R71) -/

theorem SlotEntry.enter_left {e : SlotEntry} {osc : Nat} (hs : e.state = .draining) (hp : st ≠ .powering) :
    e.enter st osc = e.left.enterDark st osc := by
  unfold SlotEntry.enter SlotEntry.enterDark
  simp only [hs, beq_self_eq_true, Bool.or_true, if_true, if_neg hp]

/-- R70, R71: a slot leaves DRAINING with its queues empty and nothing on its lanes. -/
theorem State.enterSlot_drained (hs : (s.slot i).state = .draining) (hst : st = .released ∨ st = .seated)
    (hq : ∀ c, s.sw.queue i c = EgressQueue.nil) (hc : ∀ p, (s.lane i p).clear)
    (hr : ((s.slot i).delayA.valid = false ∧ (s.slot i).delayB.valid = false) ∨ s.noRef i) :
    (s.enterSlot i st id).apart = (State.slotBecomes { s with lanes := vset s.lanes i ((vget s.lanes i).both LanePort.offClear) } i
      { (s.slot i).left with state := st, timer := none, pwren := false, override := false, laneA := .off, laneB := .off }).apart := by
  have hne : st ≠ .powering ∧ st ≠ .admitted ∧ st ≠ .draining ∧ st.laneOn = false ∧ st.clearsOverride = true ∧
      st.powered = false ∧ st.timerFrom s.osc (s.slot i).attempts = none := by
    rcases hst with rfl | rfl <;> exact ⟨by decide, by decide, by decide, rfl, rfl, rfl, rfl⟩
  obtain ⟨hnp, hna, hnd, hoff, hclears, hpow, htimer⟩ := hne
  have hstill : s.moveStill i ((s.slot i).left.enterDark st s.osc) := by
    refine { lanes := fun p hup htx => ?_, serving := .inl ?_, queues := .inr hq, cards := ?_, refs := ?_, entry := ?_ }
    · exact ⟨(hc p hup).2, fun h => absurd h (fun h => h.elim hna hnd)⟩
    · unfold SlotEntry.serving SlotEntry.enterDark
      rw [hs, beq_eq_false_iff_ne.mpr hna]
      rfl
    · exact fun h => absurd (hs.symm.trans h) (by decide)
    · refine hr.imp_left fun ⟨hda, hdb⟩ => ?_
      have hinvalid : ((s.slot i).delay (s.slot i).active).valid = false := by
        cases (s.slot i).active
        · exact hda
        · exact hdb
      unfold SlotEntry.breaksRef SlotEntry.enterDark SlotEntry.left
      rw [hs, hinvalid]
      simp
    · exact fun h => absurd (hs.symm.trans h) (by decide)
  unfold State.enterSlot
  rw [id, SlotEntry.enter_left hs hnp, State.moveSlot_off hstill (by rw [hs]; rfl) hoff hc,
    SlotEntry.lanesTo_dark rfl rfl, State.becomes_moves (by exact fun h => hnd (h.symm.trans hs)), SlotEntry.enterDark_clears hclears,
    hpow]
  have ht : st.timerFrom s.osc (s.slot i).left.attempts = none := htimer
  rw [ht]

/-- R71: a drain ends with its queues empty, and R62 does not power the slot. -/
theorem State.endDrain_clear (hs : (s.slot i).state = .draining) (hq : ∀ c, s.sw.queue i c = EgressQueue.nil)
    (hc : ∀ p, (s.lane i p).clear) (hr : ((s.slot i).delayA.valid = false ∧ (s.slot i).delayB.valid = false) ∨ s.noRef i)
    (hmay : s.mayPower i = false) :
    (s.endDrain i).apart = (State.slotBecomes { s with lanes := vset s.lanes i ((vget s.lanes i).both LanePort.offClear) } i
      { (s.slot i).left with
        state := if (s.slot i).drainCause = .release then .released else .seated
        timer := none, pwren := false, override := false, laneA := .off, laneB := .off }).apart := by
  unfold State.endDrain
  split
  · exact State.enterSlot_drained hs (.inl rfl) hq hc hr
  · have h := State.enterSlot_drained hs (.inr rfl) hq hc hr
    have hm : (s.enterSlot i .seated id).mayPower i = false := by
      refine (congrArg (fun x : State => x.mayPower i) h :).trans ?_
      unfold State.mayPower State.slotBecomes
      refine (congrArg (fun e : SlotEntry => s.cmd.hub.allowsPowering && e.cfg.provisioned && e.latch)
        (State.slot_setSlot_self _ i _)).trans ?_
      exact hmay
    unfold State.enterSeated
    rw [State.judgeSeated_still (.inr hm), h]

/-- A lane port that is not being used, once its enable has gone off. -/
theorem LanePort.offClear_idle {l : LanePort} (htx : l.tx = .none) (hqueue : l.queue = []) (hst : l.staging = none)
    (hns : l.notSent ≤ 4294967295) : l.offClear = { l with enable := false, state := .off } := by
  by_cases hup : l.state = .up
  · rw [LanePort.offClear_up hup htx hqueue hns, hst]
    rfl
  · exact LanePort.offClear_of_down hup

theorem State.queuesEmpty_of_nil (hq : ∀ c, s.sw.queue i c = EgressQueue.nil) : s.queuesEmpty i = true := by
  unfold State.queuesEmpty
  rw [hq .timed, hq .bulk]
  rfl

theorem State.queuesEmpty_of_frames {c : Cls} (h : (s.sw.queue i c).frames ≠ [] ∨ (s.sw.queue i c).reserved ≠ []) :
    s.queuesEmpty i = false := by
  have hc : (s.sw.queue i c).isEmpty = false := by
    unfold EgressQueue.isEmpty
    rcases h with h | h <;> simp [h]
  unfold State.queuesEmpty
  cases c <;> simp [hc]

/-! ## How every drain ends -/

/-- R71: what a slot is after a drain, whatever was still in its queues or on its lanes. -/
def State.drained (s : State) (i : Slot) (c : DrainCause) : Prop :=
  (∀ c, s.sw.queue i c = EgressQueue.nil) ∧ (s.slot i).card = none ∧
    (c = .release → (s.slot i).state = .released) ∧
    (c ≠ .release → (s.slot i).state = .seated ∨ (s.slot i).state = .powering ∨ (s.slot i).state = .training)

theorem State.queues_of_follows (h : s.queueFollows i) (hs : (s.slot i).state ≠ .admitted ∧ (s.slot i).state ≠ .draining) (c : Cls) :
    s.sw.queue i c = EgressQueue.nil := by
  refine (h.resolve_left ?_).resolve_left hs.2 c
  unfold SlotEntry.serving
  rw [beq_eq_false_iff_ne.mpr hs.1]
  exact Bool.false_ne_true

theorem SlotEntry.enter_card (e : SlotEntry) (st : SlotState) (osc : Nat) (h : e.state = .draining ∨ e.card = none) :
    (e.enter st osc).card = none := by
  unfold SlotEntry.enter
  rcases h with h | h
  · rw [if_pos (by rw [h]; simp)]
    dsimp only
    split <;> rfl
  · dsimp only
    (repeat' split) <;> first | rfl | exact h

theorem State.enterSlot_card (st : SlotState) (h : (s.slot i).state = .draining ∨ (s.slot i).card = none) :
    ((s.enterSlot i st id).slot i).card = none :=
  (congrArg SlotEntry.card (State.enterSlot_held s i st id)).trans ((s.slot i).enter_card st s.osc h)

theorem State.enterPowering_state (i : Slot) :
    ((s.enterPowering i id).slot i).state = .powering ∨ ((s.enterPowering i id).slot i).state = .training := by
  unfold State.enterPowering
  dsimp only
  split
  · exact .inr (State.enterSlot_self ..)
  · exact .inl (State.enterSlot_self ..)

theorem State.enterPowering_card (h : (s.slot i).card = none) : ((s.enterPowering i id).slot i).card = none := by
  have h1 := State.enterSlot_card (s := s) (i := i) .powering (.inr h)
  unfold State.enterPowering
  dsimp only
  split
  · exact State.enterSlot_card .training (.inr h1)
  · exact h1

theorem State.endDrain_drained (hs : (s.slot i).state = .draining) : (s.endDrain i).drained i (s.slot i).drainCause := by
  have hfollows : (s.endDrain i).queueFollows i :=
    (State.endDrain_changes (G := True) (State.seats_of_state hs)).queueFollows (.inr (.inl hs))
  have hqueues (h : ((s.endDrain i).slot i).state ≠ .admitted ∧ ((s.endDrain i).slot i).state ≠ .draining) :=
    State.queues_of_follows hfollows h
  unfold State.endDrain at hfollows hqueues ⊢
  by_cases hc : (s.slot i).drainCause = .release
  · simp only [if_pos hc] at hfollows hqueues ⊢
    have hst : ((s.enterSlot i .released id).slot i).state = .released := State.enterSlot_self ..
    exact ⟨hqueues (by rw [hst]; exact ⟨by decide, by decide⟩), State.enterSlot_card _ (.inl hs), fun _ => hst,
      fun h => absurd hc h⟩
  · simp only [if_neg hc] at hfollows hqueues ⊢
    have hst : ((s.enterSlot i .seated id).slot i).state = .seated := State.enterSlot_self ..
    have hcard : ((s.enterSlot i .seated id).slot i).card = none := State.enterSlot_card _ (.inl hs)
    have hboth : ((s.enterSeated i id).slot i).card = none ∧ (((s.enterSeated i id).slot i).state = .seated ∨
        ((s.enterSeated i id).slot i).state = .powering ∨ ((s.enterSeated i id).slot i).state = .training) := by
      unfold State.enterSeated State.judgeSeated
      split
      · exact ⟨State.enterPowering_card hcard, .inr (State.enterPowering_state i)⟩
      · exact ⟨hcard, .inl hst⟩
    obtain ⟨h1, h2⟩ := hboth
    refine ⟨hqueues ?_, h1, fun h => absurd h hc, fun _ => h2⟩
    rcases h2 with h2 | h2 | h2 <;> rw [h2] <;> exact ⟨by decide, by decide⟩

theorem exec_drainEnd_ends (hq : s.busQuiet) (hs : (s.slot i).state = .draining)
    (hn : ∀ c, s.sw.queue i c = EgressQueue.nil) (hx : (s.endDrain i).apart = u) :
    ∃ t, exec (.drainEnd i) s = .next t ∧ t.apart = u := by
  refine work_apart hq (by split <;> simp) ?_
  rw [hs, State.queuesEmpty_of_nil hn]
  exact hx

theorem Delay.invalidate_eq (d : Delay) : d.invalidate = { d with valid := false } := rfl

theorem SlotEntry.left_dark {e : SlotEntry} (ha : e.delayA.valid = false) (hb : e.delayB.valid = false) :
    e.left = { e with fenced := false, missed := 0, alt := 0, card := none } := by
  unfold SlotEntry.left
  rw [Delay.invalidate_of_invalid ha, Delay.invalidate_of_invalid hb]

/-- R71: the end of a drain of a slot that is dark. -/
theorem State.endDrain_dark (hs : (s.slot i).state = .draining) (hd : s.slotDark i)
    (hn : ∀ c, s.sw.queue i c = EgressQueue.nil) (hmay : s.mayPower i = false) :
    (s.endDrain i).apart = (State.slotBecomes { s with lanes := vset s.lanes i (vget s.lanes i).disabled } i { s.slot i with
      state := if (s.slot i).drainCause = .release then .released else .seated
      timer := none, pwren := false, override := false, fenced := false, missed := 0, alt := 0, card := none
      laneA := .off, laneB := .off }).apart := by
  obtain ⟨hlanes, hda, hdb⟩ := hd
  have hoff (p : Plane) : (s.lane i p).offClear = { s.lane i p with enable := false, state := .off } :=
    LanePort.offClear_of_down (hlanes p)
  have hboth : (vget s.lanes i).both LanePort.offClear = (vget s.lanes i).disabled := by
    unfold Lanes.both Lanes.disabled
    exact congrArg₂ (fun a b => ({ a := a, b := b } : Lanes)) (hoff .a) (hoff .b)
  rw [State.endDrain_clear hs hn (fun p => LanePort.clear_of_down (hlanes p)) (.inl ⟨hda, hdb⟩) hmay, hboth,
    SlotEntry.left_dark hda hdb]

/-- Settles O48: a drain ends in the entry of RELEASED or SEATED with everything of the slot given up
(`State.endDrain_clear`); in every case its queues are flushed (`State.endDrain_drained`). -/
theorem drainEnds : Obligations.DrainEnds := by
  unfold Obligations.DrainEnds
  intro i s hq hs after
  refine ⟨fun hd hn hmay => ?_, fun x hx => ?_, fun hn hmay hl hr => ?_, ⟨fun ht => ?_, fun hn => ?_⟩, fun ⟨c, hc⟩ => ?_⟩
  · exact exec_drainEnd_ends hq hs hn (State.endDrain_dark hs hd hn hmay)
  · intro u hd hn hmay
    have hslot : u.slot i = s.slot i := State.advanceTo_slot s x i
    refine timer_apart hq (by simp) hx hs ?_
    have h := State.endDrain_dark (s := u) (by rw [hslot]; exact hs) hd hn hmay
    rw [hslot] at h
    exact h
  · have hidle (p : Plane) : (s.lane i p).offClear = { s.lane i p with enable := false, state := .off } := by
      obtain ⟨htx, hqueue, hstage, hns⟩ := hl p
      exact LanePort.offClear_idle htx hqueue hstage hns
    have hboth : (vget s.lanes i).both LanePort.offClear = (vget s.lanes i).disabled := by
      unfold Lanes.both Lanes.disabled
      exact congrArg₂ (fun a b => ({ a := a, b := b } : Lanes)) (hidle .a) (hidle .b)
    refine exec_drainEnd_ends hq hs hn ?_
    rw [State.endDrain_clear hs hn (fun p _ => ⟨(hl p).1, (hl p).2.1⟩) (.inr hr) hmay, hboth]
    rfl
  · obtain ⟨x, hx⟩ := Option.isSome_iff_exists.mp ht
    have hslot : (s.advanceTo x).slot i = s.slot i := State.advanceTo_slot s x i
    obtain ⟨t, he, ha⟩ := timer_apart (F := (·.endDrain i)) hq (by simp) hx hs rfl
    have h := State.endDrain_drained (s := s.advanceTo x) (by rw [hslot]; exact hs)
    rw [hslot] at h
    change ((s.advanceTo x).endDrain i).apart.drained i _ at h
    rw [← ha] at h
    exact ⟨t, he, h⟩
  · obtain ⟨t, he, ha⟩ := exec_drainEnd_ends hq hs hn rfl
    have h := State.endDrain_drained hs
    change (s.endDrain i).apart.drained i _ at h
    rw [← ha] at h
    exact ⟨t, he, h⟩
  · refine work_apart hq (by split <;> simp) ?_
    rw [State.queuesEmpty_of_frames hc, Bool.and_false]
    rfl

end Sys2Proof.Machine
end

section
/-! SUPPORT. The two resets (O38, O39). -/

namespace Sys2Proof.Machine

open Sys2Proof

variable {s t u : State} {i : Slot} {p : Plane} {m : Memory} {a : Addr} {d : Word} {be : ByteEnables} {b : Nat}

theorem Memory.writeWord_torn (hm : Memory.WF m) {torn : ByteEnables} (hsub : ∀ j, torn.getLsbD j = true → be.getLsbD j = true) :
    Memory.read (Memory.writeWord m a d torn) b = Memory.read m b ∨
      (4 * a.toNat ≤ b ∧ b < 4 * a.toNat + 4 ∧ be.getLsbD (b - 4 * a.toNat) = true ∧
        Memory.read (Memory.writeWord m a d torn) b = Memory.byteOf d (b - 4 * a.toNat)) := by
  rw [Memory.read_writeWord hm]
  split
  · rename_i h
    exact .inr ⟨h.1, h.2.1, hsub _ h.2.2, rfl⟩
  · exact .inl rfl

theorem State.coldResets_lane (s : State) (i : Slot) (p : Plane) : s.coldResets.lane i p = s.coldLane i p := by
  cases p <;> simp [State.lane, State.coldResets, vget, Lanes.get]

/-- Settles O39: a cold reset replaces every block; of memory only the word at the port may be torn (`Memory.writeWord_torn`). -/
theorem coldResetTaken : Obligations.ColdResetTaken := by
  unfold Obligations.ColdResetTaken
  intro s
  refine ⟨s.coldResets, rfl, rfl, rfl, rfl, rfl, rfl, rfl, rfl, rfl, rfl, rfl, fun i p => ?_, fun i => ?_, fun hm b => ?_⟩
  · rw [State.coldResets_lane]
    rfl
  · rw [State.coldResets_slot]
    unfold SlotEntry.coldWith
    rw [show s.coldResets.osc = 0 from rfl, Nat.zero_add]
    rfl
  · change Memory.read s.tornMem b = _ ∨ ∃ a d be, _ ∧ _ ∧ _ ∧ _ ∧ Memory.read s.tornMem b = _
    unfold State.tornMem
    split
    · rename_i w p a d hh
      refine (Memory.writeWord_torn (be := allBytes) hm fun j hj => ?_).imp_right fun h => ⟨a, d, allBytes, .inl ⟨w, p, hh, rfl⟩, h⟩
      have hlt : j < 4 := BitVec.lt_of_getLsbD hj
      interval_cases j <;> rfl
    · rename_i a d be k hh
      refine (Memory.writeWord_torn (be := be) hm fun j hj => ?_).imp_right fun h => ⟨a, d, be, .inr ⟨k, hh⟩, h⟩
      rw [BitVec.getLsbD_and, Bool.and_eq_true] at hj
      exact hj.1
    · exact .inl rfl

end Sys2Proof.Machine
end

section
/-! SUPPORT. What a flush, a poll that ends and a move of a slot leave alone: the memory path, the command unit but for its
rewrite sets and its pending set, the ring engine but for a report of room, the clock, and shelf memory. -/

namespace Sys2Proof.Machine

open Sys2Proof

variable {s t u : State}

/-- The clock of the time base: without its references, their selection and the state of the loop. -/
def TimeBase.clock (x : TimeBase) : TimeBase :=
  { x with refs := TimeBase.cold.refs, state := .free, selected := none, lockRun := 0, unlockRun := 0, holdover := 0
           beyond := false }

/-- What the moves of a slot leave alone. -/
def State.frame (s : State) : MemoryPath × CommandUnit × RingEngine × TimeBase × Nat × Memory × List Instr :=
  (s.path, { s.cmd with rewrite := [], images := [], pending := 0 }, { s.ring with tx := none }, s.time.clock, s.osc, s.mem,
    s.pending)

theorem foldl_frame {α : Type} {f : State → α → State} (h : ∀ s x, (f s x).frame = s.frame) (l : List α) (s : State) :
    (l.foldl f s).frame = s.frame := by
  induction l generalizing s with
  | nil => rfl
  | cons x l ih => rw [List.foldl_cons, ih, h]

@[simp] theorem State.deliver_frame (s : State) (c : Cause) : (s.deliver c).frame = s.frame := rfl

@[simp] theorem State.putPoint_frame (s : State) (k : Fin 64) (p : Point) : (s.putPoint k p).frame = s.frame := rfl

@[simp] theorem State.pollResult_frame (s : State) (a : Addr) (ws : List Word) (w : PollWork) (final : AttemptOutcome)
    (r : Option Nat) : (s.pollResult a ws w final r).frame = s.frame := rfl

/-! ## Lanes and queues -/

@[simp] theorem State.putSlot_frame (s : State) (i : Slot) (e : SlotEntry) : (s.putSlot i e).frame = s.frame := by
  unfold State.putSlot
  dsimp only
  split <;> rfl

@[simp] theorem State.setLane_frame (s : State) (i : Slot) (p : Plane) (l : LanePort) : (s.setLane i p l).frame = s.frame := rfl

@[simp] theorem State.reportStart_frame (s : State) (f : CtlFrame) : (s.reportStart f).frame = s.frame := by
  unfold State.reportStart
  split <;> rfl

@[simp] theorem State.kickLane_frame (s : State) (i : Slot) (p : Plane) : (s.kickLane i p).frame = s.frame := by
  unfold State.kickLane State.startData
  dsimp only
  (repeat' split) <;> first | rfl | exact State.reportStart_frame ..

@[simp] theorem State.kickSlot_frame (s : State) (i : Slot) : (s.kickSlot i).frame = s.frame := by
  rw [State.kickSlot, State.kickLane_frame, State.kickLane_frame]

@[simp] theorem State.roomReport_frame (s : State) : s.roomReport.frame = s.frame := rfl

@[simp] theorem State.dropClaim_frame (s : State) (id : Nat) : (s.dropClaim id).frame = s.frame := by
  unfold State.dropClaim
  dsimp only
  split <;> rfl

@[simp] theorem State.abandonTx_frame (i : Slot) (c : Cls) (s : State) (p : Plane) : (State.abandonTx i c s p).frame = s.frame := by
  unfold State.abandonTx
  dsimp only
  (repeat' split) <;> first | rfl | exact State.dropClaim_frame ..

@[simp] theorem State.emptyQueue_frame (i : Slot) (s : State) (c : Cls) : (State.emptyQueue i s c).frame = s.frame := by
  unfold State.emptyQueue
  dsimp only
  split
  · rfl
  · exact foldl_frame (fun s p => State.abandonTx_frame i c s p) _ s

@[simp] theorem State.flush_frame (s : State) (i : Slot) (cs : List Cls) : (s.flush i cs).frame = s.frame := by
  rw [State.flush, State.kickSlot_frame, foldl_frame (fun s c => State.emptyQueue_frame i s c)]

@[simp] theorem State.flushBoth_frame (s : State) (i : Slot) : (s.flushBoth i).frame = s.frame := s.flush_frame i _

@[simp] theorem State.takeQuality_frame (s : State) (q : Nat) : (s.takeQuality q).frame = s.frame :=
  foldl_frame (fun s i => by split <;> simp) _ _

/-- R129: a change of the time base that leaves the clock. -/
theorem State.putTime_frame {x : TimeBase} (h : x.clock = s.time.clock) : (s.putTime x).frame = s.frame := by
  have h1 : (reimage refImageWords s (retouch [0x34, 0x35, 0x36, 0x37] s { s with time := x })).frame = s.frame :=
    congrArg (fun c => ((s.path, _, _, c, s.osc, s.mem, s.pending) :
      MemoryPath × CommandUnit × RingEngine × TimeBase × Nat × Memory × List Instr)) h
  unfold State.putTime
  dsimp only
  split
  · exact h1
  · exact (State.takeQuality_frame _ _).trans h1

theorem TimeBase.reselect_clock (x : TimeBase) : x.reselect.clock = x.clock := by
  unfold TimeBase.reselect
  (repeat' split) <;> rfl

theorem TimeBase.rejudge_clock (x y : TimeBase) : (x.rejudge y).clock = y.clock := by
  unfold TimeBase.rejudge
  split
  · rfl
  · exact y.reselect_clock

@[simp] theorem State.disqualifySlot_frame (s : State) (i : Slot) : (s.disqualifySlot i).frame = s.frame :=
  State.putTime_frame (TimeBase.rejudge_clock _ _)

/-! ## Alarm points -/

@[simp] theorem State.movePoint_frame (s : State) (k : Fin 64) (p : Point) : (s.movePoint k p).frame = s.frame := by
  have hplace (u : State) (b : LogBody) : (u.placeChange b).frame = u.frame := by
    unfold State.placeChange
    (repeat' split) <;> rfl
  unfold State.movePoint
  dsimp only
  split
  · rfl
  · split
    · exact hplace ..
    · split
      · exact hplace ..
      · rfl

@[simp] theorem State.clearCardPoints_frame (s : State) (i : Slot) : (s.clearCardPoints i).frame = s.frame :=
  foldl_frame (fun s k => by dsimp only; split <;> simp) _ _

@[simp] theorem State.observeCard_frame (s : State) (i : Slot) (flags : BitVec 4) (codes : List Byte) :
    (s.observeCard i flags codes).frame = s.frame :=
  foldl_frame (fun s k => by dsimp only; split <;> simp) _ _

@[simp] theorem State.emptyPoints_frame (s : State) : s.emptyPoints.frame = s.frame :=
  foldl_frame (fun s k => by rw [State.putPoint_frame, State.movePoint_frame]) _ _

/-! ## Polls -/

@[simp] theorem State.changeSlot_frame (s : State) (i : Slot) (new : SlotEntry) : (s.changeSlot i new).frame = s.frame := by
  unfold State.changeSlot
  dsimp only
  (repeat' split) <;> simp

@[simp] theorem State.submit_frame (s : State) (i : Slot) (p : Plane) (f : CtlFrame) : (s.submit i p f).1.frame = s.frame := by
  unfold State.submit
  dsimp only
  split
  · exact State.kickLane_frame ..
  · rfl

@[simp] theorem State.takePoll_frame (s : State) (i : Slot) (log : List AttemptRec) (final : AttemptOutcome) :
    (s.takePoll i log final).1.frame = s.frame := State.changeSlot_frame ..

@[simp] theorem State.pollFinish_frame (s : State) (a : Addr) (ws : List Word) (w : PollWork) (final : AttemptOutcome) :
    (s.pollFinish a ws w final).frame = s.frame := by
  unfold State.pollFinish
  dsimp only
  rw [State.pollResult_frame]
  split
  · exact (State.observeCard_frame ..).trans (State.takePoll_frame ..)
  · exact State.takePoll_frame ..

@[simp] theorem State.pollGo_frame (fuel : Nat) (s : State) (a : Addr) (ws : List Word) (w : PollWork) :
    (State.pollGo fuel s a ws w).frame = s.frame := by
  induction fuel generalizing s w with
  | zero => rfl
  | succ k ih =>
    unfold State.pollGo
    extract_lets p n tag w1 c s0 s1 r w2
    have hr : r.1.frame = s.frame := State.submit_frame ..
    split
    · rfl
    · split
      · exact hr
      · split
        · exact (ih _ _).trans hr
        · exact (State.pollFinish_frame ..).trans hr

@[simp] theorem State.attemptEnds_frame (s : State) (o : AttemptOutcome) : (s.attemptEnds o).frame = s.frame := by
  unfold State.attemptEnds
  dsimp only
  (repeat' split) <;> simp

@[simp] theorem State.reportControl_frame (s : State) (sent : Bool) (f : CtlFrame) : (s.reportControl sent f).frame = s.frame := by
  have hjudge (u : State) (a : Addr) (ws : List Word) (w : TimeWork) : (u.timeJudge a ws w).frame = u.frame := by
    unfold State.timeJudge
    split <;> rfl
  unfold State.reportControl
  dsimp only
  (repeat' split) <;> first | rfl | exact State.attemptEnds_frame .. | exact hjudge .. | exact (hjudge ..).trans rfl

@[simp] theorem State.reportUnsent_frame (s : State) (fs : List CtlFrame) : (s.reportUnsent fs).frame = s.frame :=
  foldl_frame (fun s f => State.reportControl_frame s false f) _ _

@[simp] theorem State.pollLeaves_frame (s : State) (i : Slot) : (s.pollLeaves i).frame = s.frame := by
  unfold State.pollLeaves
  split
  · split <;> rfl
  · rfl

/-! ## Moves of a slot -/

@[simp] theorem State.leaveUp_frame (s : State) (i : Slot) (p : Plane) (st : LaneState) : (s.leaveUp i p st).frame = s.frame := by
  unfold State.leaveUp
  dsimp only
  split
  · rfl
  · rfl
  · exact (State.kickLane_frame ..).trans (State.dropClaim_frame ..)

@[simp] theorem State.laneOff_frame (i : Slot) (s : State) (p : Plane) : (State.laneOff i s p).frame = s.frame := by
  unfold State.laneOff
  dsimp only
  split <;> simp

@[simp] theorem State.laneOn_frame (i : Slot) (s : State) (p : Plane) : (State.laneOn i s p).frame = s.frame := by
  unfold State.laneOn
  dsimp only
  split <;> simp

@[simp] theorem State.followEnable_frame (s : State) (i : Slot) (was : SlotState) : (s.followEnable i was).frame = s.frame := by
  unfold State.followEnable
  dsimp only [List.foldl]
  (repeat' split) <;> simp

@[simp] theorem State.enterSlot_frame (s : State) (i : Slot) (st : SlotState) (f : SlotEntry → SlotEntry) :
    (s.enterSlot i st f).frame = s.frame := by
  unfold State.enterSlot State.moveSlot
  dsimp only
  rw [State.followEnable_frame]
  split <;> simp

@[simp] theorem State.judgeSeated_frame (s : State) (i : Slot) : (s.judgeSeated i).frame = s.frame := by
  unfold State.judgeSeated State.enterPowering State.enterTraining
  dsimp only
  (repeat' split) <;> simp

@[simp] theorem State.judgeAllSeated_frame (s : State) : s.judgeAllSeated.frame = s.frame :=
  foldl_frame (fun s i => State.judgeSeated_frame s i) _ _

theorem State.setHub_frame (s : State) (h : HubState) :
    (s.setHub h).frame = ({ s with cmd := { s.cmd with hub := h } } : State).frame := State.judgeAllSeated_frame _

@[simp] theorem State.emptyTables_frame (s : State) : s.emptyTables.frame = s.frame := by
  unfold State.emptyTables
  extract_lets m s1 w s2 s3
  have h2 : s2.frame = s.frame := rfl
  have hclock (x : TimeBase) : (x.rejudge { x with refs := TimeBase.cold.refs }).clock = x.clock := TimeBase.rejudge_clock _ _
  rw [State.putTime_frame (hclock s3.time), State.emptyPoints_frame, h2]

/-! ## Oscillator time -/

/-- What passing oscillator time leaves alone. -/
def State.keel (s : State) : MemoryPath × CommandUnit × RingEngine × Memory × List Instr :=
  (s.path, { s.cmd with rewrite := [], images := [], pending := 0, place := none, lastSource := .transfer, snapSec := 0
                        snapNs := 0 }, { s.ring with tx := none }, s.mem, s.pending)

theorem State.keel_of_frame (h : t.frame = s.frame) : t.keel = s.keel :=
  congrArg (fun x : MemoryPath × CommandUnit × RingEngine × TimeBase × Nat × Memory × List Instr =>
    ((x.1, { x.2.1 with place := none, lastSource := .transfer, snapSec := 0, snapNs := 0 }, x.2.2.1, x.2.2.2.2.2.1, x.2.2.2.2.2.2) :
      MemoryPath × CommandUnit × RingEngine × Memory × List Instr)) h

@[simp] theorem State.snapshot_keel (s : State) (sec ns : Nat) : (s.snapshot sec ns).keel = s.keel := rfl

@[simp] theorem State.putTime_keel (s : State) (x : TimeBase) : (s.putTime x).keel = s.keel := by
  unfold State.putTime
  dsimp only
  split
  · rfl
  · refine State.keel_of_frame (s := reimage refImageWords s (retouch [0x34, 0x35, 0x36, 0x37] s { s with time := x })) ?_
    rw [State.deliver_frame, State.takeQuality_frame]

@[simp] theorem State.boundaryElapsed_keel (s : State) : s.boundaryElapsed.keel = s.keel := by
  unfold State.boundaryElapsed State.endWait
  (repeat' split) <;> rfl

@[simp] theorem State.carry_keel (s : State) : s.carry.keel = s.keel := by
  have htime (x : TimeBase) : ({ s with time := x } : State).keel = s.keel := rfl
  unfold State.carry State.rollover
  split
  · rw [State.snapshot_keel, State.putTime_keel, htime]
  · rfl

@[simp] theorem State.fillCommand_keel (s : State) : s.fillCommand.keel = s.keel := by
  unfold State.fillCommand
  (repeat' split) <;> rfl

@[simp] theorem State.stretch_keel (s : State) (k : Nat) : (s.stretch k).keel = s.keel := by
  unfold State.stretch
  rw [State.fillCommand_keel, State.boundaryElapsed_keel, State.carry_keel]
  exact State.fillCommand_keel s

theorem State.runOsc_keel (fuel : Nat) (s : State) (n : Nat) : (State.runOsc fuel s n).keel = s.keel := by
  induction fuel generalizing s n with
  | zero => rfl
  | succ k ih => unfold State.runOsc; split <;> simp [ih]

@[simp] theorem State.advanceTo_keel (s : State) (x : Nat) : (s.advanceTo x).keel = s.keel := State.runOsc_keel _ s _

end Sys2Proof.Machine
end

section
/-! SUPPORT. The receive movement (O49, O50). -/

namespace Sys2Proof.Machine

open Sys2Proof

variable {s t u x : State} {m : RxMove} {ds : List RxDesc} {a : Addr} {v : Word}

/-! ## A row that is the completion of the word that holds the port -/

theorem awaited_apart {p : State → Held → Bool} {h : Held} (hq : s.busQuiet) (hh : s.path.holder = some (.word h))
    (hp : p s h = true) (hx : s.complete.apart = x) :
    ∃ t, (Host.Outcome.next (s.awaitPort p) : Out) = .next t ∧ t.apart = x :=
  ⟨_, congrArg Host.Outcome.next (State.awaitPort_held hh hp), (State.portComplete_apart hq).trans hx⟩

theorem State.complete_rx_read (hh : s.path.holder = some (.word ⟨.ring, .rx, .read a⟩)) :
    s.complete = s.release.rxRead (Memory.readWord s.mem a) := State.complete_word hh

theorem State.complete_rx_write (hh : s.path.holder = some (.word ⟨.ring, .rx, .write a v⟩)) :
    s.complete = ({ s.release with mem := Memory.writeWord s.mem a v allBytes } : State).rxWritten := State.complete_word hh

theorem rxPhaseOf_rx {op : DmaOp} (hm : s.ring.rx = some m) : rxPhaseOf s ⟨.ring, .rx, op⟩ = some (m, m.phase) := by
  unfold rxPhaseOf
  rw [hm]
  rfl

/-! ## The words read (R101) -/

theorem State.walkEnds_holds (hh : u.ring.par.holdMs ≠ 0) :
    u.walkEnds m = { u with ring := { u.ring with rx := some { m with
      hold := some (m.hold.getD (u.osc + u.ring.par.holdMs * 100000))
      rewalk := false, phase := if m.rewalk then .looking [] false else .held } } } := by
  unfold State.walkEnds
  dsimp only
  rw [if_neg hh]
  obtain ⟨id, len, src, cls, phase, hold, rewalk⟩ := m
  cases rewalk <;> cases hold <;> rfl

theorem State.walkEnds_misses (hh : u.ring.par.holdMs = 0) : u.walkEnds m = u.rxMiss m := by
  unfold State.walkEnds
  exact if_pos hh

theorem State.rxRead_looking (hm : u.ring.rx = some m) (hp : m.phase = .looking ds false) (hv : v.getLsbD 31 = false) :
    u.rxRead v = u.walkEnds m := by
  unfold State.rxRead
  rw [hm]
  dsimp only
  rw [hp]
  exact if_neg (by rw [descOwned, bit, hv]; exact Bool.false_ne_true)


theorem State.rxRead_size (hm : u.ring.rx = some m) (hp : m.phase = .looking ds true) (hb : bufferSizeOk (descSize v) = true) :
    u.rxRead v = if m.len ≤ (ds.map (·.size)).sum + descSize v
      then u.setRx (some { m with
        hold := none, phase := .placing (ds ++ [⟨u.ring.rxAt ds.length, descSize v⟩]) 0 none 0 })
      else if u.ring.par.rxSize ≤ ds.length + 1 then u.walkEnds m
      else u.setRx (some { m with phase := .looking (ds ++ [⟨u.ring.rxAt ds.length, descSize v⟩]) false }) := by
  unfold State.rxRead
  rw [hm]
  dsimp only
  rw [hp]
  simp only [hb, if_true, List.map_append, List.sum_append, List.map_cons, List.map_nil, List.sum_singleton, List.length_append,
    List.length_singleton]

theorem State.rxRead_badSize (hm : u.ring.rx = some m) (hp : m.phase = .looking ds true)
    (hb : bufferSizeOk (descSize v) = false) :
    u.rxRead v = (u.ringCount (fun c => { c with badBuffer := inc32 c.badBuffer })).walkEnds m := by
  unfold State.rxRead
  rw [hm]
  dsimp only
  rw [hp]
  simp only [hb, Bool.false_eq_true, if_false]

theorem SwitchCore.bytesOf_find {w : SwitchCore} {id : Nat} {f : Stored} (h : w.find id = some f) :
    w.bytesOf id = f.header ++ f.payload := by
  unfold SwitchCore.bytesOf
  rw [h]

/-- R100: the engine takes the head of queue 0. -/
theorem State.rxStart_eq {id : Nat} {rest : List Nat} {f : Stored} (hq : u.sw.queue0.frames = id :: rest)
    (hf : u.sw.find id = some f) :
    u.rxStart = { u with
      sw := u.sw.addRef id
      ring := { u.ring with
        rx := some { id := id, len := (f.header ++ f.payload).length - 8, src := hdrSource f.header, cls := hdrClass f.header
                     phase := .looking [] false, hold := none, rewalk := false } } } := by
  unfold State.rxStart EgressQueue.head
  rw [hq]
  dsimp only [List.head?]
  rw [SwitchCore.bytesOf_find hf, hf]
  rfl

theorem State.rxMayStart_iff : s.rxMayStart = true ↔
    s.ring.state = .running ∧ s.ring.rx = none ∧ s.sw.queue0.frames ≠ [] := by
  unfold State.rxMayStart
  simp [and_assoc]

theorem walkLast_looking {op : DmaOp} (hm : s.ring.rx = some m) (hp : m.phase = .looking ds false)
    (hv : (s.answer ⟨.ring, .rx, op⟩).getLsbD 31 = false) : walkLast s ⟨.ring, .rx, op⟩ = true := by
  unfold walkLast
  rw [rxPhaseOf_rx hm, hp]
  exact congrArg not hv

theorem walkLast_size {op : DmaOp} (hm : s.ring.rx = some m) (hp : m.phase = .looking ds true)
    (h : bufferSizeOk (descSize (s.answer ⟨.ring, .rx, op⟩)) = false ∨
      m.len ≤ (ds.map (·.size)).sum + descSize (s.answer ⟨.ring, .rx, op⟩) ∨ s.ring.par.rxSize ≤ ds.length + 1) :
    walkLast s ⟨.ring, .rx, op⟩ = true := by
  unfold walkLast
  rw [rxPhaseOf_rx hm, hp]
  simp only [Bool.or_eq_true, decide_eq_true_eq, Bool.not_eq_true']
  exact or_assoc.mpr h

/-- Settles O49: each word that a walk reads is judged by `State.rxRead`, and a walk without room ends as `State.walkEnds`
says. -/
theorem receiveWalks : Obligations.ReceiveWalks := by
  unfold Obligations.ReceiveWalks
  refine ⟨fun id rest f s hq hr hm hf hfind => ?_, fun s hq h => ?_, fun m ds a s hq hh hm => ?_⟩
  · intro m
    refine work_apart hq (by split <;> simp) ?_
    rw [if_pos (State.rxMayStart_iff.mpr ⟨hr, hm, by rw [hf]; exact List.cons_ne_nil _ _⟩), State.rxStart_eq hf hfind]
    rfl
  · refine work_apart hq (by split <;> simp) ?_
    rw [if_neg fun hs => ?_]
    obtain ⟨h1, h2, h3⟩ := State.rxMayStart_iff.mp hs
    rw [h2] at h
    exact h.elim (· h1) (fun h => h.elim (fun h => nomatch h) (fun h => h3 h))
  · intro v holding
    have row (hp : walkLast s ⟨.ring, .rx, .read a⟩ = true) {x : State} (hx : (s.release.rxRead v).apart = x) :
        ∃ t, exec .rxWalkEnd s = .next t ∧ t.apart = x :=
      awaited_apart hq hh hp ((congrArg State.apart (State.complete_rx_read hh)).trans hx)
    refine ⟨fun hp hv hz => row (walkLast_looking hm hp hv) ?_, fun f hp hv hz hf hr hc => row (walkLast_looking hm hp hv) ?_,
      fun hp hb hl hs hz => row (walkLast_size hm hp (.inr (.inr hs))) ?_,
      fun hp hb hl => row (walkLast_size hm hp (.inr (.inl hl))) ?_, fun hp hb hz => row (walkLast_size hm hp (.inl hb)) ?_⟩
    · rw [State.rxRead_looking (u := s.release) hm hp hv, State.walkEnds_holds (u := s.release) hz]
      rfl
    · rw [State.rxRead_looking (u := s.release) hm hp hv, State.walkEnds_misses (u := s.release) hz,
        State.rxMiss_head (u := s.release) hc hf hr]
      rfl
    · rw [State.rxRead_size (u := s.release) hm hp hb, if_neg (Nat.not_le.mpr hl),
        if_pos (show s.release.ring.par.rxSize ≤ ds.length + 1 from hs), State.walkEnds_holds (u := s.release) hz]
      rfl
    · rw [State.rxRead_size (u := s.release) hm hp hb, if_pos hl]
      rfl
    · rw [State.rxRead_badSize (u := s.release) hm hp hb, State.walkEnds_holds (u := s.release.ringCount _) hz]
      rfl

/-! ## The words written (R103 to R105) -/

/-- R104: the frame has been delivered, the head of queue 0. -/
theorem State.rxDelivered_head {n : Nat} {f : Stored} (hq : u.sw.queue0.frames.contains m.id = true)
    (hf : u.sw.find m.id = some f) (hr : f.refs = 2) :
    (u.rxDelivered m n).apart = (State.withCauses { u.apart with
      sw := u.sw.headGone m.id f.blocks (fun c => { c with framesOut := min (c.framesOut + 1) 4294967295 })
      ring := { u.apart.ring with
        rx := none, tx := u.ring.tx.map TxMove.roomSeen, rxIdx := (u.ring.rxIdx + n) % u.ring.par.rxSize
        counters := { u.ring.counters with placed := min (u.ring.counters.placed + 1) 4294967295 } } } 0x008).apart := by
  have hl := State.leaveQueue0_head (u := u) (c := PortCounters.countOut) hq hf hr
  unfold State.rxDelivered
  generalize u.leaveQueue0 m.id _ = w at hl ⊢
  change (State.withCauses { w.apart with
    ring := { w.apart.ring with
      rx := none, rxIdx := (w.apart.ring.rxIdx + n) % w.apart.ring.par.rxSize
      counters := { w.apart.ring.counters with placed := min (w.apart.ring.counters.placed + 1) 4294967295 } } }
    0x008).apart = _
  rw [hl]
  rfl

/-- Settles O50: the last word of each part of the movement, and the hold timer (`State.rxHoldEnds_misses`). -/
theorem receiveEnds : Obligations.ReceiveEnds := by
  unfold Obligations.ReceiveEnds
  refine ⟨fun m ds d w n x a v f s hq hh hm => ?_, fun m a s hq hh hm hp hv => ?_, fun m x f s hq hm hp hhold => ?_⟩
  · have row {p : State → Held → Bool} (hp : p s ⟨.ring, .rx, .write a v⟩ = true) {x : State}
        (hx : (({ s.release with mem := Memory.writeWord s.mem a v allBytes } : State).rxWritten).apart = x) :
        ∃ t, (Host.Outcome.next (s.awaitPort p) : Out) = .next t ∧ t.apart = x :=
      awaited_apart hq hh hp ((congrArg State.apart (State.complete_rx_write hh)).trans hx)
    have hm' : ({ s.release with mem := Memory.writeWord s.mem a v allBytes } : State).ring.rx = some m := hm
    refine ⟨fun hp hw hd => row (p := placeLast) ?_ ?_, fun hp hn hf hr hc => row (p := rxReturnLast) ?_ ?_,
      fun hp => row (p := markLast) ?_ ?_⟩
    · unfold placeLast
      rw [rxPhaseOf_rx hm, hp]
      simp only [Bool.and_eq_true, decide_eq_true_eq]
      exact ⟨hw, hd⟩
    · unfold State.rxWritten
      rw [hm']
      dsimp only
      rw [hp]
      dsimp only
      rw [if_neg (Nat.not_lt.mpr hw), if_neg (Nat.not_lt.mpr hd)]
      rfl
    · unfold rxReturnLast
      rw [rxPhaseOf_rx hm, hp]
      exact decide_eq_true hn
    · unfold State.rxWritten
      rw [hm']
      dsimp only
      rw [hp]
      dsimp only
      rw [if_neg (Nat.not_lt.mpr hn), State.rxDelivered_head (by exact hc) (by exact hf) hr]
      rfl
    · unfold markLast
      rw [rxPhaseOf_rx hm, hp]
      rfl
    · unfold State.rxWritten
      rw [hm']
      dsimp only
      rw [hp]
      rfl
  · refine awaited_apart hq hh ?_ ((congrArg State.apart (State.complete_rx_read hh)).trans ?_)
    · unfold markLast
      rw [rxPhaseOf_rx hm, hp]
      exact congrArg not hv
    · have hm' : s.release.ring.rx = some m := hm
      unfold State.rxRead
      rw [hm']
      dsimp only
      rw [hp]
      dsimp only
      rw [if_neg (by rw [descOwned, bit, hv]; exact Bool.false_ne_true)]
      rfl
  · intro u hf hr hc
    have hmu : u.ring.rx = some m := (congrArg (fun k => k.2.2.1.rx) (State.advanceTo_keel s x)).trans hm
    refine work_apart hq (State.onHold_outside s) ?_
    unfold State.onHold
    rw [hm]
    dsimp only
    rw [hhold]
    dsimp only
    rw [State.rxHoldEnds_misses hmu hp hc hf hr, State.rxMiss_head hc hf hr]
    rfl

end Sys2Proof.Machine
end

section
/-! SUPPORT. The transmit movement: chains judged and offered (O51, O52), loaded and handed back (O53). -/

namespace Sys2Proof.Machine

open Sys2Proof

variable {s t u x : State} {m : TxMove} {a : Addr} {v o : Word} {b d : Nat} {j : Slot} {c : Cls}

/-! ## The switch core's answer for one slot (R80 to R83) -/

@[simp] theorem slotOf_portOf (i : Slot) : slotOf (portOf i).val = some i := by
  unfold slotOf portOf
  rw [dif_pos ⟨by simp, by simp⟩]
  simp

theorem State.decodeDest_slot {src : Nat} (hs : src ≠ j.val + 1) : s.decodeDest src (j.val + 1) = .ports [portOf j] := by
  unfold State.decodeDest
  rw [dif_pos (by omega), if_neg (Ne.symm hs)]
  rfl

/-- R80, R82: the loss at the port of a slot. -/
theorem State.gateLoss_slot (s : State) (c : Cls) (j : Slot) : s.gateLoss c (portOf j) =
    if (s.slot j).serving = false then some .notServing
    else if c = .timed ∧ (s.slot j).cfg.gate < s.sw.quality then some .timeGated else none := by
  unfold State.gateLoss
  rw [slotOf_portOf]
  simp [Bool.not_eq_true']

/-- R84: the room in the queue of a slot. -/
theorem State.hasRoom_slot (s : State) (c : Cls) (b : Nat) (j : Slot) : s.hasRoom c b (portOf j) =
    decide (s.sw.occupancy (s.sw.queue j c) + b ≤
      if c = .timed then (s.slot j).cfg.timedLimit else (s.slot j).cfg.bulkLimit) := by
  unfold State.hasRoom State.portQueue
  rw [slotOf_portOf]
  cases c <;> rfl

/-- R79 to R83 for a frame to one slot. -/
theorem State.verdict_slot {src : Nat} (hs : src ≠ j.val + 1) : s.verdict src (j.val + 1) c b =
    match s.gateLoss c (portOf j) with
    | some l => .placed [] [(portOf j, l)]
    | none => if s.sw.free < b then .poolEmpty []
      else if s.hasRoom c b (portOf j) then .placed [portOf j] [] else .placed [] [(portOf j, .queueFull)] := by
  unfold State.verdict
  rw [State.decodeDest_slot hs]
  dsimp only
  cases hg : s.gateLoss c (portOf j) with
  | some l => simp [hg]
  | none =>
    by_cases hf : s.sw.free < b
    · simp [hg, hf]
    · cases hr : s.hasRoom c b (portOf j) <;> simp [hg, hf, hr]

theorem State.verdict_closed {src : Nat} (hs : src ≠ j.val + 1) (h : (s.slot j).serving = false) :
    s.verdict src (j.val + 1) c b = .placed [] [(portOf j, .notServing)] := by
  rw [State.verdict_slot hs, State.gateLoss_slot, if_pos h]

theorem State.gateLoss_open (h : (s.slot j).serving = true) (hg : c = .timed → s.sw.quality ≤ (s.slot j).cfg.gate) :
    s.gateLoss c (portOf j) = none := by
  rw [State.gateLoss_slot, if_neg (by rw [h]; exact Bool.noConfusion), if_neg fun hc => absurd (hg hc.1) (Nat.not_le.mpr hc.2)]

/-! ## Words read and written -/

theorem State.complete_tx_read (hh : s.path.holder = some (.word ⟨.ring, .tx, .read a⟩)) :
    s.complete = s.release.txRead (Memory.readWord s.mem a) := State.complete_word hh

theorem State.complete_tx_write (hh : s.path.holder = some (.word ⟨.ring, .tx, .write a v⟩)) :
    s.complete = ({ s.release with mem := Memory.writeWord s.mem a v allBytes } : State).txWritten := State.complete_word hh

theorem txPhaseOf_tx {op : DmaOp} (hm : s.ring.tx = some m) : txPhaseOf s ⟨.ring, .tx, op⟩ = some (m, m.phase) := by
  unfold txPhaseOf
  rw [hm]
  rfl

theorem chainLast_size {op : DmaOp} (hm : s.ring.tx = some m) (hp : m.phase = .fetching (.size o b))
    (h : descEnd o = true ∨ s.ring.par.txSize ≤ m.descs.length + 1) : chainLast s ⟨.ring, .tx, op⟩ = true := by
  unfold chainLast
  rw [txPhaseOf_tx hm, hp]
  simpa using h

theorem State.txRead_size (hm : u.ring.tx = some m) (hp : m.phase = .fetching (.size o b)) :
    u.txRead v = u.txFetched m { owner := o, addr := b, size := descSize v } := by
  unfold State.txRead
  rw [hm]
  dsimp only
  rw [hp]

/-- The row of a chain's last word. -/
theorem exec_txChainJudge_apart (hq : s.busQuiet) (hh : s.path.holder = some (.word ⟨.ring, .tx, .read a⟩))
    (hm : s.ring.tx = some m) (hp : m.phase = .fetching (.size o b))
    (h : descEnd o = true ∨ s.ring.par.txSize ≤ m.descs.length + 1)
    (hv : Memory.readWord s.mem a = v) (hx : (s.release.txFetched m ⟨o, b, descSize v⟩).apart = x) :
    ∃ t, exec .txChainJudge s = .next t ∧ t.apart = x := by
  refine awaited_apart hq hh (chainLast_size hm hp h) ?_
  rw [State.complete_tx_read hh, hv, State.txRead_size (u := s.release) hm hp, hx]

theorem State.txFetched_end {y : TxDesc} (h : descEnd y.owner = true) :
    u.txFetched m y = u.txJudge { m with descs := m.descs ++ [y] } := by
  unfold State.txFetched
  exact if_pos h

theorem State.txFetched_full {y : TxDesc} (h : descEnd y.owner = false) (hs : u.ring.par.txSize ≤ (m.descs ++ [y]).length) :
    u.txFetched m y = u.txReturn { m with descs := m.descs ++ [y] } .overlength := by
  unfold State.txFetched
  dsimp only
  rw [h, if_neg Bool.false_ne_true]
  exact if_pos hs

theorem State.txJudge_malformed (h : m.wellFormed = false) :
    u.txJudge m = (u.ringCount (fun c => { c with malformed := inc32 c.malformed })).txReturn m .undeliverable := by
  unfold State.txJudge
  rw [h]
  rfl

theorem State.txJudge_long (h : m.wellFormed = true) (hl : 2040 < m.length) : u.txJudge m = u.txReturn m .overlength := by
  unfold State.txJudge
  rw [h]
  exact if_pos hl

theorem State.txJudge_offers (h : m.wellFormed = true) (hl : m.length ≤ 2040) : u.txJudge m = u.txOffer m := by
  unfold State.txJudge
  rw [h]
  exact if_neg (Nat.not_lt.mpr hl)

theorem State.txOffer_head {y : TxDesc} (h : m.descs.head? = some y) :
    u.txOffer m = (u.offer (descDestination y.owner) (descClass y.owner) m.length).1.txAnswer m
      (u.offer (descDestination y.owner) (descClass y.owner) m.length).2 := by
  unfold State.txOffer
  rw [h]

/-- R80: the controller's own port is a bad destination. -/
theorem State.offer_self (s : State) (c : Cls) (n : Nat) : s.offer 0 c n =
    ((s.bump 0 PortCounters.countIn).bump 0 (fun k => { k with badDestination := inc32 k.badDestination }), .badDestination) := rfl

theorem examLast_exam {op : DmaOp} {again : Bool} (hm : s.ring.tx = none) (he : s.ring.exam = some again) :
    examLast s ⟨.ring, .tx, op⟩ = true := by
  unfold examLast
  rw [hm, he]
  rfl

/-- Settles O51: the owner word examined (`State.txExamined`), and the checks of R108 in their order. -/
theorem transmitChainJudged : Obligations.TransmitChainJudged := by
  unfold Obligations.TransmitChainJudged
  intro a s hq hh v
  refine ⟨fun again hm he => ?_, fun m o b hm hp => ?_⟩
  · refine awaited_apart hq hh (examLast_exam hm he) ((congrArg State.apart (State.complete_tx_read hh)).trans ?_)
    have hm' : s.release.ring.tx = none := hm
    have he' : s.release.ring.exam = some again := he
    unfold State.txRead State.txExamined
    rw [hm', he']
    dsimp only
    change (if v.getLsbD 31 = true then _ else _ : State).apart = _
    cases v.getLsbD 31
    · change ({ s with ring := { s.ring with exam := if again = true then some false else none } } : State).apart = _
      refine congrArg (fun r : RingEngine => ({ s with ring := r } : State).apart) ?_
      simp [hm]
    · rfl
  · have hv : Memory.readWord s.mem a = v := rfl
    clear_value v
    intro m1
    have hlen : m1.descs.length = m.descs.length + 1 := List.length_append
    have hend (ho : descEnd o = true) : s.release.txFetched m ⟨o, b, descSize v⟩ = s.release.txJudge m1 := State.txFetched_end ho
    have hfull (ho : descEnd o = false) (hs : s.ring.par.txSize ≤ m1.descs.length) :
        s.release.txFetched m ⟨o, b, descSize v⟩ = s.release.txReturn m1 .overlength := State.txFetched_full ho hs
    clear_value m1
    intro ends
    refine ⟨fun ho hw => ?_, fun ho hw hl => ?_, fun ho hs => ?_, fun y ho hw hl hy hd => ?_⟩
    · refine exec_txChainJudge_apart hq hh hm hp (.inl ho) hv ?_
      rw [hend ho, State.txJudge_malformed hw]
      rfl
    · refine exec_txChainJudge_apart hq hh hm hp (.inl ho) hv ?_
      rw [hend ho, State.txJudge_long hw hl]
      rfl
    · refine exec_txChainJudge_apart hq hh hm hp (.inr (by omega)) hv ?_
      rw [hfull ho hs]
      rfl
    · refine exec_txChainJudge_apart hq hh hm hp (.inl ho) hv ?_
      rw [hend ho, State.txJudge_offers hw hl, State.txOffer_head hy, hd, State.offer_self]
      unfold State.bump SwitchCore.bump
      dsimp only
      rw [vset_vset, vget_vset_self]
      rfl


/-! ## The offer of a frame for one slot (R86 to R88) -/

theorem unicastSlot_slot (j : Slot) : unicastSlot (j.val + 1) = true := by
  unfold unicastSlot
  simp

/-- R86: the slot does not serve. -/
theorem State.offer_closed (h : (s.slot j).serving = false) (c : Cls) (n : Nat) :
    s.offer (j.val + 1) c n = ((s.bump 0 PortCounters.countIn).bump (portOf j) (·.lose .notServing), .undeliverable) := by
  unfold State.offer
  dsimp only
  rw [State.verdict_closed (by omega) h, unicastSlot_slot]
  rfl

/-- R86: for want of room the frame is held. -/
theorem State.offer_full {n : Nat} (h : s.gateLoss c (portOf j) = none)
    (hr : s.sw.free < blocksFor n ∨ s.hasRoom c (blocksFor n) (portOf j) = false) :
    s.offer (j.val + 1) c n = (s, .held) := by
  unfold State.offer
  dsimp only
  rw [State.verdict_slot (by omega), h]
  by_cases hf : s.sw.free < blocksFor n
  · simp only [if_pos hf, unicastSlot_slot, if_true]
  · simp [hf, hr.resolve_left hf, unicastSlot_slot]

/-- R87: the frame is accepted. -/
theorem State.offer_accepted {n : Nat} (h : s.gateLoss c (portOf j) = none) (hf : blocksFor n ≤ s.sw.free)
    (hr : s.hasRoom c (blocksFor n) (portOf j) = true) :
    s.offer (j.val + 1) c n = ((s.bump 0 PortCounters.countIn).placeLoading c (headerBytes .data (j.val + 1) 0 c n) (blocksFor n)
      [portOf j], .accepted s.sw.nextId false) := by
  unfold State.offer
  dsimp only
  rw [State.verdict_slot (by omega), h]
  simp only [if_neg (Nat.not_lt.mpr hf), hr, if_true, List.isEmpty_cons, Bool.false_eq_true, if_false]
  rfl

theorem SwitchCore.onPort_slot (w : SwitchCore) (c : Cls) (f : EgressQueue → EgressQueue) (j : Slot) :
    w.onPort c f (portOf j) = w.setQueue j c (f (w.queue j c)) := by
  unfold SwitchCore.onPort
  rw [slotOf_portOf]

theorem State.txReoffer_held (hm : s.ring.tx = some m) (hp : m.phase = .held true) : s.txReoffer = s.txOffer m := by
  unfold State.txReoffer
  rw [hm]
  dsimp only
  rw [hp]

theorem State.txAnswer_accepted {id : Nat} (h : (loadPoint m.descs 0 0).1 < m.descs.length) :
    u.txAnswer m (.accepted id false) =
      u.setTx (some { m with phase := .loading id .accepted (loadPoint m.descs 0 0).1 (loadPoint m.descs 0 0).2 [] }) := by
  unfold State.txAnswer
  dsimp only
  rw [if_neg (Nat.not_le.mpr h)]
  rfl

/-- Settles O52: a frame for one slot is answered as its gate, the pool and its queue stand (`State.verdict_slot`). -/
theorem transmitFrameOffered : Obligations.TransmitFrameOffered := by
  unfold Obligations.TransmitFrameOffered
  intro j y s hq hd c limit p0 counted pj lost reserved
  have hroom (n : Nat) : s.hasRoom c n (portOf j) = decide (s.sw.occupancy (s.sw.queue j c) + n ≤ limit) := s.hasRoom_slot c n j
  refine ⟨fun a m o b hh hm hp ho => ?_, fun m hm hp hy => ⟨fun hserv => ?_, fun hserv hgate hfull => ?_⟩⟩
  · generalize hv : Memory.readWord s.mem a = v
    intro m1
    have hend : s.release.txFetched m ⟨o, b, descSize v⟩ = s.release.txJudge m1 := State.txFetched_end ho
    clear_value m1
    intro need hw hl hy hserv hgate hfree hfits hload
    refine exec_txChainJudge_apart hq hh hm hp (.inl ho) hv ?_
    have hr : s.release.hasRoom c need (portOf j) = true := (hroom need).trans (decide_eq_true hfits)
    rw [hend, State.txJudge_offers hw hl, State.txOffer_head hy, hd,
      State.offer_accepted (s := s.release) (State.gateLoss_open (s := s.release) hserv hgate) hfree hr,
      State.txAnswer_accepted hload]
    unfold State.placeLoading
    simp only [List.foldl_cons, List.foldl_nil, SwitchCore.onPort_slot]
    rfl
  · refine work_apart hq (by simp) ?_
    rw [State.txReoffer_held hm hp, State.txOffer_head hy, hd, State.offer_closed hserv]
    have hne : (0 : Fin 13) ≠ portOf j := by
      intro h
      exact absurd (congrArg Fin.val h) (Nat.succ_ne_zero _).symm
    have hpj : vget (vset s.sw.counters 0 counted) (portOf j) = pj := vget_vset_ne _ _ hne
    change ({ s with
      ring := { s.ring with tx := some { m with phase := .returning .undeliverable 0 } }
      sw := { s.sw with
        counters := vset (vset s.sw.counters 0 counted) (portOf j) ((vget (vset s.sw.counters 0 counted) (portOf j)).lose .notServing)
        } } : State).apart = _
    rw [hpj]
    rfl
  · refine work_apart hq (by simp) ?_
    have hr : s.sw.free < blocksFor m.length ∨ s.hasRoom c (blocksFor m.length) (portOf j) = false :=
      hfull.imp_right fun h => (hroom _).trans (decide_eq_false (Nat.not_le.mpr h))
    rw [State.txReoffer_held hm hp, State.txOffer_head hy, hd, State.offer_full (State.gateLoss_open hserv hgate) hr]
    rfl


/-! ## A load that is complete, and the hand-back (R87, R109) -/

theorem SwitchCore.dropRef_claim {w : SwitchCore} {id : Nat} {f : Stored} (h : w.find id = some f) (hr : f.refs = 2) :
    w.dropRef id = w.modify id (fun y => { y with refs := y.refs - 1 }) := by
  unfold SwitchCore.dropRef
  rw [h]
  exact if_neg (by omega)

theorem SwitchCore.modify_modify (w : SwitchCore) (id : Nat) (f g : Stored → Stored) (hf : ∀ x, (f x).id = x.id) :
    (w.modify id f).modify id g = w.modify id (fun x => g (f x)) := by
  unfold SwitchCore.modify
  refine congrArg (fun l => { w with stored := l }) ?_
  rw [List.map_map]
  refine List.map_congr_left fun x _ => ?_
  by_cases hx : x.id = id
  · simp [hx, hf]
  · simp [hx]

theorem State.dropClaim_claim {id : Nat} {f : Stored} (h : s.sw.find id = some f) (hr : f.refs = 2) :
    s.dropClaim id = s.setSw (s.sw.modify id (fun y => { y with refs := y.refs - 1 })) := by
  unfold State.dropClaim
  rw [SwitchCore.dropRef_claim h hr]
  exact if_neg (Nat.lt_irrefl s.sw.free)

theorem State.kickPorts_slot (s : State) (j : Slot) : s.kickPorts [portOf j] = s.kickSlot j := by
  unfold State.kickPorts
  rw [List.foldl_cons, slotOf_portOf]
  rfl

/-- R87: the load of a frame reserved in one queue is complete, no lane of the slot being free to start it. -/
theorem State.loadComplete_one {id : Nat} {bs : List Byte} {f : Stored} (hat : s.reservedAt id = [(portOf j, c)])
    (hf : s.sw.find id = some f) (hr : f.refs = 2) (hl : ∀ p, (s.lane j p).state ≠ .up ∨ (s.lane j p).tx ≠ .none) :
    (s.loadComplete id bs).apart = ({ s with
      sw := { (s.sw.setQueue j c { frames := (s.sw.queue j c).frames ++ [id]
                                   reserved := (s.sw.queue j c).reserved.filter (· ≠ id) }) with
        stored := s.sw.stored.map (fun y => if y.id = id then
          { y with payload := bs, loading := false, refs := y.refs - 1 } else y) } } : State).apart := by
  have hfind : (s.sw.modify id (fun f => { f with payload := bs, loading := false })).find id =
      some { f with payload := bs, loading := false } := Stored.find_map (fun _ => rfl) hf
  have hmod := s.sw.modify_modify id (fun f => { f with payload := bs, loading := false })
    (fun y => { y with refs := y.refs - 1 }) fun _ => rfl
  have hstill (w : State) (hw : w.lanes = s.lanes) : w.kickSlot j = w := State.kickSlot_still fun p hup htx => by
    unfold State.lane at hup htx
    rw [hw] at hup htx
    exact ((hl p).elim (fun h => h hup) (fun h => h htx)).elim
  unfold State.loadComplete
  rw [hat]
  simp only [List.foldl_cons, List.foldl_nil, SwitchCore.onPort_slot, List.map_cons, List.map_nil]
  rw [State.dropClaim_claim (f := { f with payload := bs, loading := false }) (by exact hfind) hr, State.kickPorts_slot]
  rw [hstill]
  · refine Eq.trans ?_ (congrArg (fun w : SwitchCore => ({ s with
      sw := { w with
        queues := (s.sw.setQueue j c ((((s.sw.queue j c).unreserve id).append id))).queues } } : State).apart) hmod)
    rfl
  · rfl


theorem State.txRead_loading {id w : Nat} {out : TxOutcome} {bs : List Byte} (hm : u.ring.tx = some m)
    (hp : m.phase = .loading id out d w bs) (h : m.descs.length ≤ (loadPoint m.descs d (w + 1)).1) :
    u.txRead v = u.txLoaded m id out
      (bs ++ bytesOfWord v ((match m.descs[d]? with | some x => x.size | none => 0) - 4 * w)) := by
  unfold State.txRead
  rw [hm]
  dsimp only
  rw [hp]
  exact if_pos h

theorem State.txWritten_last {out : TxOutcome} {n : Nat} (hm : u.ring.tx = some m) (hp : m.phase = .returning out n)
    (h : m.descs.length ≤ n + 1) : u.txWritten = u.txReturned m out := by
  unfold State.txWritten
  rw [hm]
  dsimp only
  rw [hp]
  exact if_neg (Nat.not_lt.mpr h)

theorem State.txReturned_apart (u : State) (m : TxMove) (out : TxOutcome) :
    (u.txReturned m out).apart = (State.withCauses { u with
      ring := { u.ring with
        tx := none, txIdx := (u.ring.txIdx + m.descs.length) % u.ring.par.txSize
        exam := if u.ring.state = .running then some false else u.ring.exam
        counters := u.ring.counters.outcome out } } 0x010).apart := by
  unfold State.txReturned State.examine
  change (if u.ring.state = .running then _ else _ : State).apart = _
  by_cases h : u.ring.state = .running
  · rw [if_pos h, if_pos h]
    rfl
  · rw [if_neg h, if_neg h]
    rfl

/-! ## The end of a halt (R99) -/

theorem State.ringHaltDone_iff : s.ringHaltDone = true ↔ s.ring.state = .halting ∧ s.ring.rx = none ∧ s.ring.tx = none := by
  unfold State.ringHaltDone
  simp [and_assoc]

theorem State.finishIf_other {k : Command} (h : ∀ o : OpenCmd, s.cmd.collection = .executing o → o.cmd ≠ k) : s.finishIf k = s := by
  unfold State.finishIf
  split
  · exact if_neg (h _ ‹_›)
  · rfl

theorem State.finishIf_executing {k : Command} {o : OpenCmd} (ho : s.cmd.collection = .executing o) :
    (s.finishIf k).apart = ({ s with
      cmd := if o.cmd = k
        then { s.cmd with collection := .idle, transfer := none
                          record := s.cmd.record.finished k .done 0 false }
        else s.cmd } : State).apart := by
  unfold State.finishIf
  rw [ho]
  dsimp only
  split
  · rfl
  · rfl

theorem State.flushQueue0_nil (h : s.sw.queue0 = EgressQueue.nil) : s.flushQueue0 = s := by
  unfold State.flushQueue0
  rw [h]
  rfl

theorem SwitchCore.dropRefs_queue0 (w : SwitchCore) (ids : List Nat) :
    (w.dropRefs ids).queue0 = w.queue0 ∧ (w.dropRefs ids).counters = w.counters := by
  have hone (w : SwitchCore) (id : Nat) : (w.dropRef id).queue0 = w.queue0 ∧ (w.dropRef id).counters = w.counters := by
    unfold SwitchCore.dropRef
    (repeat' split) <;> exact ⟨rfl, rfl⟩
  unfold SwitchCore.dropRefs
  induction ids generalizing w with
  | nil => exact ⟨rfl, rfl⟩
  | cons id ids ih => exact ⟨(ih _).1.trans (hone w id).1, (ih _).2.trans (hone w id).2⟩

theorem State.flushQueue0_some (h : s.sw.queue0.frames ++ s.sw.queue0.reserved ≠ []) :
    s.flushQueue0 = (s.setSw ((({ s.sw with queue0 := EgressQueue.nil }).bump 0
      (·.countFlushed (s.sw.queue0.frames ++ s.sw.queue0.reserved).length)).dropRefs
        (s.sw.queue0.frames ++ s.sw.queue0.reserved))).roomReport := by
  unfold State.flushQueue0
  exact if_neg (by simpa using h)

/-- R90: the flush of queue 0 with one frame in it, its last reference. -/
theorem State.flushQueue0_one {f : Stored} (hids : s.sw.queue0.frames ++ s.sw.queue0.reserved = [f.id])
    (hf : s.sw.find f.id = some f) (hr : f.refs = 1) (hres : s.sw.queue0.reserved = []) (htx : s.ring.tx = none) :
    s.flushQueue0.apart = ({ s with
      sw := s.sw.headGone f.id f.blocks (fun c => { c with flushed := min (c.flushed + 1) 4294967295 }) } : State).apart := by
  have hframes : s.sw.queue0.frames = [f.id] := by rw [hres, List.append_nil] at hids; exact hids
  have hqueue : ({ s.sw.queue0 with frames := s.sw.queue0.frames.filter (· ≠ f.id) } : EgressQueue) = EgressQueue.nil := by
    change (⟨s.sw.queue0.frames.filter (· ≠ f.id), s.sw.queue0.reserved⟩ : EgressQueue) = _
    rw [hframes, hres]
    simp [EgressQueue.nil]
  have hlast := SwitchCore.dropRef_last (w := ({ s.sw with queue0 := EgressQueue.nil }).bump 0 (·.countFlushed 1)) hf (by omega)
  have hroom : s.ring.tx.map TxMove.roomSeen = s.ring.tx := by rw [htx]; rfl
  rw [State.flushQueue0_some (by rw [hids]; exact List.cons_ne_nil _ _), hids]
  unfold SwitchCore.headGone
  rw [hqueue]
  unfold SwitchCore.dropRefs
  rw [List.foldl_cons, List.foldl_nil, List.length_singleton, hlast]
  exact congrArg (fun x => ({ s with
    ring := { s.ring with tx := x }
    sw := SwitchCore.headGone { s.sw with queue0 := EgressQueue.nil } f.id f.blocks (·.countFlushed 1) } : State).apart) hroom

theorem State.flushQueue0_cmd (s : State) : s.flushQueue0.cmd.collection = s.cmd.collection := by
  unfold State.flushQueue0
  dsimp only
  split <;> rfl

/-- Settles O53: the last word of a load and of a hand-back, and the flush of queue 0 with which a halt ends. -/
theorem transmitEnds : Obligations.TransmitEnds := by
  unfold Obligations.TransmitEnds
  refine ⟨fun a m id d w out bs j c f s hq hh hm hp hload hat hf hr hl => ?_, fun a v m out n s hq hh hm hp hn => ?_,
    fun o s hq hrx htx hq0 ho => ⟨fun hs => ?_, fun hs => ?_⟩, fun s hq hs hrx htx hno => ?_⟩
  · intro size q
    refine awaited_apart hq hh ?_ ((congrArg State.apart (State.complete_tx_read hh)).trans ?_)
    · unfold loadLast
      rw [txPhaseOf_tx hm, hp]
      exact decide_eq_true hload
    · rw [State.txRead_loading (u := s.release) hm hp hload]
      have h := State.loadComplete_one (s := s.release)
        (bs := bs ++ bytesOfWord (Memory.readWord s.mem a) (size - 4 * w)) hat hf hr hl
      unfold State.txLoaded State.txReturn
      exact congrArg (fun x : State => (x.setTx (some { m with phase := .returning out 0 })).apart) h
  · refine awaited_apart hq hh ?_ ((congrArg State.apart (State.complete_tx_write hh)).trans ?_)
    · unfold txReturnLast
      rw [txPhaseOf_tx hm, hp]
      exact decide_eq_true hn
    · rw [State.txWritten_last (u := { s.release with mem := Memory.writeWord s.mem a v allBytes }) hm hp hn,
        State.txReturned_apart]
      rfl
  · refine work_apart hq (by split <;> simp) ?_
    rw [if_pos (State.ringHaltDone_iff.mpr ⟨hs, hrx, htx⟩)]
    unfold State.ringStopped
    rw [State.flushQueue0_nil hq0, State.finishIf_executing (s := s.setRing { s.ring with state := .stopped }) (o := o) ho]
    by_cases hk : o.cmd = .ringStop
    · rw [if_pos hk, if_pos hk]
      rfl
    · rw [if_neg hk, if_neg hk]
      rfl
  · refine work_apart hq (by split <;> simp) ?_
    rw [if_neg fun h => hs (State.ringHaltDone_iff.mp h).1]
  · intro ids
    have row {x : State} (hx : s.ringStopped.apart = x) : ∃ t, exec .ringHaltComplete s = .next t ∧ t.apart = x := by
      refine work_apart hq (by split <;> simp) ?_
      rw [if_pos (State.ringHaltDone_iff.mpr ⟨hs, hrx, htx⟩),
        State.finishIf_other (s := s.ringStopped) fun o ho => hno o (s.flushQueue0_cmd ▸ ho), hx]
    refine ⟨fun f hids hf hr hres => row ?_, fun hne => ?_⟩
    · unfold State.ringStopped
      exact congrArg (fun x : State => ({ x with ring := { x.ring with state := .stopped } } : State).apart)
        (State.flushQueue0_one hids hf hr hres htx)
    · obtain ⟨t, he, ha⟩ := row rfl
      obtain ⟨hq0, hc⟩ := SwitchCore.dropRefs_queue0 (({ s.sw with queue0 := EgressQueue.nil }).bump 0 (·.countFlushed ids.length)) ids
      have hsw : s.ringStopped.sw = (({ s.sw with queue0 := EgressQueue.nil }).bump 0 (·.countFlushed ids.length)).dropRefs ids := by
        unfold State.ringStopped
        rw [State.flushQueue0_some hne]
        rfl
      have ht : t.sw = s.ringStopped.sw := (congrArg State.sw ha :)
      have hr : t.ring.state = s.ringStopped.ring.state := (congrArg (fun x : State => x.ring.state) ha :)
      refine ⟨t, he, hr, ?_, ?_⟩
      · rw [ht, hsw, hq0]
        rfl
      · rw [ht, hsw, hc]
        rfl

end Sys2Proof.Machine
end

section
/-! SUPPORT. Oscillator time, one period after another (O55), and the rows of the counter (O54). -/

namespace Sys2Proof.Machine

open Sys2Proof

variable {s t u x : State}

/-! ## The command unit's place and the clock (R35) -/

/-- The command unit's place takes no notice of time or of the cycle engine. -/
theorem State.fillCommand_withClock (s : State) (n : Nat) (x : TimeBase) (c : CycleEngine) :
    ({ s with osc := n, time := x, cyc := c } : State).fillCommand = { s.fillCommand with osc := n, time := x, cyc := c } := by
  have hsup (y : Source) : ({ s with osc := n, time := x, cyc := c } : State).supply y = s.supply y := by cases y <;> rfl
  have hst : ({ s with osc := n, time := x, cyc := c } : State).placeStands = s.placeStands := funext fun w => by cases w <;> rfl
  unfold State.fillCommand
  simp only [hsup, hst]
  split
  · rfl
  · split <;> rfl

theorem State.fillCommand_glide (s : State) (k : Nat) : (s.fillCommand.glide k).fillCommand = s.fillCommand.glide k := by
  unfold State.glide
  dsimp only
  rw [State.fillCommand_withClock, State.fillCommand_fillCommand]

theorem CycleEngine.shift_boundary {c : CycleEngine} {a : Addr} {ws : List Word} {r : Int}
    (h : c.entry = some ⟨a, .run ws (.boundary r)⟩) (d : Int) :
    c.shift d = { c with entry := some ⟨a, .run ws (.boundary (r + d))⟩ } := by
  unfold CycleEngine.shift
  rw [h]

theorem CycleEngine.shift_other {c : CycleEngine} (h : ∀ a ws r, c.entry ≠ some ⟨a, .run ws (.boundary r)⟩) (d : Int) :
    c.shift d = c := by
  unfold CycleEngine.shift
  split
  · exact absurd ‹_› (h _ _ _)
  · rfl

theorem CycleEngine.shift_shift (c : CycleEngine) (a b : Int) : (c.shift a).shift b = c.shift (a + b) := by
  by_cases h : ∃ p ws r, c.entry = some ⟨p, .run ws (.boundary r)⟩
  · obtain ⟨p, ws, r, h⟩ := h
    rw [CycleEngine.shift_boundary h, CycleEngine.shift_boundary h, CycleEngine.shift_boundary rfl, Int.add_assoc]
  · have hn : ∀ p ws r, c.entry ≠ some ⟨p, .run ws (.boundary r)⟩ := fun p ws r hp => h ⟨p, ws, r, hp⟩
    rw [CycleEngine.shift_other hn, CycleEngine.shift_other hn, CycleEngine.shift_other hn]

/-- The distance that a boundary wait of a cycle engine has left. -/
def CycleEngine.left (c : CycleEngine) : Option Int :=
  match c.entry with
  | some ⟨_, .run _ (.boundary r)⟩ => some r
  | _ => none

theorem State.boundaryLeft_eq (s : State) : s.boundaryLeft = s.cyc.left := by
  unfold State.boundaryLeft CycleEngine.left
  rfl

theorem CycleEngine.left_shift (c : CycleEngine) (d : Int) : (c.shift d).left = c.left.map (· + d) := by
  unfold CycleEngine.shift
  split
  · rename_i h
    unfold CycleEngine.left
    rw [h]
    rfl
  · rename_i h
    have hn : c.left = none := by
      unfold CycleEngine.left
      split
      · exact absurd ‹_› (h _ _ _)
      · rfl
    rw [hn]
    rfl

/-- R114: `a` periods and then `b`, no event of cabinet time between them. -/
theorem State.glide_glide (h : s.time.counts) (a b : Nat) : (s.glide a).glide b = s.glide (a + b) := by
  obtain ⟨hgain, hres⟩ := s.time.gain_add (y := (s.glide a).time) h a b rfl rfl
  have hpos : 0 ≤ s.time.gain a := (TimeBase.gain_zero h).symm.le.trans (TimeBase.gain_mono h (Nat.zero_le a))
  have hns : (((s.glide a).time.ns : Int) + (s.glide a).time.gain b).toNat = ((s.time.ns : Int) + s.time.gain (a + b)).toNat := by
    have h1 : ((s.glide a).time.ns : Int) = s.time.ns + s.time.gain a := Int.toNat_of_nonneg (by omega)
    rw [h1, hgain, Int.add_assoc]
  have hshift : (s.cyc.shift (-s.time.gain a)).shift (-(s.glide a).time.gain b) = s.cyc.shift (-s.time.gain (a + b)) := by
    rw [CycleEngine.shift_shift, hgain, Int.neg_add]
  change ({ s with
    osc := s.osc + a + b
    time := { s.time with
      ns := (((s.glide a).time.ns : Int) + (s.glide a).time.gain b).toNat
      residue := (s.glide a).time.residueAfter b }
    cyc := (s.cyc.shift (-s.time.gain a)).shift (-(s.glide a).time.gain b) } : State) = _
  rw [hns, hshift, ← hres, Nat.add_assoc]
  rfl

/-- R114, R144: with no event of cabinet time within `k` periods, they pass and nothing else happens. -/
theorem State.stretch_quiet {k : Nat} (hns : (s.time.ns : Int) + s.time.gain k < Config.second)
    (hleft : ∀ d, s.boundaryLeft = some d → s.time.gain k < d) : s.stretch k = s.fillCommand.glide k := by
  have htime : s.fillCommand.time = s.time ∧ s.fillCommand.cyc = s.cyc := by
    unfold State.fillCommand
    (repeat' split) <;> exact ⟨rfl, rfl⟩
  obtain ⟨ht, hc⟩ := htime
  have hcarry : (s.fillCommand.glide k).carry = s.fillCommand.glide k := by
    unfold State.carry
    refine if_neg (Nat.not_le.mpr ?_)
    change ((s.fillCommand.time.ns : Int) + s.fillCommand.time.gain k).toNat < _
    rw [ht]
    have hpos : 0 < Config.second := by decide
    omega
  have helapsed : (s.fillCommand.glide k).boundaryElapsed = s.fillCommand.glide k := by
    unfold State.boundaryElapsed
    split
    · rename_i r hr
      have hshift : (s.fillCommand.glide k).boundaryLeft = s.boundaryLeft.map (· + -s.fillCommand.time.gain k) := by
        rw [State.boundaryLeft_eq, State.boundaryLeft_eq, ← hc]
        exact CycleEngine.left_shift _ _
      refine if_neg fun hle => ?_
      obtain ⟨d, hd, rfl⟩ := Option.map_eq_some_iff.mp (hshift.symm.trans hr)
      have hlt := hleft d hd
      rw [ht] at hle
      omega
    · rfl
  unfold State.stretch
  rw [hcarry, helapsed, State.fillCommand_glide]

/-- R114: `k + 1` periods, no event of cabinet time within the first `k`. -/
theorem State.stretch_succ {k : Nat} (hc : s.time.counts) (hns : (s.time.ns : Int) + s.time.gain k < Config.second)
    (hleft : ∀ d, s.boundaryLeft = some d → s.time.gain k < d) : s.stretch (k + 1) = (s.stretch k).tick := by
  have htime : s.fillCommand.time = s.time := by
    unfold State.fillCommand
    (repeat' split) <;> rfl
  rw [State.stretch_quiet hns hleft]
  unfold State.tick State.stretch
  rw [State.fillCommand_glide, State.glide_glide (by rw [htime]; exact hc)]

theorem State.lt_of_nextEvent {k : Nat} (hc : s.time.counts) (h1 : 1 ≤ k) (hk : k < s.nextEvent) :
    (s.time.ns : Int) + s.time.gain k < Config.second ∧ ∀ d, s.boundaryLeft = some d → s.time.gain k < d := by
  have hspec (d : Int) (hd : k < s.time.periodsToGain d) : s.time.gain k < d := (TimeBase.periodsToGain_spec hc d).2.2 k h1 hd
  refine ⟨?_, fun d hd => ?_⟩
  · have h := hspec _ (hk.trans_le s.nextEvent_le)
    omega
  · refine hspec d (hk.trans_le ?_)
    unfold State.nextEvent
    rw [hd]
    exact min_le_right _ _

/-- R114: a run of periods that ends at the next event is one period after another. -/
theorem State.stretch_eq_tick (hc : s.time.counts) : ∀ {k : Nat}, 1 ≤ k → k ≤ max 1 s.nextEvent → s.stretch k = State.tick^[k] s
  | 1, _, _ => rfl
  | k + 2, _, hk => by
    have hlt : k + 1 < s.nextEvent := by omega
    obtain ⟨hns, hleft⟩ := State.lt_of_nextEvent hc (by omega) hlt
    rw [State.stretch_succ hc hns hleft, State.stretch_eq_tick hc (by omega) (by omega)]
    exact (Function.iterate_succ_apply' State.tick (k + 1) s).symm

theorem State.stretch_inRange {k : Nat} (h : s.time.inRange) (hk : k ≤ max 1 s.nextEvent) : (s.stretch k).time.inRange :=
  chain_keeps (P := fun u => u.time.inRange) (fun h hu => Bare.time_inRange h hu)
    (Changes.bares (State.stretch_changes (G := True) hk)) h

theorem State.runOsc_eq_tick (fuel : Nat) (s : State) (n : Nat) (h : s.time.inRange) (hn : n ≤ fuel) :
    s.runOsc fuel n = State.tick^[n] s := by
  induction fuel generalizing s n with
  | zero =>
    obtain rfl : n = 0 := by omega
    rfl
  | succ fuel ih =>
    unfold State.runOsc
    by_cases h0 : n = 0
    · rw [if_pos h0, h0]
      rfl
    · rw [if_neg h0]
      dsimp only
      have hk : min n (max 1 s.nextEvent) ≤ max 1 s.nextEvent := min_le_right _ _
      have hle : min n (max 1 s.nextEvent) ≤ n := min_le_left _ _
      have h1 : 1 ≤ min n (max 1 s.nextEvent) := by omega
      rw [ih _ _ (State.stretch_inRange h hk) (by omega), State.stretch_eq_tick h.counts h1 hk, ← Function.iterate_add_apply,
        Nat.sub_add_cancel hle]

/-- Settles O55: periods pass in runs that end at the events of cabinet time, and within a run one after another
(`State.stretch_eq_tick`). -/
theorem periodsOneByOne : Obligations.PeriodsOneByOne := by
  unfold Obligations.PeriodsOneByOne
  intro n s h
  exact congrArg settled (State.runOsc_eq_tick n s n h le_rfl)

end Sys2Proof.Machine
end

section
/-! SUPPORT. The rows of the counter: one period, the rollover, the end of the pulse (O54). -/

namespace Sys2Proof.Machine

open Sys2Proof

variable {s t u : State} {x : TimeBase} {n k : Nat}

/-! ## One period's gain (R114) -/

/-- R114: one more period adds at most 11 ns. -/
theorem TimeBase.gain_succ_le (h : x.counts) (n : Nat) : x.gain (n + 1) ≤ x.gain n + 11 := by
  have h0 := x.gain_add_residueAfter n
  have h1 := x.gain_add_residueAfter (n + 1)
  have r0 := x.residueAfter_natAbs n
  have r1 := x.residueAfter_natAbs (n + 1)
  have hs := h.slope
  obtain ⟨s0, s0'⟩ := x.residueAfter_sign n
  obtain ⟨s1, s1'⟩ := x.residueAfter_sign (n + 1)
  have hm : x.slope * ((n + 1 : Nat) : Int) = x.slope * (n : Int) + x.slope := by
    push_cast
    ring
  simp only [Int.add_mul, hm] at h0 h1 s0 s0' s1 s1'
  omega

/-- R114: the period that takes cabinet time `d` ns on takes it at most 10 ns further. -/
theorem TimeBase.gain_periodsToGain_le_ten (h : x.counts) {d : Int} (hd : 0 < d) : x.gain (x.periodsToGain d) ≤ d + 10 := by
  obtain ⟨-, h1, hlt⟩ := x.periodsToGain_spec h d
  obtain ⟨m, hm⟩ : ∃ m, x.periodsToGain d = m + 1 := ⟨_, (Nat.sub_add_cancel h1).symm⟩
  have hsucc := x.gain_succ_le h m
  rw [hm] at hlt ⊢
  rcases Nat.eq_zero_or_pos m with rfl | hpos
  · have h0 := TimeBase.gain_zero h
    omega
  · have := hlt m hpos (Nat.lt_succ_self m)
    omega

/-- R114: the carry of one period. -/
def TimeBase.carryOf (x : TimeBase) : Int :=
  if 1000000000 ≤ x.residue + 10 * x.trim then 1 else if x.residue + 10 * x.trim ≤ -1000000000 then -1 else 0

theorem TimeBase.gain_one (h : x.counts) :
    x.gain 1 = 10 + x.carryOf ∧ x.residueAfter 1 = x.residue + 10 * x.trim - x.carryOf * 1000000000 := by
  have h0 := x.gain_add_residueAfter 1
  have r0 := x.residueAfter_natAbs 1
  obtain ⟨s0, s0'⟩ := x.residueAfter_sign 1
  obtain ⟨hr, ht⟩ := h
  have hslope : x.slope = 10 * x.trim := rfl
  rw [hslope] at h0 s0 s0'
  unfold TimeBase.carryOf
  simp only [Nat.cast_one, Int.mul_one] at h0 s0 s0'
  split
  · omega
  · split <;> omega

/-! ## Oscillator periods on their own (R114, R144) -/

theorem State.boundaryElapsed_none (h : s.boundaryLeft = none) : s.boundaryElapsed = s := by
  unfold State.boundaryElapsed
  rw [h]

theorem CycleEngine.shift_none {c : CycleEngine} (h : c.left = none) (d : Int) : c.shift d = c := by
  refine CycleEngine.shift_other (fun a ws r he => ?_) d
  unfold CycleEngine.left at h
  rw [he] at h
  cases h

theorem State.glide_still (h : s.boundaryLeft = none) (n : Nat) : s.glide n = { s with
    osc := s.osc + n
    time := { s.time with ns := (s.time.ns + s.time.gain n).toNat, residue := s.time.residueAfter n } } := by
  unfold State.glide
  dsimp only
  rw [CycleEngine.shift_none (by rw [← State.boundaryLeft_eq]; exact h)]

theorem State.fillCommand_time (s : State) : s.fillCommand.time = s.time ∧ s.fillCommand.cyc = s.cyc ∧ s.fillCommand.osc = s.osc := by
  unfold State.fillCommand
  (repeat' split) <;> exact ⟨rfl, rfl, rfl⟩

theorem State.fillCommand_glides (s : State) (k : Nat) : s.fillCommand.glide k = (s.glide k).fillCommand := by
  obtain ⟨ht, hc, ho⟩ := s.fillCommand_time
  unfold State.glide
  simp only [ht, hc, ho, State.fillCommand_withClock]

theorem State.advance_one (s : State) : s.advance 1 = s.stretch 1 := by
  unfold State.advance State.runOsc
  rw [if_neg Nat.one_ne_zero]
  dsimp only
  rw [min_eq_left (le_max_left _ _)]
  rfl

/-- Periods up to the next event of cabinet time are one run. -/
theorem State.advance_event (h : s.nextEvent = n) (hn : 1 ≤ n) : s.advance n = s.stretch n := by
  have hrun (fuel : Nat) (u : State) : u.runOsc fuel 0 = u := by cases fuel <;> rfl
  obtain ⟨m, rfl⟩ : ∃ m, n = m + 1 := ⟨_, (Nat.sub_add_cancel hn).symm⟩
  unfold State.advance State.runOsc
  rw [if_neg (by omega), h, max_eq_right hn, min_self]
  dsimp only
  rw [Nat.sub_self, hrun]

theorem State.putTime_osc (s : State) (x : TimeBase) : (s.putTime x).osc = s.osc := by
  unfold State.putTime
  dsimp only
  split
  · rfl
  · exact congrArg (fun f => f.2.2.2.2.1) (State.takeQuality_frame _ _)

theorem State.stretch_osc (s : State) (k : Nat) : (s.stretch k).osc = s.osc + k := by
  have hcarry (u : State) : u.carry.osc = u.osc := by
    unfold State.carry State.rollover
    split
    · exact State.putTime_osc _ _
    · rfl
  have helapsed (u : State) : u.boundaryElapsed.osc = u.osc := by
    unfold State.boundaryElapsed State.endWait
    (repeat' split) <;> rfl
  unfold State.stretch
  rw [(State.fillCommand_time _).2.2, helapsed, hcarry]
  exact congrArg (· + k) s.fillCommand_time.2.2

theorem State.runOsc_osc (fuel : Nat) (s : State) (n : Nat) (h : n ≤ fuel) : (s.runOsc fuel n).osc = s.osc + n := by
  induction fuel generalizing s n with
  | zero =>
    obtain rfl : n = 0 := by omega
    rfl
  | succ fuel ih =>
    unfold State.runOsc
    split
    · rename_i h0
      rw [h0]
      rfl
    · dsimp only
      have h1 : min n (max 1 s.nextEvent) ≤ n := min_le_left _ _
      have h2 : 1 ≤ min n (max 1 s.nextEvent) := by omega
      rw [ih _ _ (by omega), State.stretch_osc]
      omega

theorem State.le_advanceTo_osc (s : State) (k : Nat) : k ≤ (s.advanceTo k).osc := by
  have h := State.runOsc_osc (k - s.osc) s (k - s.osc) le_rfl
  unfold State.advanceTo State.advance
  omega

/-! ## The rollover (R115, R128) -/

/-- R115: the seconds at a rollover, before the pulse and the holdover count. -/
def TimeBase.turned (x : TimeBase) : TimeBase :=
  match x.pendingSet with
  | some v => { x with sec := v, pendingSet := none, mark := (x.mark + 1) % 65536
                       setApplied := min (x.setApplied + 1) 4294967295 }
  | none => { x with sec := (x.sec + 1) % 4294967296 }

theorem TimeBase.turn_eq (x : TimeBase) (ns : Nat) (r : Int) (osc : Nat) :
    TimeBase.turn { x with ns := ns, residue := r } osc =
      TimeBase.holdOn { x.turned with ns := ns, residue := r, ppsOut := some (osc + 1000000) } := by
  unfold TimeBase.turn TimeBase.turned
  dsimp only
  cases x.pendingSet <;> rfl

theorem TimeBase.turned_same (x : TimeBase) : x.turned.state = x.state ∧ x.turned.beyond = x.beyond ∧
    x.turned.holdover = x.holdover ∧ x.turned.disc = x.disc := by
  unfold TimeBase.turned
  split <;> exact ⟨rfl, rfl, rfl, rfl⟩


theorem TimeBase.holdOn_off (h : x.state ≠ .holdover) : x.holdOn = x := by
  unfold TimeBase.holdOn
  exact if_neg h

theorem TimeBase.holdOn_on (h : x.state = .holdover) : x.holdOn = { x with
    holdover := min (x.holdover + 1) 4294967295
    beyond := decide (x.disc.holdoverLimit < min (x.holdover + 1) 4294967295) } := by
  unfold TimeBase.holdOn
  exact if_pos h

/-- R114, R115: the oscillator runs up to the rollover, with no boundary wait in progress. -/
theorem State.advance_rollover (h : s.time.inRange) (hleft : s.boundaryLeft = none) :
    ∃ (n ns : Nat) (r : Int), 0 < n ∧ ns ≤ 10 ∧
      s.advance (s.time.periodsToGain ((Config.second : Int) - s.time.ns)) =
        ((State.rollover { s with osc := s.osc + n, time := { s.time with ns := ns, residue := r } }.fillCommand
          ).boundaryElapsed).fillCommand := by
  have hc := h.counts
  have hns : s.time.ns < 1000000000 := h.1
  have hsec : Config.second = 1000000000 := rfl
  obtain ⟨hge, h1, -⟩ := TimeBase.periodsToGain_spec hc ((Config.second : Int) - s.time.ns)
  have hle := TimeBase.gain_periodsToGain_le_ten hc (d := (Config.second : Int) - s.time.ns) (by omega)
  have hevent : s.nextEvent = s.time.periodsToGain ((Config.second : Int) - s.time.ns) := by
    unfold State.nextEvent
    rw [hleft]
  generalize s.time.periodsToGain ((Config.second : Int) - s.time.ns) = n at *
  refine ⟨n, ((s.time.ns : Int) + s.time.gain n).toNat - 1000000000, s.time.residueAfter n, h1, by omega, ?_⟩
  have hcarry : (s.fillCommand.glide n).carry = State.rollover { s with
      osc := s.osc + n
      time := { s.time with ns := ((s.time.ns : Int) + s.time.gain n).toNat - 1000000000, residue := s.time.residueAfter n }
      }.fillCommand := by
    have hfill (x : TimeBase) : ({ s with osc := s.osc + n, time := x } : State).fillCommand =
        { s.fillCommand with osc := s.osc + n, time := x, cyc := s.cyc } := State.fillCommand_withClock s (s.osc + n) x s.cyc
    rw [State.fillCommand_glides, State.glide_still hleft, hfill, hfill]
    unfold State.carry
    exact if_pos (by dsimp only; omega)
  rw [State.advance_event hevent h1]
  unfold State.stretch
  rw [hcarry]


theorem State.snapshot_apart (u : State) (sec ns : Nat) :
    (u.snapshot sec ns).apart = ({ u.apart with cmd := { u.apart.cmd with snapSec := sec, snapNs := ns } } : State) := rfl

/-- R115: a rollover that changes neither the time state nor the beyond-limit flag. -/
theorem State.rollover_same {y : TimeBase} (hy : u.time.turn u.osc = y) (h : y.state = u.time.state)
    (hb : y.beyond = u.time.beyond) : u.rollover.apart = ({ u.apart with
      time := y, cmd := { u.apart.cmd with snapSec := y.sec, snapNs := 0 } } : State) := by
  have hp := State.putTime_same (u := u) h hb
  unfold State.rollover
  dsimp only
  rw [hy, State.snapshot_apart, show (u.putTime y).time = y from (congrArg State.time hp :), hp]

/-- R115, R128: a rollover that changes the beyond-limit flag, no slot's time gate shut by the new quality. -/
theorem State.rollover_moves {y : TimeBase} (hy : u.time.turn u.osc = y) (hb : y.beyond ≠ u.time.beyond)
    (hg : ∀ i, y.quality ≤ (u.slot i).cfg.gate) : u.rollover.apart = (State.withCauses { u.apart with
      time := y, cmd := { u.apart.cmd with snapSec := y.sec, snapNs := 0 }, sw := { u.apart.sw with quality := y.quality } }
        0x400).apart := by
  have hp := State.putTime_moves (u := u) (t := y) (fun he => hb (Prod.mk.inj he).2.symm) hg
  unfold State.rollover
  dsimp only
  rw [hy, State.snapshot_apart, show (u.putTime y).time = y from (congrArg State.time hp :), hp]
  rfl

/-- What follows a rollover with no boundary wait in progress. -/
theorem State.afterRollover_apart {x : State} (hx : u.apart = x) (hleft : x.boundaryLeft = none) :
    u.boundaryElapsed.fillCommand.apart = x := by
  have hu : u.boundaryLeft = none := (congrArg State.boundaryLeft hx :).trans hleft
  rw [State.boundaryElapsed_none hu, State.fillCommand_apart, hx]

/-- Settles O54: a period within a second is a glide (`State.stretch_quiet`), and a rollover is one change of the time base
(`State.advance_rollover`). -/
theorem periodAndRollover : Obligations.PeriodAndRollover := by
  unfold Obligations.PeriodAndRollover
  refine ⟨fun s hq hr hleft => ?_, fun s hq hr hleft => ?_, fun x s hq hx hend => ?_⟩
  · intro r k hns
    obtain ⟨hgain, hres⟩ := TimeBase.gain_one hr.counts
    have hk : s.time.carryOf = k := rfl
    rw [hk] at hgain hres
    have hsec : Config.second = 1000000000 := rfl
    refine work_apart hq (by simp) ?_
    rw [State.advance_one, State.stretch_quiet (by omega) (fun d hd => by rw [hleft] at hd; cases hd),
      State.fillCommand_glides, State.fillCommand_apart, State.glide_still hleft, hgain, hres, Int.add_assoc]
  · intro h beyond quality
    obtain ⟨n, ns, r, hn, hns, he⟩ := State.advance_rollover hr hleft
    obtain ⟨t, ht, ha⟩ := work_apart (u := s.advance (s.time.periodsToGain ((Config.second : Int) - s.time.ns))) hq (by simp) rfl
    refine ⟨n, ns, r, t, ht, hn, hns, ?_⟩
    rw [he] at ha
    have hfill := State.fillCommand_time { s with osc := s.osc + n, time := { s.time with ns := ns, residue := r } }
    have hapart := State.fillCommand_apart { s with osc := s.osc + n, time := { s.time with ns := ns, residue := r } }
    generalize State.fillCommand { s with osc := s.osc + n, time := { s.time with ns := ns, residue := r } } = w at *
    obtain ⟨htime, hcyc, hosc⟩ := hfill
    obtain ⟨hst, hbe, hho, hdisc⟩ := s.time.turned_same
    have hon (hhold : s.time.state = .holdover) :
        TimeBase.holdOn { s.time.turned with ns := ns, residue := r, ppsOut := some (s.osc + n + 1000000) } =
          { s.time.turned with
            ns := ns, residue := r, ppsOut := some (s.osc + n + 1000000), holdover := h, beyond := beyond } := by
      rw [TimeBase.holdOn_on (by exact hst.trans hhold)]
      dsimp only
      rw [hho, hdisc]
    intro u after
    have hturn : w.time.turn w.osc =
        TimeBase.holdOn { s.time.turned with ns := ns, residue := r, ppsOut := some (s.osc + n + 1000000) } := by
      rw [htime, hosc]
      exact s.time.turn_eq ns r (s.osc + n)
    refine ⟨fun hfree => ?_, fun hhold hb => ?_, fun hhold hb hg => ?_⟩
    · rw [TimeBase.holdOn_off (by exact fun hh => hfree (hst.symm.trans hh))] at hturn
      have h1 := State.rollover_same hturn (by rw [htime]; exact hst) (by rw [htime]; exact hbe)
      rw [hapart] at h1
      exact ha.trans (State.afterRollover_apart h1 hleft)
    · have hy := hturn.trans (hon hhold)
      rw [hb] at hy
      have h1 := State.rollover_same hy (by rw [htime]; exact hst) (by rw [htime])
      rw [hapart] at h1
      refine ha.trans ((State.afterRollover_apart h1 hleft).trans ?_)
      rw [← hbe]
      rfl
    · have hy := hturn.trans (hon hhold)
      have hquality : TimeBase.quality { s.time.turned with
          ns := ns, residue := r, ppsOut := some (s.osc + n + 1000000), holdover := h, beyond := beyond } = quality := by
        unfold TimeBase.quality
        dsimp only
        rw [hst, hhold]
      have h1 := State.rollover_moves hy (by rw [htime]; exact hb) (fun i => by
        rw [hquality]
        exact (congrArg (fun x : State => quality ≤ (x.slot i).cfg.gate) hapart :) ▸ hg i)
      rw [hapart, hquality] at h1
      exact ha.trans (State.afterRollover_apart h1 hleft)
  · refine work_apart hq (by rw [hx]; dsimp only; unfold State.ppsOutEnds; (repeat' split) <;> simp) ?_
    rw [hx]
    dsimp only
    unfold State.ppsOutEnds
    rw [hend]
    dsimp only
    rw [if_pos (State.le_advanceTo_osc s x)]

end Sys2Proof.Machine
end

section
/-! SUPPORT. Scans of the alarm points (O59). -/

namespace Sys2Proof.Machine

open Sys2Proof

variable {s t u : State} {p : Point} {k : Fin 64}

/-- R170: where a point that does not latch stands after `n` true observations in a row. -/
def Point.risen (p q : Point) (n : Nat) : Prop :=
  q.cfg = p.cfg ∧ if p.cfg.raiseCount ≤ n then q.state = .raised else q.state = .pendingRaise ∧ q.count = n

theorem Point.rise_risen (p q : Point) (n : Nat) (h : q.cfg = p.cfg) : p.risen (q.rise n) n := by
  unfold Point.rise Point.risen
  rw [h]
  split
  · exact ⟨rfl, rfl⟩
  · exact ⟨rfl, rfl, rfl⟩

theorem Point.observe_plain (h : p.cfg.latching = false) (seen : Bool) : p.observe seen = p.observePlain seen := by
  unfold Point.observe
  rw [h]
  rfl

theorem Point.observe_clear (h : p.cfg.latching = false) (hs : p.state = .clear) : p.observe true = p.rise 1 := by
  rw [Point.observe_plain h]
  unfold Point.observePlain
  rw [hs]

theorem Point.risen_succ {q : Point} {n : Nat} (hl : p.cfg.latching = false) (h : p.risen q n) : p.risen (q.observe true) (n + 1) := by
  obtain ⟨hcfg, h⟩ := h
  rw [Point.observe_plain (by rw [hcfg]; exact hl)]
  unfold Point.observePlain
  split at h
  · rw [h]
    exact ⟨hcfg, by rw [if_pos (by omega)]⟩
  · obtain ⟨hs, hc⟩ := h
    rw [hs]
    dsimp only
    rw [hc]
    exact Point.rise_risen p q (n + 1) hcfg

theorem Point.risen_iterate (hl : p.cfg.latching = false) (hs : p.state = .clear) (n : Nat) :
    p.risen ((fun q : Point => q.observe true)^[n + 1] p) (n + 1) := by
  induction n with
  | zero =>
    change p.risen (p.observe true) 1
    rw [Point.observe_clear hl hs]
    exact p.rise_risen p 1 rfl
  | succ n ih =>
    rw [Function.iterate_succ_apply']
    exact Point.risen_succ hl ih

/-- R166: a point that is not enabled is not observed. -/
theorem State.scanPoint_disabled {at0 : State} (h : (s.point k).cfg.enabled = false) : State.scanPoint at0 s k = s := by
  unfold State.scanPoint
  dsimp only
  rw [h]
  rfl

theorem State.scanPoints_disabled {at0 : State} {l : List (Fin 64)} (h : ∀ k ∈ l, (s.point k).cfg.enabled = false) :
    l.foldl (State.scanPoint at0) s = s := by
  induction l with
  | nil => rfl
  | cons k l ih =>
    rw [List.foldl_cons, State.scanPoint_disabled (h k (List.mem_cons_self ..)), ih fun j hj => h j (List.mem_cons_of_mem _ hj)]

/-- R166: with one point enabled a scan observes it alone. -/
theorem State.scanPoints_one {at0 v : State} (h : ∀ j, j ≠ k → (s.point j).cfg.enabled = false)
    (hv : State.scanPoint at0 s k = v) (hpts : ∀ j, j ≠ k → v.point j = s.point j) :
    (List.finRange 64).foldl (State.scanPoint at0) s = v := by
  obtain ⟨l1, l2, hl⟩ := List.append_of_mem (List.mem_finRange k)
  have hnodup : (l1 ++ k :: l2).Nodup := hl ▸ List.nodup_finRange 64
  obtain ⟨-, h2, hdisj⟩ := List.nodup_append.mp hnodup
  have h1 (j : Fin 64) (hj : j ∈ l1) : j ≠ k := hdisj j hj k (List.mem_cons_self ..)
  have h3 (j : Fin 64) (hj : j ∈ l2) : j ≠ k := fun he => (List.nodup_cons.mp h2).1 (he ▸ hj)
  rw [hl, List.foldl_append, State.scanPoints_disabled fun j hj => h j (h1 j hj), List.foldl_cons, hv]
  exact State.scanPoints_disabled fun j hj => by rw [hpts j (h3 j hj)]; exact h j (h3 j hj)

theorem Point.observe_raises (hs : p.state = .clear) (hr : p.cfg.raiseCount = 1) :
    p.observe true = { p with state := .raised, count := 0, sourceCleared := false } := by
  unfold Point.observe
  rw [hs]
  rw [show (p.cfg.latching && PointState.clear == PointState.raised) = false from Bool.and_false _]
  unfold Point.observePlain Point.rise
  rw [if_neg Bool.false_ne_true, hs]
  exact if_pos hr.le

theorem State.sourceTrue_contact {c : Fin 8} {x : PointCfg} (hk : x.kind = .contact) (hw : x.which = c.val) :
    s.sourceTrue x = (vget s.alarm.contacts c != x.whenOpen) := by
  unfold State.sourceTrue
  rw [hk]
  dsimp only
  rw [dif_pos (by rw [hw]; exact c.isLt)]
  congr 2
  exact Fin.ext hw

/-- Settles O59: a scan observes the enabled points (`State.scanPoints_one`) and clears the marks. -/
theorem scanTaken : Obligations.ScanTaken := by
  unfold Obligations.ScanTaken
  refine ⟨fun p n hl hs hr hn => ?_, fun s hq => ?_, fun c closed s hq => work_apart hq rfl rfl⟩
  · obtain ⟨m, rfl⟩ : ∃ m, n = m + 1 := ⟨_, (Nat.sub_add_cancel hn).symm⟩
    obtain ⟨-, h⟩ := Point.risen_iterate hl hs m
    split at h
    · exact ⟨fun _ => ‹_›, fun _ => h⟩
    · exact ⟨fun hraised => (nomatch hraised.symm.trans h.1), fun hle => absurd hle ‹_›⟩
  · intro u after
    have row {x : State} (hx : u.scanNow.apart = x) : ∃ t, exec .alarmScan s = .next t ∧ t.apart = x :=
      work_apart hq ((State.scanNow_outside _).trans (State.advanceTo_outside _ _)) hx
    refine ⟨fun hoff => row ?_, fun k c hoff hen hmask hkind hwhich hsrc hst hraise hhub => row ?_⟩
    · unfold State.scanNow State.scan
      rw [State.scanPoints_disabled fun k _ => hoff k, ite_self]
      rfl
    · have hpoint : State.scanPoint u u k =
          u.putPoint k { u.point k with state := .raised, count := 0, sourceCleared := false } := by
        unfold State.scanPoint
        dsimp only
        rw [State.sourceTrue_contact hkind hwhich, hsrc, Point.observe_raises hst hraise, hen, hkind]
        exact if_pos hmask
      have hscan := State.scanPoints_one (at0 := u) hoff hpoint fun j hj => by
        exact vget_vset_ne _ _ (Ne.symm hj)
      unfold State.scanNow State.scan
      rw [hscan, if_neg hhub]
      rfl

end Sys2Proof.Machine
end

section
/-! SUPPORT. References: edges of PPS_IN, the loop, steps, and watches (O56). -/

namespace Sys2Proof.Machine

open Sys2Proof

variable {s t u : State} {x y : TimeBase} {k : Fin 4} {takes : RefEntry → Bool}

/-! ## The selection (R122) -/

theorem TimeBase.rejudge_same (h : ∀ k, (vget y.refs k).qualified = (vget x.refs k).qualified) : x.rejudge y = y := by
  unfold TimeBase.rejudge
  refine if_pos (Vector.ext fun i hi => ?_)
  rw [Vector.getElem_map, Vector.getElem_map]
  exact (h ⟨i, hi⟩).symm

theorem TimeBase.rejudge_changed (h : (vget y.refs k).qualified ≠ (vget x.refs k).qualified) : x.rejudge y = y.reselect := by
  unfold TimeBase.rejudge
  refine if_neg fun he => h ?_
  have hk := congrArg (fun v => vget v k) he
  simp only [vget, Vector.getElem_map] at hk
  exact hk.symm

theorem TimeBase.bestRef_first (h : (vget x.refs 0).qualified = true) : x.bestRef = some 0 := by
  unfold TimeBase.bestRef
  rw [List.finRange_succ]
  exact List.find?_cons_of_pos h

theorem TimeBase.bestRef_none (h : ∀ k, (vget x.refs k).qualified = false) : x.bestRef = none := by
  unfold TimeBase.bestRef
  rw [List.find?_eq_none]
  intro k _
  rw [h k]
  exact Bool.false_ne_true

theorem TimeBase.setRef_ref (x : TimeBase) (r : RefEntry) (j : Fin 4) :
    vget (x.setRef k r).refs j = if j = k then r else vget x.refs j := by
  split
  · rename_i h
    rw [h]
    exact vget_vset_self _ _ _
  · rename_i h
    exact vget_vset_ne _ _ (Ne.symm h)

/-! ## An arrival (R119) -/

/-- R119: a time base after one of its entries has judged an arrival. -/
def TimeBase.took (x : TimeBase) (k : Fin 4) (j : RefEntry × Bool) : TimeBase :=
  if j.2 then { x.setRef k j.1 with intervalRejects := min (x.intervalRejects + 1) 4294967295 } else x.setRef k j.1

theorem TimeBase.took_refs (x : TimeBase) (k : Fin 4) (j : RefEntry × Bool) : (x.took k j).refs = vset x.refs k j.1 := by
  unfold TimeBase.took
  split <;> rfl

/-- R119: one entry in turn, at an arrival at `n`. -/
def TimeBase.offered (takes : RefEntry → Bool) (n : Nat) (x : TimeBase) (k : Fin 4) : TimeBase :=
  if (vget x.refs k).cfg.enabled && takes (vget x.refs k) then x.took k ((vget x.refs k).judge n) else x

theorem TimeBase.offer_eq (x : TimeBase) (takes : RefEntry → Bool) (n : Nat) :
    x.offer takes n = x.rejudge ((List.finRange 4).foldl (TimeBase.offered takes n) x) := rfl

theorem TimeBase.offered_other {n : Nat} (h : ((vget x.refs k).cfg.enabled && takes (vget x.refs k)) = false) :
    TimeBase.offered takes n x k = x := by
  unfold TimeBase.offered
  rw [h]
  rfl

/-- R119: an arrival that no entry takes. -/
theorem TimeBase.offer_none (h : ∀ k, ((vget x.refs k).cfg.enabled && takes (vget x.refs k)) = false) (n : Nat) :
    x.offer takes n = x := by
  rw [TimeBase.offer_eq, List.foldl_fixed' fun k => TimeBase.offered_other (h k)]
  exact TimeBase.rejudge_same fun _ => rfl

/-- R119: an arrival that entry 0 alone takes. -/
theorem TimeBase.offer_first (h0 : ((vget x.refs 0).cfg.enabled && takes (vget x.refs 0)) = true)
    (h : ∀ k, k ≠ 0 → ((vget x.refs k).cfg.enabled && takes (vget x.refs k)) = false) (n : Nat) :
    x.offer takes n = x.rejudge (x.took 0 ((vget x.refs 0).judge n)) := by
  have hrest (k : Fin 4) (hk : k ≠ 0) : TimeBase.offered takes n (x.took 0 ((vget x.refs 0).judge n)) k =
      x.took 0 ((vget x.refs 0).judge n) := by
    refine TimeBase.offered_other ?_
    rw [TimeBase.took_refs, vget_vset_ne _ _ (Ne.symm hk)]
    exact h k hk
  have hfirst : TimeBase.offered takes n x 0 = x.took 0 ((vget x.refs 0).judge n) := by
    unfold TimeBase.offered
    rw [if_pos h0]
  rw [TimeBase.offer_eq, show List.finRange 4 = [0, 1, 2, 3] from rfl]
  simp only [List.foldl_cons, List.foldl_nil]
  rw [hfirst, hrest 1 (by decide), hrest 2 (by decide), hrest 3 (by decide)]

/-- R119: an entry with an arrival recorded. -/
def RefEntry.arrived (r : RefEntry) (n good : Nat) (q : Bool) : RefEntry :=
  { r with good := good, qualified := q, last := some n, watch := some (n + 110000000) }

theorem RefEntry.judge_first {r : RefEntry} (h : r.last = none) (n : Nat) : r.judge n = (r.arrived n 0 r.qualified, false) := by
  unfold RefEntry.judge
  rw [h]
  rfl

theorem intervalOk_iff {n : Nat} : intervalOk n = true ↔ 99900000 ≤ n ∧ n ≤ 100100000 := by
  unfold intervalOk
  rw [Bool.and_eq_true, decide_eq_true_eq, decide_eq_true_eq]
  rfl

theorem RefEntry.judge_good {r : RefEntry} {l n : Nat} (h : r.last = some l) (hi : 99900000 ≤ n - l ∧ n - l ≤ 100100000) :
    r.judge n = (r.arrived n (min (r.good + 1) 3) (r.qualified || decide (min (r.good + 1) 3 = 3)), false) := by
  unfold RefEntry.judge
  rw [h]
  exact if_pos (intervalOk_iff.mpr hi)

theorem RefEntry.judge_bad {r : RefEntry} {l n : Nat} (h : r.last = some l) (hi : n - l < 99900000 ∨ 100100000 < n - l) :
    r.judge n = (r.arrived n 0 false, true) := by
  unfold RefEntry.judge
  rw [h]
  exact if_neg fun hc => by have := intervalOk_iff.mp hc; omega

/-- R123: the loop uses no arrival that the selected entry did not take, or by which it is not qualified. -/
theorem loopUses_false (h : ∀ k, x.selected = some k →
    ((vget x.refs k).cfg.enabled && takes (vget x.refs k)) = false ∨ (vget y.refs k).qualified = false) :
    loopUses x y takes = false := by
  unfold loopUses
  split
  · rename_i k hk
    dsimp only
    rcases h k hk with h | h
    · rw [h, Bool.false_and]
    · rw [h, Bool.and_false]
  · rfl

theorem loopUses_selected (hk : x.selected = some k) (ht : ((vget x.refs k).cfg.enabled && takes (vget x.refs k)) = true)
    (hq : (vget y.refs k).qualified = true) : loopUses x y takes = true := by
  unfold loopUses
  rw [hk]
  dsimp only
  rw [ht, hq]
  rfl

/-! ## The loop (R123 to R126) -/

theorem State.loop_steers {n : Nat} {e : Int} (he : phaseError n = e) (h : e.natAbs < s.time.disc.stepLimit) :
    s.loop n = (s.putTime { s.time with lastError := e }).putTime
      (((s.putTime { s.time with lastError := e }).time.correct e).countLock e) := by
  unfold State.loop
  rw [he]
  exact if_neg (Nat.not_le.mpr h)

theorem State.loop_jumps {n : Nat} {e : Int} (he : phaseError n = e) (h : s.time.disc.stepLimit ≤ e.natAbs) :
    s.loop n = (s.putTime { s.time with lastError := e }).timeStep e := by
  unfold State.loop
  rw [he]
  exact if_pos h

/-- R125: a time base after the loop's correction. -/
theorem TimeBase.correct_eq (x : TimeBase) (e : Int) : x.correct e = { x with
    integral := max (-8000000) (min 8000000 (x.integral + e))
    trim := max (-50000) (min 50000 (-(Int.tdiv e (2 ^ x.disc.kp) +
      Int.tdiv (max (-8000000) (min 8000000 (x.integral + e))) (2 ^ x.disc.ki)))) } := rfl

/-- R126: the lock run. -/
theorem TimeBase.countLock_acquiring (h : x.state = .acquiring) (e : Int) : x.countLock e =
    if e.natAbs ≤ x.disc.lockWindow then
      if x.disc.lockCount ≤ min (x.lockRun + 1) 255
      then { x with lockRun := min (x.lockRun + 1) 255, state := .locked, unlockRun := 0 }
      else { x with lockRun := min (x.lockRun + 1) 255 }
    else { x with lockRun := 0 } := by
  unfold TimeBase.countLock
  dsimp only
  rw [h]

/-- R126: the unlock run. -/
theorem TimeBase.countLock_locked (h : x.state = .locked) (e : Int) : x.countLock e =
    if e.natAbs ≤ x.disc.lockWindow then { x with unlockRun := 0 }
    else if min (x.unlockRun + 1) 4 = 4 then { x with unlockRun := min (x.unlockRun + 1) 4, state := .acquiring, lockRun := 0 }
      else { x with unlockRun := min (x.unlockRun + 1) 4 } := by
  unfold TimeBase.countLock
  dsimp only
  rw [h]

/-- A change of the time base after one that left its state and its beyond-limit flag. -/
theorem State.putTime_putTime (h : x.state = s.time.state) (hb : x.beyond = s.time.beyond) (y : TimeBase) :
    (y.state = s.time.state → y.beyond = s.time.beyond → ((s.putTime x).putTime y).apart = ({ s.apart with time := y } : State)) ∧
      ((s.time.state, s.time.beyond) ≠ (y.state, y.beyond) → (∀ i, y.quality ≤ (s.slot i).cfg.gate) →
        ((s.putTime x).putTime y).apart =
          (State.withCauses { s.apart with time := y, sw := { s.apart.sw with quality := y.quality } } 0x400).apart) := by
  have hx := State.putTime_same (u := s) h hb
  have htime : (s.putTime x).time = x := (congrArg State.time hx :)
  refine ⟨fun hy hyb => ?_, fun hne hg => ?_⟩
  · rw [State.putTime_same (by rw [htime, h]; exact hy) (by rw [htime, hb]; exact hyb), hx]
  · have hslot (i : Slot) : (s.putTime x).slot i = s.slot i := (congrArg (fun u : State => u.slot i) hx :)
    rw [State.putTime_moves (by rw [htime, h, hb]; exact hne) (fun i => by rw [hslot]; exact hg i), hx]


/-! ## An edge of PPS_IN (R119, R123, R124) -/

/-- R119: the entries that an edge of PPS_IN is for. -/
def RefEntry.takesPps (r : RefEntry) : Bool := r.cfg.kind == .ppsInput

theorem State.ppsEdge_unused (hu : s.time.offer RefEntry.takesPps s.osc = y)
    (hl : loopUses s.time y RefEntry.takesPps = false) : s.ppsEdge = s.putTime y := by
  unfold State.ppsEdge
  change (if loopUses s.time (s.time.offer RefEntry.takesPps s.osc) RefEntry.takesPps = true then _ else
    s.putTime (s.time.offer RefEntry.takesPps s.osc) : State) = _
  rw [hu, hl, if_neg Bool.false_ne_true]

theorem State.ppsEdge_used (hu : s.time.offer RefEntry.takesPps s.osc = y)
    (hl : loopUses s.time y RefEntry.takesPps = true) : s.ppsEdge = (s.putTime y).loop s.time.ns := by
  unfold State.ppsEdge
  change (if loopUses s.time (s.time.offer RefEntry.takesPps s.osc) RefEntry.takesPps = true then
    (s.putTime (s.time.offer RefEntry.takesPps s.osc)).loop s.time.ns else _ : State) = _
  rw [hu, hl, if_pos rfl]

/-- R123, R125, R126: an edge that the loop uses, its phase error below the step limit. -/
theorem State.ppsEdge_steers {e : Int} {z : TimeBase} (hu : s.time.offer RefEntry.takesPps s.osc = y)
    (hl : loopUses s.time y RefEntry.takesPps = true) (hst : y.state = s.time.state) (hb : y.beyond = s.time.beyond)
    (he : phaseError s.time.ns = e) (hlim : e.natAbs < y.disc.stepLimit)
    (hz : (({ y with lastError := e } : TimeBase).correct e).countLock e = z) :
    (z.state = s.time.state → z.beyond = s.time.beyond → s.ppsEdge.apart = ({ s.apart with time := z } : State)) ∧
      ((s.time.state, s.time.beyond) ≠ (z.state, z.beyond) → (∀ i, z.quality ≤ (s.slot i).cfg.gate) →
        s.ppsEdge.apart =
          (State.withCauses { s.apart with time := z, sw := { s.apart.sw with quality := z.quality } } 0x400).apart) := by
  have hy := State.putTime_same (u := s) hst hb
  rw [State.ppsEdge_used hu hl]
  generalize s.putTime y = t at hy
  have htime : t.time = y := (congrArg State.time hy :)
  have hslot (i : Slot) : t.slot i = s.slot i := (congrArg (fun u : State => u.slot i) hy :)
  obtain ⟨hsame, hmoves⟩ := State.putTime_putTime (s := t) (x := { t.time with lastError := e }) rfl rfl z
  have herr : (t.putTime { t.time with lastError := e }).time = { y with lastError := e } :=
    (congrArg State.time (State.putTime_same (u := t) (t := { t.time with lastError := e }) rfl rfl) :).trans
      (by rw [← htime])
  have h1 : t.time.state = s.time.state := by rw [htime, hst]
  have h2 : t.time.beyond = s.time.beyond := by rw [htime, hb]
  rw [State.loop_steers he (by rw [htime]; exact hlim), herr, hz]
  refine ⟨fun h3 h4 => (hsame (h3.trans h1.symm) (h4.trans h2.symm)).trans (by rw [hy]), fun h3 h4 =>
    (hmoves (by rw [h1, h2]; exact h3) fun i => by rw [hslot]; exact h4 i).trans (by rw [hy])⟩

theorem State.boundaryStep_none (h : s.boundaryLeft = none) (e : Int) : s.boundaryStep e = s := by
  have hc : s.cyc.shift e = s.cyc := CycleEngine.shift_none (by rw [← State.boundaryLeft_eq]; exact h) e
  unfold State.boundaryStep
  rw [hc]
  change (match s.boundaryLeft with | some r => _ | none => _ : State) = _
  rw [h]

/-- R126, R129: the time base goes to ACQUIRING, or stays there. -/
theorem State.putTime_acquires {z : TimeBase} (hz : z.state = .acquiring) (hb : z.beyond = s.time.beyond)
    (hst : s.time.state = .acquiring ∨ s.time.state = .locked) (hg : ∀ i, 2 ≤ (s.slot i).cfg.gate) :
    (s.putTime z).apart = (if s.time.state = .locked
      then State.withCauses { s.apart with time := z, sw := { s.apart.sw with quality := 2 } } 0x400
      else { s.apart with time := z } : State).apart := by
  have hquality : z.quality = 2 := by
    unfold TimeBase.quality
    rw [hz]
  rcases hst with hst | hst
  · rw [if_neg (by rw [hst]; decide), State.putTime_same (hz.trans hst.symm) hb]
    rfl
  · rw [if_pos hst, State.putTime_moves (by rw [hst, hz]; exact fun h => nomatch (Prod.mk.inj h).1)
      (fun i => by rw [hquality]; exact hg i), hquality]


/-- R124: the state after a step of cabinet time, with the time base given: LOCKED is left for ACQUIRING. -/
def State.stepsTo (s : State) (x : State) : State :=
  if s.time.state = .locked then State.withCauses { x with sw := { x.sw with quality := 2 } } 0x400 else x

theorem State.timeStep_level {e : Int} (h : (s.time.ns : Int) - e = 0) :
    s.timeStep e = (s.putTime { s.time.stepped with ns := 0 }).boundaryStep e := by
  unfold State.timeStep
  dsimp only
  rw [h, if_neg (by decide), if_neg (by decide)]
  rfl

theorem State.timeStep_carries {e : Int} (h : (s.time.ns : Int) - e = 1000000000) :
    s.timeStep e = ((s.putTime (TimeBase.turn { s.time.stepped with ns := 0 } s.osc)).snapshot
      (TimeBase.turn { s.time.stepped with ns := 0 } s.osc).sec 0).boundaryStep e := by
  unfold State.timeStep
  dsimp only
  rw [h, if_pos (by decide)]
  rfl

theorem TimeBase.turn_acquiring (h : x.state = .acquiring) (n : Nat) :
    x.turn n = { x.turned with ppsOut := some (n + 1000000) } := by
  have hs : x.turned.state = .acquiring := x.turned_same.1.trans h
  have he : x.turn n = TimeBase.holdOn { x.turned with ppsOut := some (n + 1000000) } := by
    unfold TimeBase.turn TimeBase.turned
    cases x.pendingSet <;> rfl
  rw [he, TimeBase.holdOn_off]
  dsimp only
  rw [hs]
  decide

/-- R124: an edge whose phase error is at the step limit or beyond. -/
theorem State.ppsEdge_jumps {e : Int} (hu : s.time.offer RefEntry.takesPps s.osc = y)
    (hl : loopUses s.time y RefEntry.takesPps = true) (hst : y.state = s.time.state) (hb : y.beyond = s.time.beyond)
    (hyns : y.ns = s.time.ns) (he : phaseError s.time.ns = e) (hlim : y.disc.stepLimit ≤ e.natAbs)
    (hleft : s.boundaryLeft = none) (hacq : s.time.state = .acquiring ∨ s.time.state = .locked)
    (hg : ∀ i, 2 ≤ (s.slot i).cfg.gate) {z : TimeBase} (hz : z = { ({ y with lastError := e } : TimeBase).stepped with ns := 0 }) :
    ((s.time.ns : Int) - e = 0 → s.ppsEdge.apart = (s.stepsTo { s with time := z }).apart) ∧
      ((s.time.ns : Int) - e = 1000000000 → s.ppsEdge.apart = (s.stepsTo { s with
        time := { z.turned with ppsOut := some (s.osc + 1000000) }
        cmd := { s.cmd with snapSec := z.turned.sec, snapNs := 0 } }).apart) := by
  have hy := State.putTime_same (u := s) hst hb
  rw [State.ppsEdge_used hu hl]
  generalize s.putTime y = t at hy
  have htime : t.time = y := (congrArg State.time hy :)
  rw [State.loop_jumps he (by rw [htime]; exact hlim)]
  have herr := State.putTime_same (u := t) (t := { t.time with lastError := e }) rfl rfl
  rw [hy, htime] at herr
  rw [htime]
  generalize t.putTime { y with lastError := e } = w at herr ⊢
  have hwtime : w.time = { y with lastError := e } := (congrArg State.time herr :)
  have hslot (i : Slot) : w.slot i = s.slot i := (congrArg (fun u : State => u.slot i) herr :)
  have hwosc : w.osc = s.osc := (congrArg State.osc herr :)
  have hwns : w.time.ns = s.time.ns := by rw [hwtime]; exact hyns
  have hwst : w.time.state = s.time.state := by rw [hwtime]; exact hst
  have hwz : { w.time.stepped with ns := 0 } = z := by rw [hz, hwtime]
  have hzst : z.state = .acquiring := by rw [hz]; rfl
  have hzb : z.beyond = w.time.beyond := by rw [hz, hwtime]; rfl
  have hmove (v : TimeBase) (hv : v.state = .acquiring) (hvb : v.beyond = w.time.beyond) :
      (w.putTime v).apart = (s.stepsTo { s with time := v }).apart := by
    rw [State.putTime_acquires hv hvb (by rw [hwst]; exact hacq) (fun i => by rw [hslot]; exact hg i), hwst, herr]
    unfold State.stepsTo
    split <;> rfl
  have hstill (v : TimeBase) : (s.stepsTo { s with time := v }).boundaryLeft = none := by
    unfold State.stepsTo
    split <;> exact hleft
  refine ⟨fun hm => ?_, fun hm => ?_⟩
  · rw [State.timeStep_level (by rw [hwns]; exact hm), hwz]
    have h := hmove z hzst hzb
    have hv : (w.putTime z).boundaryLeft = none := (congrArg State.boundaryLeft h :).trans (hstill z)
    rw [State.boundaryStep_none hv, h]
  · rw [State.timeStep_carries (by rw [hwns]; exact hm), hwz, hwosc, TimeBase.turn_acquiring hzst]
    have h := hmove { z.turned with ppsOut := some (s.osc + 1000000) } (z.turned_same.1.trans hzst) (z.turned_same.2.1.trans hzb)
    generalize w.putTime _ = v at h ⊢
    have hv : v.boundaryLeft = none := (congrArg State.boundaryLeft h :).trans (hstill _)
    rw [State.boundaryStep_none (by exact hv), State.snapshot_apart, h]
    unfold State.stepsTo
    split <;> rfl

/-! ## A watch that expires (R120) -/

theorem State.watchEnds_unqualified (h : (s.ref k).qualified = false) :
    (s.watchEnds k).apart = ({ s.apart with time := s.time.watchExpire k } : State) := by
  unfold State.watchEnds
  rw [TimeBase.rejudge_same fun j => ?_]
  · exact State.putTime_same rfl rfl
  · change (vget (s.time.setRef k _).refs j).qualified = _
    rw [TimeBase.setRef_ref]
    split
    · rename_i hj
      rw [hj]
      exact h.symm
    · rfl

theorem State.watchEnds_holdover (h : (s.ref k).qualified = true) (hno : ∀ j, j ≠ k → (s.ref j).qualified = false)
    (hsel : s.time.selected = some k) (hst : s.time.state = .locked) (hg : ∀ i, 1 ≤ (s.slot i).cfg.gate) :
    (s.watchEnds k).apart = (State.withCauses { s.apart with
      time := { s.time.watchExpire k with selected := none, state := .holdover, holdover := 0, beyond := false }
      sw := { s.apart.sw with quality := 1 } } 0x400).apart := by
  have hrefs (j : Fin 4) : (vget (s.time.watchExpire k).refs j).qualified = false := by
    change (vget (s.time.setRef k _).refs j).qualified = _
    rw [TimeBase.setRef_ref]
    split
    · rfl
    · exact hno j ‹_›
  have hre : (s.time.watchExpire k).reselect =
      { s.time.watchExpire k with selected := none, state := .holdover, holdover := 0, beyond := false } := by
    have hsel' : (s.time.watchExpire k).selected = some k := hsel
    have hst' : (s.time.watchExpire k).state = .locked := hst
    unfold TimeBase.reselect
    rw [hsel', TimeBase.bestRef_none hrefs]
    dsimp only
    rw [hst']
  unfold State.watchEnds
  rw [TimeBase.rejudge_changed (k := k) (by rw [hrefs k]; exact fun he => nomatch he.trans h), hre]
  exact State.putTime_moves (by rw [hst]; exact fun he => nomatch (Prod.mk.inj he).1) hg


theorem TimeBase.setRef_rejudge {r : RefEntry} (h : r.qualified = (vget x.refs k).qualified) (n : Nat) :
    x.rejudge (x.setRef k r) = x.setRef k r ∧
      x.rejudge { x.setRef k r with intervalRejects := n } = { x.setRef k r with intervalRejects := n } := by
  have hall (j : Fin 4) : (vget (x.setRef k r).refs j).qualified = (vget x.refs j).qualified := by
    rw [TimeBase.setRef_ref]
    split
    · rename_i hj
      rw [hj]
      exact h
    · rfl
  exact ⟨TimeBase.rejudge_same hall, TimeBase.rejudge_same hall⟩

/-- R122: entry 0 qualifies, the first to do so. -/
theorem TimeBase.setRef_selects {r : RefEntry} (hr : r.qualified = true) (h : (vget x.refs 0).qualified = false)
    (hsel : x.selected = none) : x.rejudge (x.setRef 0 r) =
      { x.setRef 0 r with selected := some 0, state := .acquiring, lockRun := 0, unlockRun := 0, holdover := 0, beyond := false } := by
  have hfirst : (vget (x.setRef 0 r).refs 0).qualified = true := by
    rw [TimeBase.setRef_ref, if_pos rfl]
    exact hr
  have hsel' : (x.setRef 0 r).selected = none := hsel
  rw [TimeBase.rejudge_changed (k := 0) (by rw [hfirst, h]; exact fun he => nomatch he)]
  unfold TimeBase.reselect
  rw [hsel', TimeBase.bestRef_first hfirst]

/-- Settles O56: an edge of PPS_IN as entry 0 judges it (`TimeBase.offer_first`), the loop (`State.ppsEdge_steers`), a step
(`State.ppsEdge_jumps`), and a watch (`State.watchEnds_holdover`). -/
theorem referencesJudged : Obligations.ReferencesJudged := by
  unfold Obligations.ReferencesJudged
  intro s hq
  have row {x : State} (hx : s.ppsEdge.apart = x) : ∃ t, exec .ppsInEdge s = .next t ∧ t.apart = x :=
    work_apart hq (by simp) hx
  have hother {k : Fin 4} (h : (s.ref k).cfg.enabled = false ∨ (s.ref k).cfg.kind = .slot) :
      ((vget s.time.refs k).cfg.enabled && (vget s.time.refs k).takesPps) = false := by
    change ((s.ref k).cfg.enabled && ((s.ref k).cfg.kind == .ppsInput)) = false
    rcases h with h | h
    · rw [h, Bool.false_and]
    · rw [h]
      exact Bool.and_false _
  refine ⟨fun hno => row ?_, fun hen hkind hrest => ?_, fun k x hx => ?_⟩
  · rw [State.ppsEdge_unused (TimeBase.offer_none (fun k => hother (hno k)) s.osc)
      (loopUses_false fun k _ => .inl (hother (hno k))), State.putTime_self]
  · intro at_ ends gatesOpen
    have htakes : ((vget s.time.refs 0).cfg.enabled && (vget s.time.refs 0).takesPps) = true := by
      change ((s.ref 0).cfg.enabled && ((s.ref 0).cfg.kind == .ppsInput)) = true
      rw [hen, hkind]
      rfl
    have hoffer {r : RefEntry} {b : Bool} (hj : (s.ref 0).judge s.osc = (r, b)) :
        s.time.offer RefEntry.takesPps s.osc = s.time.rejudge (s.time.took 0 (r, b)) := by
      rw [TimeBase.offer_first htakes (fun k hk => hother (hrest k hk)), ← hj]
      rfl
    have hselected (k : Fin 4) (y : TimeBase) (h : (vget y.refs 0).qualified = false) :
        ((vget s.time.refs k).cfg.enabled && (vget s.time.refs k).takesPps) = false ∨ (vget y.refs k).qualified = false := by
      by_cases hk : k = 0
      · rw [hk]
        exact .inr h
      · exact .inl (hother (hrest k hk))
    refine ⟨fun hlast hsel => row ?_, fun l hlast => ⟨fun hbad hqual => row ?_, fun hlo hhi => ⟨fun hqual hgood => row ?_,
      fun hqual hgood hnone hsel hst hg => row ?_, fun hqual hsel hns => ?_⟩⟩⟩
    · have hu := (hoffer (RefEntry.judge_first hlast s.osc)).trans (TimeBase.setRef_rejudge (k := 0) (r := (s.ref 0).arrived s.osc 0 (s.ref 0).qualified) rfl 0).1
      rw [State.ppsEdge_unused hu (loopUses_false fun k hk => by rw [hsel] at hk; cases hk)]
      exact State.putTime_same rfl rfl
    · have hu := (hoffer (RefEntry.judge_bad hlast hbad)).trans (TimeBase.setRef_rejudge (by exact hqual.symm) _).2
      rw [State.ppsEdge_unused hu (loopUses_false fun k _ => hselected k _ (by
        change (vget (s.time.setRef 0 _).refs 0).qualified = false
        rw [TimeBase.setRef_ref, if_pos rfl]
        rfl))]
      exact State.putTime_same rfl rfl
    · have hj := RefEntry.judge_good hlast ⟨hlo, hhi⟩
      have hmin : min ((s.ref 0).good + 1) 3 = (s.ref 0).good + 1 := min_eq_left (by omega)
      rw [hmin, hqual, decide_eq_false (show ¬ (s.ref 0).good + 1 = 3 by omega), Bool.or_false] at hj
      have hu := (hoffer hj).trans (TimeBase.setRef_rejudge (by exact hqual.symm) 0).1
      rw [State.ppsEdge_unused hu (loopUses_false fun k _ => hselected k _ (by
        rw [TimeBase.setRef_ref, if_pos rfl]
        rfl))]
      exact State.putTime_same rfl rfl
    · have hj := RefEntry.judge_good hlast ⟨hlo, hhi⟩
      rw [hgood, hqual] at hj
      have hu := (hoffer hj).trans (TimeBase.setRef_selects rfl hqual hsel)
      rw [State.ppsEdge_unused hu (loopUses_false fun k hk => by rw [hsel] at hk; cases hk)]
      refine State.putTime_moves (u := s) (fun he => ?_) hg
      have hacq : s.time.state = .acquiring := (Prod.mk.inj he).1
      rcases hst with hst | hst <;> exact absurd (hst.symm.trans hacq) (by decide)
    · intro e taken i steered n m
      have hj := RefEntry.judge_good hlast ⟨hlo, hhi⟩
      rw [hqual, Bool.true_or] at hj
      have hu := (hoffer hj).trans (TimeBase.setRef_rejudge (by exact hqual.symm) 0).1
      have huse := loopUses_selected (y := s.time.setRef 0 ((s.ref 0).arrived s.osc (min ((s.ref 0).good + 1) 3) true)) hsel
        htakes (by rw [TimeBase.setRef_ref, if_pos rfl]; rfl)
      have he : phaseError s.time.ns = e := rfl
      have hcorrect : ({ s.time.setRef 0 ((s.ref 0).arrived s.osc (min ((s.ref 0).good + 1) 3) true) with
        lastError := e } : TimeBase).correct e = steered := rfl
      refine ⟨fun hlim => ?_, fun hlim hleft hacq hg => ?_⟩
      · have steers {z : TimeBase} (hz : steered.countLock e = z) :=
          State.ppsEdge_steers hu huse rfl rfl he hlim ((congrArg (TimeBase.countLock · e) hcorrect).trans hz)
        have hacq (hst : s.time.state = .acquiring) := TimeBase.countLock_acquiring (x := steered) hst e
        have hlock (hst : s.time.state = .locked) := TimeBase.countLock_locked (x := steered) hst e
        refine ⟨fun hst hin => row ?_, fun hst hin hn => row ?_, fun hst hin hn => row ?_, fun hst hout => row ?_,
          fun hst hout hm => row ?_, fun hst hout hm hg => row ?_⟩
        · exact (steers ((hlock hst).trans (if_pos hin))).1 rfl rfl
        · exact (steers ((hacq hst).trans ((if_pos hin).trans (if_neg (Nat.not_le.mpr hn))))).1 rfl rfl
        · refine (steers ((hacq hst).trans ((if_pos hin).trans (if_pos hn)))).2 (fun he => ?_) fun i => Nat.zero_le _
          have hl : s.time.state = .locked := (Prod.mk.inj he).1
          exact absurd (hst.symm.trans hl) (by decide)
        · exact (steers ((hacq hst).trans (if_neg (Nat.not_le.mpr hout)))).1 rfl rfl
        · exact (steers ((hlock hst).trans ((if_neg (Nat.not_le.mpr hout)).trans (if_neg (Nat.ne_of_lt hm))))).1 rfl rfl
        · have hz := (hlock hst).trans ((if_neg (Nat.not_le.mpr hout)).trans (if_pos hm))
          have hm4 : min (steered.unlockRun + 1) 4 = 4 := hm
          rw [hm4] at hz
          refine (steers hz).2 (fun he => ?_) hg
          have ha : s.time.state = .acquiring := (Prod.mk.inj he).1
          exact absurd (hst.symm.trans ha) (by decide)
      · intro stepped turned after
        have hjump := State.ppsEdge_jumps hu huse rfl rfl rfl he hlim hleft hacq hg rfl
        obtain ⟨hlevel, hcarry⟩ := hjump
        refine ⟨fun hpos => row ?_, fun hneg => row ?_⟩
        · refine hlevel ?_
          have he' : e = if s.time.ns < 500000000 then (s.time.ns : Int) else (s.time.ns : Int) - 1000000000 := rfl
          split at he' <;> omega
        · refine (hcarry ?_).trans ?_
          · have he' : e = if s.time.ns < 500000000 then (s.time.ns : Int) else (s.time.ns : Int) - 1000000000 := rfl
            split at he' <;> omega
          · rfl
  · intro u gone expired
    have hexpired : u.time.watchExpire k = expired := rfl
    have hrow {x' : State} (hx' : (u.watchEnds k).apart = x') : ∃ t, exec (.referenceWatchExpiry k) s = .next t ∧ t.apart = x' := by
      refine work_apart hq (by split <;> simp [State.watchEnds]) ?_
      rw [hx]
      exact hx'
    refine ⟨fun hqual => hrow ?_, fun hqual hno hsel hst hg => hrow ?_⟩
    · exact State.watchEnds_unqualified hqual
    · exact State.watchEnds_holdover hqual hno hsel hst hg

end Sys2Proof.Machine
end

section
/-! SUPPORT. Cycle entries judged and written back (O57). -/

namespace Sys2Proof.Machine

open Sys2Proof

variable {s t u g : State} {a b x : Addr} {v w0 : Word} {ws : List Word} {i : Slot} {p : Plane} {choice : PlaneChoice}

/-! ## The judgement by kind (R138) -/

theorem cycleJudge_stop (h : field (ws.getD 0 0) 0 4 = 0) : u.cycleJudge a ws = u.cycleEnds := by
  unfold State.cycleJudge EntryKind.ofWord
  rw [h]
  rfl

theorem cycleJudge_gap (h : field (ws.getD 0 0) 0 4 = 1) : u.cycleJudge a ws =
    if (ws.getD 2 0).toNat ≤ 1000000 then u.enterRun a ws (.gap (u.osc + max 1 (ws.getD 2 0).toNat * 100))
    else u.cycleFault .illegalField := by
  unfold State.cycleJudge EntryKind.ofWord
  rw [h]
  rfl

theorem cycleJudge_boundary (h : field (ws.getD 0 0) 0 4 = 2) : u.cycleJudge a ws =
    if boundaryPeriods.contains (ws.getD 2 0).toNat
    then u.enterRun a ws (.boundary (boundaryDistance (ws.getD 2 0).toNat u.time.ns)) else u.cycleFault .illegalField := by
  unfold State.cycleJudge EntryKind.ofWord
  rw [h]
  rfl

/-- R140, R141: what a zero-time entry does when its run allows it. -/
def State.zeroEntry (s : State) (kind : Nat) (a : Addr) (ws : List Word) : State :=
  match kind with
  | 3 => s.cycleGo (branchAddr ws)
  | 4 => s.cycleCall a (branchAddr ws)
  | 5 => s.cycleReturn
  | _ => s.cycleNotify a (ws.getD 2 0)

theorem cycleJudge_zero {kind : Nat} (hk : kind = 3 ∨ kind = 4 ∨ kind = 5 ∨ kind = 8) (h : field (ws.getD 0 0) 0 4 = kind) :
    u.cycleJudge a ws = u.zeroTime (State.zeroEntry · kind a ws) := by
  unfold State.cycleJudge EntryKind.ofWord
  rw [h]
  obtain rfl | rfl | rfl | rfl := hk <;> rfl

theorem cycleJudge_poll (h : field (ws.getD 0 0) 0 4 = 6) : u.cycleJudge a ws = u.cyclePoll a ws := by
  unfold State.cycleJudge EntryKind.ofWord
  rw [h]
  rfl

theorem cycleJudge_time (h : field (ws.getD 0 0) 0 4 = 7) : u.cycleJudge a ws = u.cycleTime a ws := by
  unfold State.cycleJudge EntryKind.ofWord
  rw [h]
  rfl

theorem cycleJudge_unknown (h : 8 < field (ws.getD 0 0) 0 4) : u.cycleJudge a ws = u.cycleFault .illegalKind := by
  have hnone : EntryKind.ofWord (ws.getD 0 0) = none := by
    unfold EntryKind.ofWord
    split <;> first | omega | rfl
  unfold State.cycleJudge
  rw [hnone]

theorem boundaryPeriods_iff (n : Nat) : boundaryPeriods.contains n = true ↔
    n ∈ [1, 2, 4, 5, 8, 10, 20, 25, 40, 50, 100, 125, 200, 250, 500, 1000] := List.contains_iff_mem

theorem PlaneChoice.ofNat_none (h : field w0 16 2 = 3) : PlaneChoice.ofNat (field w0 16 2) = none := by
  rw [h]
  rfl

theorem PlaneChoice.ofNat_some
    (h : field w0 16 2 = (match choice with | .active => 0 | .named .a => 1 | .named .b => 2)) :
    PlaneChoice.ofNat (field w0 16 2) = some choice := by
  rw [h]
  obtain _ | _ | _ := choice <;> rfl

theorem cyclePoll_illegal (h : field (ws.getD 0 0) 8 4 = 0 ∨ 12 < field (ws.getD 0 0) 8 4 ∨ field (ws.getD 0 0) 16 2 = 3) :
    u.cyclePoll a ws = u.cycleFault .illegalField := by
  unfold State.cyclePoll
  dsimp only
  obtain hn | hc := or_assoc.mpr h
  · rw [slotOf_none hn]
  · rw [PlaneChoice.ofNat_none hc]
    cases slotOf (field (ws.getD 0 0) 8 4) <;> rfl

theorem cycleTime_illegal (h : field (ws.getD 0 0) 8 4 = 0 ∨
    12 < field (ws.getD 0 0) 8 4 ∧ field (ws.getD 0 0) 8 4 ≠ 15 ∨ field (ws.getD 0 0) 16 2 = 3) :
    u.cycleTime a ws = u.cycleFault .illegalField := by
  unfold State.cycleTime
  dsimp only
  obtain hn | hc := or_assoc.mpr h
  · have hone : ((none : Option Slot).isSome || decide (field (ws.getD 0 0) 8 4 = 15)) = false := by
      rw [Option.isSome_none, Bool.false_or, decide_eq_false_iff_not]
      omega
    rw [slotOf_none (by omega)]
    cases PlaneChoice.ofNat (field (ws.getD 0 0) 16 2) with
    | none => rfl
    | some c =>
      dsimp only
      rw [hone]
      rfl
  · rw [PlaneChoice.ofNat_none hc]

theorem slotOf_value {n : Nat} (h : n = i.val + 1) : slotOf n = some i := by
  rw [h]
  exact slotOf_portOf i

/-! ## Zero-time entries (R140 to R142) -/

theorem State.zeroTime_runaway {go : State → State} (h : 63 ≤ u.cyc.zeroRun) : u.zeroTime go =
    (u.setCyc { u.cyc with zeroRun := u.cyc.zeroRun + 1 }).cycleFault .runaway := by
  unfold State.zeroTime
  exact if_pos (by exact Nat.succ_le_succ h)

theorem State.zeroTime_goes {go : State → State} (h : u.cyc.zeroRun < 63) : u.zeroTime go =
    go (u.setCyc { u.cyc with zeroRun := u.cyc.zeroRun + 1 }) := by
  unfold State.zeroTime
  exact if_neg (by exact Nat.not_le.mpr (Nat.succ_lt_succ h))

theorem cycleCall_pushes (h : u.cyc.stack.length < 4) : u.cycleCall a x =
    ({ u with cyc := { u.cyc with stack := (a + 8) :: u.cyc.stack } } : State).cycleGo x := if_pos h

theorem cycleCall_full (h : 4 ≤ u.cyc.stack.length) : u.cycleCall a x = u.cycleFault .stack := if_neg (Nat.not_lt.mpr h)

theorem cycleReturn_pops {rest : List Addr} (h : u.cyc.stack = x :: rest) : u.cycleReturn =
    ({ u with cyc := { u.cyc with stack := rest } } : State).cycleGo x := by
  unfold State.cycleReturn
  rw [h]

theorem cycleReturn_empty (h : u.cyc.stack = []) : u.cycleReturn = u.cycleFault .stack := by
  unfold State.cycleReturn
  rw [h]

/-! ## A frame submitted to an idle lane (R49, R50) -/

theorem State.controlBytes_setLane (s : State) (i j : Slot) (p q : Plane) (l : LanePort) (k : CtlKind) :
    (s.setLane i p l).controlBytes j q k = s.controlBytes j q k := by
  cases k <;> rfl

/-- R49, R50: a lane that is UP and has nothing to send starts a frame submitted to it at once. -/
theorem State.submit_idle {f : CtlFrame} (hl : (u.lane i p).state = .up) (hq : (u.lane i p).queue = [])
    (ht : (u.lane i p).tx = .none) : u.submit i p f =
      ((u.setLane i p { u.lane i p with tx := .control f (u.controlBytes i p f.kind) }).reportStart f, true) := by
  unfold State.submit
  dsimp only
  rw [if_pos (by rw [hl, hq]; rfl)]
  refine Prod.ext ?_ rfl
  unfold State.kickLane
  dsimp only
  simp only [State.lane_setLane_self, hl, hq, ht, decide_true, Bool.and_self, if_true, List.nil_append,
    State.controlBytes_setLane, State.setLane_setLane]

/-! ## A poll begins (R145) -/

/-- 12.4: the plane a choice names, for a slot with its active plane. -/
def PlaneChoice.on (c : PlaneChoice) (active : Plane) : Plane :=
  match c with
  | .active => active
  | .named p => p

theorem State.pollGo_absent {fuel : Nat} {w : PollWork} (h : (u.slot w.slot).state ≠ .admitted) :
    State.pollGo (fuel + 1) u a ws w = u.pollAbsent a ws w := by
  unfold State.pollGo
  exact if_pos h

/-- R145: the first attempt of an entry is made on the plane it names. -/
theorem PollWork.nextPlane_first {w : PollWork} (hf : w.first = none) (hm : w.made = 0) (active : Plane) :
    w.nextPlane active = w.choice.on active := by
  unfold PollWork.nextPlane
  rw [hf, hm]
  obtain hc | q := w.choice
  · cases w.alternate <;> rfl
  · cases w.alternate <;> rfl

/-- R54, R145: an attempt that starts at once has its start stamp. -/
theorem PollWork.begin_started (w : PollWork) (p : Plane) (n tag : Nat) (z : Stamp) : (w.begin p n tag).started tag z =
    { w with
      first := some (w.first.getD p), made := w.made + 1
      cur := some { plane := p, number := n, tag := tag, t1 := some z, sent := false, timeout := none } } := by
  unfold PollWork.begin PollWork.started
  exact if_pos rfl

/-- R145: an attempt whose lane is free starts at once. -/
theorem State.pollGo_starts {fuel : Nat} {w : PollWork} (ha : (u.slot w.slot).state = .admitted)
    (hp : w.nextPlane (u.slot w.slot).active = p) (hl : (u.lane w.slot p).state = .up)
    (hq : (u.lane w.slot p).queue = []) (ht : (u.lane w.slot p).tx = .none) :
    State.pollGo (fuel + 1) u a ws w =
      { u.setLane w.slot p { u.lane w.slot p with
          tx := .control ⟨.poll u.cyc.pollNumber, .cycle u.cyc.tag⟩
            (controlFrame w.slot .poll (pollPayload u.cyc.pollNumber)) } with
        cyc := { u.cyc with
          pollNumber := (u.cyc.pollNumber + 1) % 65536, tag := u.cyc.tag + 1
          counters := { u.cyc.counters with attempts := inc32 u.cyc.counters.attempts }
          entry := some ⟨a, .run ws (.poll { w with
            first := some (w.first.getD p), made := w.made + 1
            cur := some { plane := p, number := u.cyc.pollNumber, tag := u.cyc.tag
                          t1 := some u.stamp, sent := false, timeout := none } })⟩ } } := by
  unfold State.pollGo
  rw [if_neg (not_not.mpr ha)]
  dsimp only
  rw [hp, State.submit_idle (by exact hl) (by exact hq) (by exact ht), if_pos rfl]
  unfold State.reportStart State.setPoll
  dsimp only
  rw [show ∀ z : State, ∀ l, (z.setLane w.slot p l).cyc = z.cyc from fun _ _ => rfl]
  dsimp only
  rw [PollWork.begin_started]
  rfl

/-! ## Results without a frame (R149, R151) -/

/-- The words of an ABSENT result (assumption logs 10 and 44). -/
theorem State.endEntry_absent {present : Nat} {r : RttField}
    (h5 : u.resultWord5 r = wordOf (2 ^ 31 * present + (Config.freeRtt u.draws).toNat)) :
    u.endEntry a ws { outcome := .absent, attempts := 0, plane := none, flags := none, codes := none, rtt := r, next := a + 8 }
      = { u with
          cyc := { u.cyc with entry := some ⟨a, .writeBack ws
            { w4 := wordOf (7 + 2 ^ 12 * (if Config.freePlane u.draws then 1 else 0) + 2 ^ 16 * (Config.freeFlags u.draws).toNat
                + 2 ^ 24 * (Config.freeCodes u.draws).val)
              w5 := wordOf (2 ^ 31 * present + (Config.freeRtt u.draws).toNat), w6 := wordOf u.time.sec
              w7 := wordOf u.time.ns, n := 0, next := a + 8 }⟩ }
          draws := u.draws + 1 } := by
  unfold State.endEntry
  dsimp only
  rw [h5]
  rfl

theorem State.resultWord5_noSample (u : State) :
    u.resultWord5 .noSample = wordOf (2 ^ 31 * 0 + (Config.freeRtt u.draws).toNat) := rfl

theorem State.resultWord5_unstated (u : State) : u.resultWord5 .unstated =
    wordOf (2 ^ 31 * (if Config.freeRttPresent u.draws then 1 else 0) + (Config.freeRtt u.draws).toNat) := rfl

/-! ## A TIME entry for one slot (R151) -/

/-- R151: the slots of a TIME entry for one slot. -/
theorem timeTargets_slot {n : Nat} (hn : n = i.val + 1) :
    (if n = 15 then allSlots.filter (fun i => (u.slot i).serving)
      else match slotOf n with
        | some i => if (u.slot i).state = .admitted then [i] else []
        | none => []) = if (u.slot i).state = .admitted then [i] else [] := by
  have h15 : n ≠ 15 := by
    have := i.isLt
    omega
  rw [if_neg h15, slotOf_value hn]

theorem State.timeRun_absent {target : Nat} (hn : target = i.val + 1) (ha : (u.slot i).state ≠ .admitted) :
    u.timeRun a ws target choice =
      ({ u with cyc := { u.cyc with tag := u.cyc.tag + 1 } } : State).endEntry a ws (timeResult .absent 0 none a) := by
  unfold State.timeRun
  extract_lets targets w c s1 r
  have ht : targets = [] := (timeTargets_slot hn).trans (if_neg ha)
  rw [ht]
  rfl

/-- R151: a TIME frame submitted to an idle lane starts at once. -/
theorem State.timeSubmit_starts {w : TimeWork} (hp : choice.on (u.slot i).active = p) (hl : (u.lane i p).state = .up)
    (hq : (u.lane i p).queue = []) (ht : (u.lane i p).tx = .none) : State.timeSubmit choice (u, w) i =
      (u.setLane i p { u.lane i p with tx := .control ⟨.time, .cycle w.tag⟩ (u.controlBytes i p .time) },
        { w with awaited := w.awaited + 1, plane := some p }) := by
  have hc : State.timeSubmit choice (u, w) i =
      if (u.submit i (choice.on (u.slot i).active) ⟨.time, .cycle w.tag⟩).2
      then ((u.submit i (choice.on (u.slot i).active) ⟨.time, .cycle w.tag⟩).1,
        { w with awaited := w.awaited + 1, plane := some (choice.on (u.slot i).active) })
      else ((u.submit i (choice.on (u.slot i).active) ⟨.time, .cycle w.tag⟩).1.countTimeNotSent,
        { w with notSent := w.notSent + 1, plane := some (choice.on (u.slot i).active) }) := by
    cases choice <;> rfl
  rw [hc, hp, State.submit_idle hl hq ht]
  rfl

theorem State.timeRun_starts {target : Nat} (hn : target = i.val + 1) (hp : choice.on (u.slot i).active = p)
    (ha : (u.slot i).state = .admitted) (hl : (u.lane i p).state = .up) (hq : (u.lane i p).queue = [])
    (ht : (u.lane i p).tx = .none) : (u.timeRun a ws target choice).apart = ({ u.setLane i p { u.lane i p with
        tx := .control ⟨.time, .cycle u.cyc.tag⟩ (u.controlBytes i p .time) } with
      cyc := { u.cyc with
        tag := u.cyc.tag + 1
        entry := some ⟨a, .run ws (.time
          { tag := u.cyc.tag, awaited := 1, sent := 0, notSent := 0, plane := some p })⟩ } } : State).apart := by
  unfold State.timeRun
  extract_lets targets w c s1 r
  have htargets : targets = [i] := (timeTargets_slot hn).trans (if_pos ha)
  have hr : r = State.timeSubmit choice (s1, w) i := by
    unfold r
    rw [htargets]
    rfl
  rw [if_neg (by rw [htargets]; exact Bool.false_ne_true), hr,
    State.timeSubmit_starts (u := s1) (w := w) hp hl hq ht]
  rfl

/-- The values with which a POLL entry enters RUN (R138). -/
def pollEntry (w : Word) (i : Slot) (c : PlaneChoice) : PollWork :=
  { slot := i, retries := field w 12 2, choice := c, alternate := bit w 18, conditions := w.extractLsb' 24 6
    branch := bit w 19, first := none, made := 0, log := [], cur := none }

theorem cyclePoll_starts (hi : slotOf (field (ws.getD 0 0) 8 4) = some i)
    (hc : PlaneChoice.ofNat (field (ws.getD 0 0) 16 2) = some choice) : u.cyclePoll a ws =
      (u.enterRun a ws (.poll (pollEntry (ws.getD 0 0) i choice))).pollGo pollFuel a ws
        (pollEntry (ws.getD 0 0) i choice) := by
  unfold State.cyclePoll
  dsimp only
  rw [hi, hc]
  rfl

theorem cycleTime_runs (hi : slotOf (field (ws.getD 0 0) 8 4) = some i)
    (hc : PlaneChoice.ofNat (field (ws.getD 0 0) 16 2) = some choice) : u.cycleTime a ws =
      (u.enterRun a ws (.time { tag := u.cyc.tag, awaited := 0, sent := 0, notSent := 0, plane := none })).timeRun a ws
        (field (ws.getD 0 0) 8 4) choice := by
  unfold State.cycleTime
  dsimp only
  rw [hi, hc]
  rfl

/-! ## The rows (R138, R139) -/

/-- R138: the fourth word of an entry completes: the entry is judged. -/
theorem fetch_row {w1 w2 : Word} {y : State} (hq : s.busQuiet) (hh : s.path.holder = some (.word ⟨.cycle, .cycle, .read b⟩))
    (he : s.cyc.entry = some ⟨a, .fetch [w0, w1, w2]⟩)
    (hx : (s.release.cycleJudge a [w0, w1, w2, Memory.readWord s.mem b]).apart = y.apart) :
    ∃ t, exec .cycleEntryFetchDone s = .next t ∧ t.apart = y.apart := by
  refine awaited_apart (p := fetchLast) hq hh ?_ ?_
  · unfold fetchLast
    rw [he]
    rfl
  · rw [State.complete_word hh, ← hx]
    change (s.release.cycleRead (Memory.readWord s.mem b)).apart = _
    have he' : s.release.cyc.entry = some ⟨a, .fetch [w0, w1, w2]⟩ := he
    unfold State.cycleRead
    rw [he']
    rfl

/-- R139: result word 4 completes: the walk goes on, or ends. -/
theorem written_row {wb : WriteBack} {y : State} (hq : s.busQuiet)
    (hh : s.path.holder = some (.word ⟨.cycle, .cycle, .write x v⟩)) (he : s.cyc.entry = some ⟨a, .writeBack ws wb⟩)
    (hn : wb.n = 3)
    (hx : (({ s.release with mem := Memory.writeWord s.mem x v allBytes } : State).cycleMovesOn wb.next).apart = y.apart) :
    ∃ t, exec .cycleWriteBackDone s = .next t ∧ t.apart = y.apart := by
  refine awaited_apart (p := writeBackLast) hq hh ?_ ?_
  · unfold writeBackLast
    rw [he]
    dsimp only
    rw [hn]
    rfl
  · rw [State.complete_word hh, ← hx]
    change ({ s.release with mem := Memory.writeWord s.mem x v allBytes } : State).cycleWritten.apart = _
    generalize Memory.writeWord s.mem x v allBytes = m
    have he' : ({ s.release with mem := m } : State).cyc.entry = some ⟨a, .writeBack ws wb⟩ := he
    unfold State.cycleWritten
    rw [he']
    dsimp only
    rw [if_neg (by omega)]

/-! ## O57 -/

/-- R137, R142: the walk goes to an address, by where an entry may stand (`g` works on a released port). -/
theorem State.cycleGo_apart (hg : g.apart = t.apart) (hz : g.path.touchesKept x.toNat 8 = t.path.touchesKept x.toNat 8) :
    (x.toNat % 8 = 0 → t.path.touchesKept x.toNat 8 = false → (g.cycleGo x).apart =
      ({ t with cyc := { t.cyc with cur := x, entry := some ⟨x, .fetch []⟩ } } : State).apart) ∧
    (x.toNat % 8 ≠ 0 ∨ t.path.touchesKept x.toNat 8 = true → (g.cycleGo x).apart =
      (State.withCauses { t with cyc := { t.cyc with
        cur := x, state := .faulted, fault := .illegalAddress, entry := none
        counters := { t.cyc.counters with faults := min (t.cyc.counters.faults + 1) 4294967295 } } } 0x100).apart) := by
  refine ⟨fun h8 hk => ?_, fun h => ?_⟩
  · rw [State.cycleGo_fetches (State.entryAddrOk_iff.mpr ⟨h8, hz.trans hk⟩), hg]
    rfl
  · have hno : g.entryAddrOk x = false := by
      rw [Bool.eq_false_iff, Ne, State.entryAddrOk_iff, hz]
      rintro ⟨h8, hk⟩
      rw [hk] at h
      exact h.elim (· h8) (nomatch ·)
    rw [State.cycleGo_faults hno, hg, State.cycleFault_apart]
    rfl

/-- Settles O57: each kind of entry by its own branch of the judgement, and the walk after the last result word. -/
theorem entryJudgedAndWrittenBack : Obligations.EntryJudgedAndWrittenBack := by
  unfold Obligations.EntryJudgedAndWrittenBack
  refine ⟨fun a b w0 w1 w2 s hq hh he => ?_, fun a x v ws b s hq hh he hn => ?_⟩
  · have row {y : State} := fetch_row (y := y) hq hh he
    generalize hws : [w0, w1, w2, Memory.readWord s.mem b] = ws at row
    have h0 : ws.getD 0 0 = w0 := by rw [← hws]; rfl
    have h1 : branchAddr ws = w1.extractLsb' 0 20 := by rw [← hws]; rfl
    have h2 : ws.getD 2 0 = w2 := by rw [← hws]; rfl
    intro ws' kind target number ends faulted goes runs absent zero
    have halt (k : CycleFaultKind) (h : s.release.cycleJudge a ws = s.release.cycleFault k) : faulted k s := by
      refine row ?_
      rw [h, State.cycleFault_apart]
      rfl
    have run {w : Work} (h : s.release.cycleJudge a ws = s.release.enterRun a ws w) : runs w := by
      refine row ?_
      rw [h]
      rfl
    have zeroKind {k : Nat} (hk : k = 3 ∨ k = 4 ∨ k = 5 ∨ k = 8) (h : kind = k) :=
      cycleJudge_zero (u := s.release) (a := a) (ws := ws) hk (h0.symm ▸ h)
    have go {u g : State} {x : Addr} (h : s.release.cycleJudge a ws = g.cycleGo x) (hg : g.apart = u.apart)
        (hz : g.path.touchesKept x.toNat 8 = u.path.touchesKept x.toNat 8)
        (hs : u.path.touchesKept x.toNat 8 = s.path.touchesKept x.toNat 8) : goes u x := by
      obtain ⟨hok, hbad⟩ := State.cycleGo_apart hg hz
      exact ⟨fun h8 hk => row ((congrArg State.apart h).trans (hok h8 (hs.trans hk))),
        fun hn => row ((congrArg State.apart h).trans (hbad (hs.symm ▸ hn)))⟩
    refine ⟨fun hk => ?_, fun hk => ?_, fun hk hv => ?_, fun hk hv => ?_, fun h => ?_, fun hk hz => ?_,
      fun hz => ⟨fun hk => ?_, fun hk hs => ?_, fun h => ?_, fun top rest hk hs => ?_, fun hk => ?_⟩,
      fun i choice hn hc => ?_⟩
    · refine row ?_
      rw [cycleJudge_stop (h0.symm ▸ hk), State.cycleEnds_apart]
      rfl
    · exact halt _ (cycleJudge_unknown (h0.symm ▸ hk))
    · refine run ?_
      rw [cycleJudge_gap (h0.symm ▸ hk), h2, if_pos hv]
      rfl
    · refine run ?_
      rw [cycleJudge_boundary (h0.symm ▸ hk), h2, if_pos ((boundaryPeriods_iff _).mpr hv)]
      rfl
    · refine halt _ ?_
      obtain ⟨hk, hv⟩ | ⟨hk, hv⟩ | ⟨hk, hv⟩ | ⟨hk, hv⟩ := h
      · rw [cycleJudge_gap (h0.symm ▸ hk), h2, if_neg (Nat.not_le.mpr hv)]
      · rw [cycleJudge_boundary (h0.symm ▸ hk), h2, if_neg (fun h => hv ((boundaryPeriods_iff _).mp h))]
      · rw [cycleJudge_poll (h0.symm ▸ hk), cyclePoll_illegal (h0.symm ▸ hv)]
      · rw [cycleJudge_time (h0.symm ▸ hk), cycleTime_illegal (h0.symm ▸ hv)]
    · refine row ?_
      rw [zeroKind hk rfl, State.zeroTime_runaway (by exact hz), State.cycleFault_apart]
      rfl
    · exact go (((zeroKind (.inl rfl) hk).trans (State.zeroTime_goes (by exact hz))).trans
        (congrArg (State.cycleGo (s.release.setCyc { s.cyc with zeroRun := s.cyc.zeroRun + 1 })) h1)) rfl rfl rfl
    · exact go (((zeroKind (.inr (.inl rfl)) hk).trans (State.zeroTime_goes (by exact hz))).trans
        ((cycleCall_pushes (by exact hs)).trans (congrArg _ h1))) rfl rfl rfl
    · have hs : s.release.cycleJudge a ws
          = (s.release.setCyc { s.release.cyc with zeroRun := s.release.cyc.zeroRun + 1 }).cycleFault .stack := by
        obtain ⟨hk, hs⟩ | ⟨hk, hs⟩ := h
        · exact ((zeroKind (.inr (.inl rfl)) hk).trans (State.zeroTime_goes (by exact hz))).trans (cycleCall_full (by exact hs))
        · exact ((zeroKind (.inr (.inr (.inl rfl))) hk).trans (State.zeroTime_goes (by exact hz))).trans
            (cycleReturn_empty (by exact hs))
      refine row ?_
      rw [hs, State.cycleFault_apart]
      rfl
    · exact go (((zeroKind (.inr (.inr (.inl rfl))) hk).trans (State.zeroTime_goes (by exact hz))).trans
        (cycleReturn_pops (by exact hs))) rfl rfl rfl
    · exact go (((zeroKind (.inr (.inr (.inr rfl))) hk).trans (State.zeroTime_goes (by exact hz))).trans
        (congrArg (State.cycleNotify a · (s.release.setCyc { s.cyc with zeroRun := s.cyc.zeroRun + 1 })) h2)) rfl rfl rfl
    · intro p l starts
      have hnum : field (ws.getD 0 0) 8 4 = i.val + 1 := h0.symm ▸ hn
      have hslot : slotOf (field (ws.getD 0 0) 8 4) = some i := slotOf_value hnum
      have hplane : PlaneChoice.ofNat (field (ws.getD 0 0) 16 2) = some choice := PlaneChoice.ofNat_some (h0.symm ▸ hc)
      have hp : choice.on (s.slot i).active = p := by cases choice <;> rfl
      refine ⟨fun hk => ?_, fun hk => ?_⟩
      · have hj := (cycleJudge_poll (u := s.release) (a := a) (h0.symm ▸ hk)).trans (cyclePoll_starts hslot hplane)
        refine ⟨fun ha => row ?_, fun ha hl hq ht => row ?_⟩
        · rw [hj, pollFuel, State.pollGo_absent (by exact ha)]
          unfold State.pollAbsent State.pollResult
          rw [if_neg (by simp [AttemptOutcome.meets])]
          exact (congrArg State.apart (State.endEntry_absent (State.resultWord5_noSample _))).trans rfl
        · rw [hj, pollFuel, State.pollGo_starts (p := p) (by exact ha)
            ((PollWork.nextPlane_first rfl rfl _).trans hp) (by exact hl) (by exact hq) (by exact ht), ← h0]
          rfl
      · have hj := (cycleJudge_time (u := s.release) (a := a) (h0.symm ▸ hk)).trans (cycleTime_runs hslot hplane)
        refine ⟨fun ha => row ?_, fun ha hl hq ht => row ?_⟩
        · rw [hj, State.timeRun_absent hnum (by exact ha)]
          exact (congrArg State.apart (State.endEntry_absent (State.resultWord5_unstated _))).trans rfl
        · rw [hj, State.timeRun_starts hnum (by exact hp) (by exact ha) (by exact hl) (by exact hq) (by exact ht)]
          rfl
  · extract_lets m
    have row {y : State} := written_row (y := y) hq hh he hn
    refine ⟨fun hs h8 hk => row ?_, fun o hs ho hc => row ?_⟩
    · unfold State.cycleMovesOn
      rw [if_neg (by exact hs)]
      exact (State.cycleGo_apart (g := { s.release with mem := m }) (t := { s with mem := m }) rfl rfl).1 h8 hk
    · unfold State.cycleMovesOn
      rw [if_pos (by exact hs), State.finishIf_executing (o := o) (by exact ho), if_pos hc]
      rfl

end Sys2Proof.Machine
end

section
/-! SUPPORT. What passing time and flushes leave of the cycle engine, and the ends of work in RUN (O58). -/

namespace Sys2Proof.Machine

open Sys2Proof

variable {s t u v : State} {a : Addr} {ws : List Word} {w : PollWork} {c : Attempt} {i : Slot} {x : TimeBase}

/-! ## The cycle engine but for a start stamp -/

def Attempt.unstamped (c : Attempt) : Attempt := { c with t1 := none }

/-- A poll's work but for the start stamp of the attempt in progress (R54). -/
def PollWork.unstamped (w : PollWork) : PollWork := { w with cur := w.cur.map Attempt.unstamped }

def Work.unstamped : Work → Work
  | .poll w => .poll w.unstamped
  | x => x

def EntryPhase.unstamped : EntryPhase → EntryPhase
  | .run ws x => .run ws x.unstamped
  | x => x

/-- The cycle engine but for the start stamp of an attempt in progress. -/
def CycleEngine.unstamped (c : CycleEngine) : CycleEngine :=
  { c with entry := c.entry.map fun e => { e with phase := e.phase.unstamped } }

/-- What flushes and a change of the quality leave of the cycle engine and of the transmit movement. -/
def State.walk (s : State) : CycleEngine × Bool := (s.cyc.unstamped, s.ring.tx.isSome)

theorem foldl_walk {α : Type} {f : State → α → State} (h : ∀ s x, (f s x).walk = s.walk) (l : List α) (s : State) :
    (l.foldl f s).walk = s.walk := by
  induction l generalizing s with
  | nil => rfl
  | cons x l ih => rw [List.foldl_cons, ih, h]

theorem PollWork.started_unstamped (w : PollWork) (tag : Nat) (z : Stamp) : (w.started tag z).unstamped = w.unstamped := by
  unfold PollWork.started
  obtain ⟨slot, retries, choice, alternate, conditions, branch, first, made, log, _ | c⟩ := w
  · rfl
  · dsimp only
    split <;> rfl

@[simp] theorem State.reportStart_walk (s : State) (f : CtlFrame) : (s.reportStart f).walk = s.walk := by
  unfold State.reportStart
  split
  · rename_i he
    unfold State.walk CycleEngine.unstamped
    dsimp only
    rw [he]
    simp only [Option.map_some, EntryPhase.unstamped, Work.unstamped, PollWork.started_unstamped]
  · rfl

@[simp] theorem State.kickLane_walk (s : State) (i : Slot) (p : Plane) : (s.kickLane i p).walk = s.walk := by
  unfold State.kickLane State.startData
  dsimp only
  split
  · split
    · exact State.reportStart_walk ..
    · split
      · split <;> rfl
      · rfl
  · rfl

@[simp] theorem State.kickSlot_walk (s : State) (i : Slot) : (s.kickSlot i).walk = s.walk := by
  rw [State.kickSlot, State.kickLane_walk, State.kickLane_walk]

@[simp] theorem State.roomReport_walk (s : State) : s.roomReport.walk = s.walk := by
  unfold State.walk State.roomReport
  dsimp only
  rw [Option.isSome_map]

@[simp] theorem State.dropClaim_walk (s : State) (id : Nat) : (s.dropClaim id).walk = s.walk := by
  unfold State.dropClaim
  dsimp only
  split
  · exact State.roomReport_walk _
  · rfl

@[simp] theorem State.abandonTx_walk (i : Slot) (c : Cls) (s : State) (p : Plane) : (State.abandonTx i c s p).walk = s.walk := by
  unfold State.abandonTx
  dsimp only
  split
  · split
    · exact State.dropClaim_walk ..
    · rfl
  · rfl

@[simp] theorem State.emptyQueue_walk (i : Slot) (s : State) (c : Cls) : (State.emptyQueue i s c).walk = s.walk := by
  unfold State.emptyQueue
  dsimp only
  split
  · rfl
  · exact (State.roomReport_walk _).trans (foldl_walk (fun s p => State.abandonTx_walk i c s p) _ s)

@[simp] theorem State.flush_walk (s : State) (i : Slot) (cs : List Cls) : (s.flush i cs).walk = s.walk := by
  rw [State.flush, State.kickSlot_walk, foldl_walk (fun s c => State.emptyQueue_walk i s c)]

@[simp] theorem State.takeQuality_walk (s : State) (q : Nat) : (s.takeQuality q).walk = s.walk :=
  foldl_walk (fun s i => by split <;> simp) _ _

@[simp] theorem State.putTime_walk (s : State) (x : TimeBase) : (s.putTime x).walk = s.walk := by
  unfold State.putTime
  dsimp only
  split
  · rfl
  · exact State.takeQuality_walk _ _

@[simp] theorem State.carry_walk (s : State) : s.carry.walk = s.walk := by
  have hr (u : State) : u.rollover.walk = u.walk := State.putTime_walk u _
  have ht (x : TimeBase) : ({ s with time := x } : State).walk = s.walk := rfl
  unfold State.carry
  split
  · rw [hr, ht]
  · rfl

/-! ## Passing time with no boundary wait in progress -/

theorem CycleEngine.left_unstamped (c : CycleEngine) : c.unstamped.left = c.left := by
  unfold CycleEngine.unstamped CycleEngine.left
  obtain _ | ⟨a, _ | ⟨ws, _ | _ | _ | _⟩ | _⟩ := c.entry <;> rfl

theorem State.boundaryLeft_of_walk (h : t.walk = s.walk) : t.boundaryLeft = s.boundaryLeft := by
  rw [State.boundaryLeft_eq, State.boundaryLeft_eq, ← CycleEngine.left_unstamped, ← CycleEngine.left_unstamped s.cyc]
  exact congrArg (fun w : CycleEngine × Bool => w.1.left) h

theorem State.walk_of_apart (h : s.apart = t.apart) : s.walk = t.walk := (congrArg State.walk h :)

theorem State.fillCommand_walk (s : State) : s.fillCommand.walk = s.walk := State.walk_of_apart s.fillCommand_apart

theorem State.stretch_walk (h : s.boundaryLeft = none) (k : Nat) : (s.stretch k).walk = s.walk := by
  have hg : (s.fillCommand.glide k).walk = s.walk := by
    rw [State.fillCommand_glides, State.fillCommand_walk, State.glide_still h]
    rfl
  have hc : (s.fillCommand.glide k).carry.walk = s.walk := (State.carry_walk _).trans hg
  unfold State.stretch
  rw [State.fillCommand_walk, State.boundaryElapsed_none ((State.boundaryLeft_of_walk hc).trans h), hc]

theorem State.runOsc_walk (fuel : Nat) (s : State) (n : Nat) (h : s.boundaryLeft = none) : (s.runOsc fuel n).walk = s.walk := by
  induction fuel generalizing s n with
  | zero => rfl
  | succ k ih =>
    unfold State.runOsc
    split
    · rfl
    · dsimp only
      have hs := State.stretch_walk h (min n (max 1 s.nextEvent))
      rw [ih _ _ ((State.boundaryLeft_of_walk hs).trans h), hs]

theorem State.advanceTo_walk (h : s.boundaryLeft = none) (n : Nat) : (s.advanceTo n).walk = s.walk := State.runOsc_walk _ _ _ h

theorem CycleEngine.unstamped_same {c : CycleEngine} (h : ∀ a ws w, c.entry ≠ some ⟨a, .run ws (.poll w)⟩) : c.unstamped = c := by
  obtain ⟨st, f, cur, stk, z, e, pn, tu, nt, k, tag⟩ := c
  obtain _ | ⟨a, _ | ⟨ws, _ | _ | w | _⟩ | _⟩ := e
  case some.run.poll => exact absurd rfl (h a ws w)
  all_goals rfl

/-- An entry that is not a poll is kept by what keeps the walk. -/
theorem CycleEngine.eq_of_unstamped {b c : CycleEngine} (h : b.unstamped = c.unstamped)
    (hc : ∀ a ws w, c.entry ≠ some ⟨a, .run ws (.poll w)⟩) : b = c := by
  rw [CycleEngine.unstamped_same hc] at h
  rw [← h]
  refine (CycleEngine.unstamped_same fun a ws w he => ?_).symm
  refine hc a ws w.unstamped ?_
  rw [← h]
  unfold CycleEngine.unstamped
  rw [he]
  rfl

/-- A poll in RUN is kept but for the start stamp of its attempt. -/
theorem CycleEngine.poll_of_unstamped {b d : CycleEngine} (h : b.unstamped = d.unstamped)
    (he : d.entry = some ⟨a, .run ws (.poll w)⟩) (hw : w.cur = some c) :
    ∃ w' c', b.entry = some ⟨a, .run ws (.poll w')⟩ ∧ w'.cur = some c' ∧ w'.unstamped = w.unstamped ∧
      c'.unstamped = c.unstamped := by
  have hentry : b.entry.map (fun e : EntryProg => { e with phase := e.phase.unstamped })
      = some ⟨a, .run ws (.poll w.unstamped)⟩ := by
    have := congrArg CycleEngine.entry h
    unfold CycleEngine.unstamped at this
    rw [he] at this
    exact this
  obtain ⟨⟨a', ph⟩, hb, heq⟩ := Option.map_eq_some_iff.mp hentry
  obtain _ | ⟨ws', _ | _ | w' | _⟩ | _ := ph
  case run.poll =>
    injection heq with ha hp
    injection hp with hws hwork
    injection hwork with hun
    have hcur : w'.cur.map Attempt.unstamped = w.cur.map Attempt.unstamped := congrArg PollWork.cur hun
    rw [hw] at hcur
    obtain ⟨c', hc', hcc⟩ := Option.map_eq_some_iff.mp hcur
    exact ⟨w', c', by rw [hb, ← hws, ← ha], hc', hun, hcc⟩
  all_goals simp [EntryPhase.unstamped, Work.unstamped] at heq

/-! ## The results of a wait (R139, R143, R144) -/

/-- The result words of a wait that ends with an outcome at a time; the draw gives the fields that a wait has not
(assumption logs 10 and 44). -/
def waitWords (outcome k : Nat) (y : TimeBase) (a : Addr) : WriteBack :=
  { w4 := wordOf (outcome + 2 ^ 12 * (if Config.freePlane k then 1 else 0) + 2 ^ 24 * (Config.freeCodes k).val)
    w5 := wordOf (Config.freeRtt k).toNat, w6 := wordOf y.sec, w7 := wordOf y.ns, n := 0, next := a + 8 }

theorem State.resultWord5_wait (u : State) : u.resultWord5 .noSample = wordOf (Config.freeRtt u.draws).toNat := by
  unfold State.resultWord5 rttWord flag
  simp

theorem State.endEntry_wait (u : State) (a : Addr) (ws : List Word) (o : EntryOutcome) :
    u.endEntry a ws (waitResult o a) = { u with
      cyc := { u.cyc with entry := some ⟨a, .writeBack ws (waitWords o.code u.draws u.time a)⟩ }, draws := u.draws + 1 } := by
  have h4 : u.resultWord4 (waitResult o a)
      = wordOf (o.code + 2 ^ 12 * (if Config.freePlane u.draws then 1 else 0) + 2 ^ 24 * (Config.freeCodes u.draws).val) := by
    unfold State.resultWord4 resultWord waitResult State.planeBit flag
    simp only [Option.getD_some, Option.getD_none]
    congr 1
  have h5 : u.resultWord5 (waitResult o a).rtt = wordOf (Config.freeRtt u.draws).toNat := u.resultWord5_wait
  unfold State.endEntry
  dsimp only
  rw [h4, h5]
  rfl

theorem State.endWait_gap {x : Nat} {o : EntryOutcome} (he : u.cyc.entry = some ⟨a, .run ws (.gap x)⟩) (ho : o ≠ .slipped) :
    u.endWait o = u.endEntry a ws (waitResult o a) := by
  unfold State.endWait
  rw [he]
  exact if_neg ho

theorem State.endWait_boundary {d : Int} {o : EntryOutcome} (he : u.cyc.entry = some ⟨a, .run ws (.boundary d)⟩) :
    u.endWait o = if o = .slipped
      then (u.endEntry a ws (waitResult o a)).setCyc { (u.endEntry a ws (waitResult o a)).cyc with
        counters := { u.cyc.counters with slips := inc32 u.cyc.counters.slips } }
      else u.endEntry a ws (waitResult o a) := by
  unfold State.endWait
  rw [he]
  rfl

/-! ## A boundary wait, one period after another (R114, R144) -/

theorem TimeBase.turn_clock (x : TimeBase) (n : Nat) :
    (x.turn n).ns = x.ns ∧ (x.turn n).residue = x.residue ∧ (x.turn n).trim = x.trim := by
  unfold TimeBase.turn TimeBase.holdOn
  cases x.pendingSet <;> dsimp only <;> split <;> exact ⟨rfl, rfl, rfl⟩

/-- R115: a carry takes a second off the ns, and leaves the counter's residue and trim. -/
theorem State.carry_clock (h : s.time.ns < 2000000000) : s.carry.time.ns = s.time.ns % 1000000000 ∧
    s.carry.time.residue = s.time.residue ∧ s.carry.time.trim = s.time.trim := by
  have hr (u : State) : u.rollover.time = u.time.turn u.osc := State.putTime_time u _
  have hsec : Config.second = 1000000000 := rfl
  unfold State.carry
  split
  · rename_i hge
    rw [hr]
    obtain ⟨h1, h2, h3⟩ := TimeBase.turn_clock { s.time with ns := s.time.ns - Config.second } s.osc
    exact ⟨h1.trans (by dsimp only; omega), h2, h3⟩
  · exact ⟨by omega, rfl, rfl⟩

theorem TimeBase.gain_one_le (h : x.counts) : 0 ≤ x.gain 1 ∧ x.gain 1 ≤ 11 := by
  have h0 := TimeBase.gain_zero h
  have h1 : x.gain 1 ≤ x.gain 0 + 11 := TimeBase.gain_succ_le h 0
  have h2 := TimeBase.gain_mono h (Nat.zero_le 1)
  omega

/-- R144: one period with a boundary wait in progress. -/
theorem State.tick_boundary {d : Int} (h : u.time.inRange) (he : u.cyc.entry = some ⟨a, .run ws (.boundary d)⟩) :
    ((u.tick.time.ns : Int) = (u.time.ns + u.time.gain 1) % 1000000000 ∧ u.tick.time.residue = u.time.residueAfter 1 ∧
        u.tick.time.trim = u.time.trim) ∧
      (u.time.gain 1 < d → u.tick.cyc.entry = some ⟨a, .run ws (.boundary (d - u.time.gain 1))⟩) ∧
      (d ≤ u.time.gain 1 → ∃ k, u.tick.cyc.entry = some ⟨a, .writeBack ws (waitWords 1 k u.tick.time a)⟩) := by
  obtain ⟨hg0, hg1⟩ := TimeBase.gain_one_le h.counts
  have hns : u.time.ns < 1000000000 := h.1
  have hcyc : (u.fillCommand.glide 1).cyc.entry = some ⟨a, .run ws (.boundary (d - u.time.gain 1))⟩ := by
    change (u.fillCommand.cyc.shift (-u.fillCommand.time.gain 1)).entry = _
    rw [(u.fillCommand_time).2.1, (u.fillCommand_time).1, CycleEngine.shift_boundary he]
    rfl
  have htime : (u.fillCommand.glide 1).time =
      { u.time with ns := (u.time.ns + u.time.gain 1).toNat, residue := u.time.residueAfter 1 } := by
    change ({ u.fillCommand.time with
      ns := (u.fillCommand.time.ns + u.fillCommand.time.gain 1).toNat, residue := u.fillCommand.time.residueAfter 1 } : TimeBase) = _
    rw [(u.fillCommand_time).1]
  unfold State.tick State.stretch
  generalize u.fillCommand.glide 1 = g at hcyc htime
  obtain ⟨c1, c2, c3⟩ := g.carry_clock (by rw [htime]; dsimp only; omega)
  have hcarry : g.carry.cyc.entry = some ⟨a, .run ws (.boundary (d - u.time.gain 1))⟩ := by
    rw [CycleEngine.eq_of_unstamped (congrArg (·.1) g.carry_walk) fun a' ws' w hw => by rw [hcyc] at hw; cases hw]
    exact hcyc
  generalize g.carry = y at c1 c2 c3 hcarry
  have hleft : y.boundaryLeft = some (d - u.time.gain 1) := by
    unfold State.boundaryLeft
    rw [hcarry]
  have hend : y.boundaryElapsed = if d - u.time.gain 1 ≤ 0 then y.endEntry a ws (waitResult .elapsed a) else y := by
    unfold State.boundaryElapsed
    rw [hleft]
    dsimp only
    rw [State.endWait_boundary hcarry, if_neg (show EntryOutcome.elapsed ≠ .slipped from nofun)]
  have hsame : y.boundaryElapsed.time = y.time := by
    rw [hend]
    split <;> rfl
  rw [(State.fillCommand_time _).1, (State.fillCommand_time _).2.1, hsame]
  refine ⟨⟨?_, ?_, ?_⟩, fun hlt => ?_, fun hle => ⟨y.draws, ?_⟩⟩
  · rw [c1, htime]
    dsimp only
    omega
  · rw [c2, htime]
  · rw [c3, htime]
  · rw [hend, if_neg (by omega), hcarry]
  · rw [hend, if_pos (by omega), State.endEntry_wait]
    rfl

/-- R144: the state of a boundary wait after `n` periods. -/
structure State.waited (s : State) (a : Addr) (ws : List Word) (d : Int) (n : Nat) (u : State) : Prop where
  range : u.time.inRange
  ns : (u.time.ns : Int) = (s.time.ns + s.time.gain n) % 1000000000
  residue : u.time.residue = s.time.residueAfter n
  trim : u.time.trim = s.time.trim
  entry : u.cyc.entry = some ⟨a, .run ws (.boundary (d - s.time.gain n))⟩

theorem State.ticks_waited {d : Int} (h : s.time.inRange) (he : s.cyc.entry = some ⟨a, .run ws (.boundary d)⟩) {n : Nat}
    (hn : ∀ j, 1 ≤ j → j ≤ n → s.time.gain j < d) : s.waited a ws d n (State.tick^[n] s) := by
  induction n with
  | zero =>
    have h0 := TimeBase.gain_zero h.counts
    have hns : s.time.ns < 1000000000 := h.1
    have hres := s.time.gain_add_residueAfter 0
    refine ⟨h, ?_, ?_, rfl, by rw [h0, sub_zero]; exact he⟩
    · rw [h0, add_zero]
      exact (Int.emod_eq_of_lt (Int.natCast_nonneg _) (Int.ofNat_lt.mpr hns)).symm
    · rw [h0] at hres
      change s.time.residue = _
      simp at hres
      omega
  | succ n ih =>
    obtain ⟨hr, hns, hres, htrim, hentry⟩ := ih fun j h1 hj => hn j h1 (hj.trans (Nat.le_succ n))
    rw [Function.iterate_succ_apply']
    generalize State.tick^[n] s = u at hr hns hres htrim hentry
    obtain ⟨hgain, hafter⟩ := TimeBase.gain_add h.counts n 1 htrim hres
    obtain ⟨⟨t1, t2, t3⟩, hgo, -⟩ := State.tick_boundary hr hentry
    have hlt := hn (n + 1) (Nat.succ_pos n) le_rfl
    refine ⟨State.stretch_inRange hr (le_max_left _ _), ?_, t2.trans hafter.symm, t3.trans htrim, ?_⟩
    · rw [t1, hns, hgain, ← add_assoc, Int.emod_add_emod]
    · rw [hgo (by omega), hgain, sub_sub]

/-! ## A step with a boundary wait in progress (R124, R144) -/

/-- R124: an edge at the step limit in ACQUIRING: cabinet time moves to the edge, then the distance of a boundary wait. -/
theorem State.ppsEdge_steps {e : Int} {y : TimeBase} (hu : s.time.offer RefEntry.takesPps s.osc = y)
    (hl : loopUses s.time y RefEntry.takesPps = true) (hs : s.time.state = .acquiring) (hst : y.state = s.time.state)
    (hb : y.beyond = s.time.beyond) (hyns : y.ns = s.time.ns) (he : phaseError s.time.ns = e)
    (hlim : y.disc.stepLimit ≤ e.natAbs) (hm : (s.time.ns : Int) - e = 0 ∨ (s.time.ns : Int) - e = 1000000000) :
    ∃ v : State, s.ppsEdge = v.boundaryStep e ∧ v.cyc = s.cyc ∧ v.draws = s.draws ∧ v.time.ns = 0 := by
  have hy := State.putTime_same (u := s) hst hb
  rw [State.ppsEdge_used hu hl]
  generalize s.putTime y = t at hy
  have htime : t.time = y := (congrArg State.time hy :)
  rw [State.loop_jumps he (by rw [htime]; exact hlim)]
  have herr := State.putTime_same (u := t) (t := { t.time with lastError := e }) rfl rfl
  rw [hy, htime] at herr
  rw [htime]
  generalize t.putTime { y with lastError := e } = w at herr ⊢
  have hwtime : w.time = { y with lastError := e } := (congrArg State.time herr :)
  have hwns : w.time.ns = s.time.ns := by rw [hwtime]; exact hyns
  have hwst : w.time.state = .acquiring := by rw [hwtime]; exact hst.trans hs
  have hmove (z : TimeBase) (hz : z.state = .acquiring) (hzb : z.beyond = w.time.beyond) :
      (w.putTime z).cyc = s.cyc ∧ (w.putTime z).draws = s.draws ∧ (w.putTime z).time = z := by
    have h := (State.putTime_same (u := w) (hz.trans hwst.symm) hzb).trans (congrArg (fun x : State => { x with time := z }) herr)
    exact ⟨(congrArg State.cyc h :), (congrArg State.draws h :), (congrArg State.time h :)⟩
  obtain hm | hm := hm
  · obtain ⟨h1, h2, h3⟩ := hmove { w.time.stepped with ns := 0 } rfl rfl
    exact ⟨_, State.timeStep_level (by rw [hwns]; exact hm), h1, h2, congrArg TimeBase.ns h3⟩
  · rw [State.timeStep_carries (by rw [hwns]; exact hm), TimeBase.turn_acquiring (by rfl)]
    obtain ⟨ht, htb, -, -⟩ := TimeBase.turned_same { w.time.stepped with ns := 0 }
    obtain ⟨h1, h2, h3⟩ := hmove { TimeBase.turned { w.time.stepped with ns := 0 } with ppsOut := some (w.osc + 1000000) }
      (ht.trans rfl) (htb.trans rfl)
    refine ⟨_, rfl, h1, h2, (congrArg TimeBase.ns h3).trans ?_⟩
    unfold TimeBase.turned
    dsimp only
    cases w.time.stepped.pendingSet <;> rfl

/-- R144: a boundary wait after a step that moves cabinet time back by `e`. -/
theorem State.boundaryStep_boundary {d : Int} (he : v.cyc.entry = some ⟨a, .run ws (.boundary d)⟩) (e : Int) :
    (v.boundaryStep e).time = v.time ∧ (v.boundaryStep e).cyc = if d + e ≤ 0
      then { v.cyc with
        counters := { v.cyc.counters with slips := inc32 v.cyc.counters.slips }
        entry := some ⟨a, .writeBack ws (waitWords 2 v.draws v.time a)⟩ }
      else { v.cyc with entry := some ⟨a, .run ws (.boundary (d + e))⟩ } := by
  have hshift := CycleEngine.shift_boundary he e
  have hleft : ({ v with cyc := v.cyc.shift e } : State).boundaryLeft = some (d + e) := by
    unfold State.boundaryLeft
    rw [hshift]
  have hb : v.boundaryStep e = if d + e ≤ 0 then ({ v with cyc := v.cyc.shift e } : State).endWait .slipped
      else { v with cyc := v.cyc.shift e } := by
    unfold State.boundaryStep
    dsimp only
    rw [hleft]
  rw [hb]
  split
  · rw [State.endWait_boundary (u := { v with cyc := v.cyc.shift e }) (a := a) (ws := ws) (d := d + e)
      (by dsimp only; rw [hshift]), if_pos rfl, State.endEntry_wait]
    refine ⟨rfl, ?_⟩
    dsimp only [State.setCyc, retouch]
    rw [hshift]
    rfl
  · exact ⟨rfl, hshift⟩

/-! ## A response timeout (R146, R148, R162) -/

theorem State.pollTimeout_ends (he : u.cyc.entry = some ⟨a, .run ws (.poll w)⟩) (hw : w.cur = some c)
    (hc : c.timeout.isSome = true) (hr : w.conditions.getLsbD 0 = false) :
    u.pollTimeout = u.pollFinish a ws (w.ended c.plane .noResponse) .noResponse := by
  have hrun : u.pollRun = some (a, ws, w) := by
    unfold State.pollRun
    rw [he]
  have hno : ((w.ended c.plane .noResponse).retries? .noResponse) = false := by
    unfold PollWork.retries? AttemptOutcome.meets PollWork.ended
    dsimp only
    rw [hr, Bool.false_and]
  unfold State.pollTimeout
  rw [hrun]
  dsimp only
  rw [hw]
  dsimp only
  rw [if_pos hc]
  unfold State.attemptEnds
  rw [hrun]
  dsimp only
  rw [hw]
  dsimp only
  rw [hno, if_neg Bool.false_ne_true]

/-- R162: a slot's entry after a poll that got no response. -/
def SlotEntry.misses (e : SlotEntry) : SlotEntry :=
  { e with missed := min (e.missed + 1) 15, fenced := e.fenced || decide (e.cfg.missLimit ≤ min (e.missed + 1) 15) }

/-- R154: a poll of one attempt without a response, the plane pinned. -/
theorem State.takePoll_missed {p : Plane} (hp : (u.slot i).cfg.policy ≠ .auto) :
    u.takePoll i [⟨p, .noResponse⟩] .noResponse =
      (({ u with sm := { u.sm with discarded := min u.sm.discarded 4294967295 } } : State).changeSlot i (u.slot i).misses,
        none) := by
  unfold State.takePoll
  dsimp only [List.foldl_cons, List.foldl_nil, Sampling.attempt]
  have hj (up : Plane → Bool) (l : List AttemptRec) : (u.slot i).judgePlane up l = u.slot i := if_pos hp
  rw [hj]
  rfl

/-- R149: the words of a poll's result when its one attempt got no response. -/
theorem State.pollResult_missed {p : Plane} (hm : w.made = 1) (hl : w.log = []) (hr : w.conditions.getLsbD 0 = false) :
    (u.pollResult a ws (w.ended p .noResponse) .noResponse none).apart = ({ u.apart with
      cyc := { u.apart.cyc with
        counters := { u.apart.cyc.counters with unanswered := min (u.apart.cyc.counters.unanswered + 1) 4294967295 }
        entry := some ⟨a, .writeBack ws
          { w4 := wordOf (5 + 256 + 4096 * (if p = .b then 1 else 0) + 2 ^ 16 * (Config.freeFlags u.apart.draws).toNat
              + 2 ^ 24 * (Config.freeCodes u.apart.draws).val)
            w5 := wordOf (Config.freeRtt u.apart.draws).toNat, w6 := wordOf u.apart.time.sec
            w7 := wordOf u.apart.time.ns, n := 0, next := a + 8 }⟩ }
      draws := u.apart.draws + 1 } : State) := by
  have hnext : ((w.ended p .noResponse).branch && AttemptOutcome.noResponse.meets (w.ended p .noResponse).conditions) = false := by
    unfold AttemptOutcome.meets PollWork.ended
    dsimp only
    rw [hr, Bool.and_false]
  have hplane : (w.ended p .noResponse).lastPlane = some p := by
    unfold PollWork.lastPlane PollWork.ended
    dsimp only
    rw [hl]
    rfl
  have hmade : (w.ended p .noResponse).made = 1 := hm
  unfold State.pollResult
  rw [hnext, if_neg Bool.false_ne_true, hplane, hmade]
  unfold State.endEntry
  dsimp only [Option.elim]
  rw [State.resultWord5_wait]
  cases p <;> rfl

/-- R162: a missed poll below the limit, or of a slot that is fenced already, changes the count alone. -/
theorem State.changeSlot_counts {e : SlotEntry} (hst : e.state = (u.slot i).state) (hf : e.fenced = (u.slot i).fenced)
    (ha : e.active = (u.slot i).active) (hd : ∀ p, e.delay p = (u.slot i).delay p) : u.changeSlot i e = u.putSlot i e := by
  have hserv : (u.slot i).serving = e.serving := by
    unfold SlotEntry.serving
    rw [hst, hf]
  have hleaves : ((u.slot i).leaves e || (!(u.slot i).fenced && e.fenced)) = false := by
    unfold SlotEntry.leaves
    rw [hst, hf]
    cases (u.slot i).state <;> cases (u.slot i).fenced <;> rfl
  have hbreak : (u.slot i).breaksRef e = false := by
    unfold SlotEntry.breaksRef
    rw [hst, hf, ha, hd]
    cases (u.slot i).state <;> cases (u.slot i).fenced <;> cases ((u.slot i).delay (u.slot i).active).valid <;>
      cases (u.slot i).active <;> rfl
  unfold State.changeSlot
  dsimp only
  rw [if_pos hserv, hleaves, if_neg Bool.false_ne_true, hbreak, if_neg Bool.false_ne_true, hst, ha]
  simp

/-- R88, R91, R162: a slot that is fenced ceases to serve; with nothing in its queues and no reference naming it, a report
of room is all that follows. -/
theorem State.changeSlot_fences {e : SlotEntry} (hst : e.state = (u.slot i).state) (hadm : (u.slot i).state = .admitted)
    (hf : (u.slot i).fenced = false) (hef : e.fenced = true) (ha : e.active = (u.slot i).active)
    (hq : ∀ p, (u.lane i p).queue = []) (hw : ∀ k, u.sw.queue i k = EgressQueue.nil) (hr : u.noRef i) :
    u.changeSlot i e = (u.putSlot i e).roomReport := by
  have hserv : (u.slot i).serving ≠ e.serving := by
    unfold SlotEntry.serving
    rw [hst, hf, hef, hadm]
    decide
  have hleaves : ((u.slot i).leaves e || (!(u.slot i).fenced && e.fenced)) = true := by
    rw [hf, hef]
    exact Bool.or_true _
  have hstill (p : Plane) : (u.putSlot i e).roomReport.laneStill i p := fun _ _ => by
    refine ⟨?_, fun _ k => ?_⟩
    · change ((u.putSlot i e).lane i p).queue = []
      unfold State.lane
      rw [State.putSlot_lanes]
      exact hq p
    · change (u.putSlot i e).sw.queue i k = _
      rw [State.putSlot_sw]
      exact hw k
  have hflush : (u.putSlot i e).roomReport.flushBoth i = (u.putSlot i e).roomReport :=
    State.flush_still (fun k => by
      change (u.putSlot i e).sw.queue i k = _
      rw [State.putSlot_sw]
      exact hw k) hstill
  have hdis : (u.putSlot i e).roomReport.disqualifySlot i = (u.putSlot i e).roomReport :=
    State.disqualifySlot_still fun k => by
      change ((u.putSlot i e).ref k).names i = false
      unfold State.ref
      rw [State.putSlot_time]
      exact hr k
  unfold State.changeSlot
  dsimp only
  rw [if_neg hserv, if_pos hleaves, hflush, hst, ha]
  simp [hdis]

/-! ## O58 -/

/-- Settles O58: a gap and a boundary by passing time (`State.ticks_waited`), a step by the edge that makes it
(`State.ppsEdge_steps`), and a response timeout by the poll it ends (`State.pollTimeout_ends`). -/
theorem workEnds : Obligations.WorkEnds := by
  unfold Obligations.WorkEnds
  intro w4 w5 a ws s hq
  refine ⟨fun x he => ?_, fun d he hd hr => ?_, fun d l he hen hkind hrest hlast hlo hhi hqual hsel hst hns => ?_,
    fun w c x he hw hx hm hl hcond => ?_⟩
  · have hcyc : (s.advanceTo x).cyc = s.cyc :=
      CycleEngine.eq_of_unstamped (congrArg (·.1) (State.advanceTo_walk (by unfold State.boundaryLeft; rw [he]) x))
        fun a' ws' w' hw => by rw [he] at hw; cases hw
    have hgap : s.gapExpiry = some x := by
      unfold State.gapExpiry
      rw [he]
    refine work_apart hq (by rw [hgap]; simp) ?_
    rw [hgap]
    dsimp only
    rw [State.endWait_gap (hcyc ▸ he) (show EntryOutcome.elapsed ≠ .slipped from nofun), State.endEntry_wait]
    rfl
  · have hleft : s.boundaryLeft = some d := by
      unfold State.boundaryLeft
      rw [he]
    obtain ⟨hge, h1, hlt⟩ := TimeBase.periodsToGain_spec hr.counts d
    have hle := TimeBase.gain_periodsToGain_le_ten hr.counts hd
    have hrow : execWaitBoundaryReached s = settled (s.advance (s.time.periodsToGain d)) := by
      unfold execWaitBoundaryReached
      rw [hleft]
    have hsm := s.advance_sm (s.time.periodsToGain d)
    have hkeel : (s.advance (s.time.periodsToGain d)).keel = s.keel := State.runOsc_keel _ _ _
    obtain ⟨t, ht, ha⟩ := work_apart (u := s.advance (s.time.periodsToGain d)) hq (by simp) rfl
    have htick : s.advance (s.time.periodsToGain d) = State.tick^[s.time.periodsToGain d] s := State.runOsc_eq_tick _ _ _ hr le_rfl
    rw [htick] at ha hsm hkeel
    generalize s.time.periodsToGain d = n at *
    obtain ⟨m, rfl⟩ : ∃ m, n = m + 1 := ⟨_, (Nat.sub_add_cancel h1).symm⟩
    obtain ⟨hur, huns, hures, hutrim, hentry⟩ := State.ticks_waited hr he (n := m) fun j h1 hj => hlt j h1 (Nat.lt_succ_of_le hj)
    rw [Function.iterate_succ_apply'] at ha hsm hkeel
    generalize State.tick^[m] s = u at hur huns hures hutrim hentry ha hsm hkeel
    obtain ⟨hgain, -⟩ := TimeBase.gain_add hr.counts m 1 hutrim hures
    obtain ⟨⟨t1, -, -⟩, -, hend⟩ := State.tick_boundary hur hentry
    obtain ⟨k, hk⟩ := hend (by omega)
    have htime : t.time = u.tick.time := (congrArg State.time ha :)
    refine ⟨t, k, s.time.gain (m + 1) - d, hrow.trans ht, ?_, by omega, by omega, ?_, ?_, ?_, ?_⟩
    · rw [htime]
      exact (congrArg (fun x : State => x.cyc.entry) ha :).trans hk
    · rw [htime, t1, huns, Int.emod_add_emod]
      congr 1
      omega
    · exact (congrArg State.mem ha :).trans (congrArg (fun x => x.2.2.2.1) hkeel)
    · exact (congrArg State.sm ha :).trans hsm
    · exact (congrArg (fun x : State => x.ring.state) ha :).trans (congrArg (fun x => x.2.2.1.state) hkeel)
  · intro e hlim
    have htakes : ((vget s.time.refs 0).cfg.enabled && (vget s.time.refs 0).takesPps) = true := by
      change ((s.ref 0).cfg.enabled && ((s.ref 0).cfg.kind == .ppsInput)) = true
      rw [hen, hkind]
      rfl
    have hother (k : Fin 4) (hk : k ≠ 0) : ((vget s.time.refs k).cfg.enabled && (vget s.time.refs k).takesPps) = false := by
      change ((s.ref k).cfg.enabled && ((s.ref k).cfg.kind == .ppsInput)) = false
      rcases hrest k hk with h | h
      · rw [h, Bool.false_and]
      · rw [h]
        exact Bool.and_false _
    have hj := RefEntry.judge_good hlast ⟨hlo, hhi⟩
    rw [hqual, Bool.true_or] at hj
    have hu : s.time.offer RefEntry.takesPps s.osc =
        s.time.setRef 0 ((s.ref 0).arrived s.osc (min ((s.ref 0).good + 1) 3) true) := by
      rw [TimeBase.offer_first htakes hother, show (vget s.time.refs 0).judge s.osc = _ from hj]
      exact (TimeBase.setRef_rejudge (by exact hqual.symm) 0).1
    have huse := loopUses_selected (y := s.time.setRef 0 ((s.ref 0).arrived s.osc (min ((s.ref 0).good + 1) 3) true)) hsel
      htakes (by rw [TimeBase.setRef_ref, if_pos rfl]; rfl)
    have he' : e = if s.time.ns < 500000000 then (s.time.ns : Int) else (s.time.ns : Int) - 1000000000 := rfl
    obtain ⟨v, hv, hvcyc, hvdraws, hvns⟩ := State.ppsEdge_steps hu huse hst rfl rfl rfl (e := e) rfl hlim
      (by split at he' <;> omega)
    obtain ⟨htime, hcyc⟩ := State.boundaryStep_boundary (v := v) (hvcyc ▸ he) e
    obtain ⟨t, ht, ha⟩ := work_apart (u := s.ppsEdge) hq (by simp) rfl
    rw [hv] at ha
    have h1 : t.time = v.time := (congrArg State.time ha :).trans htime
    have h2 : t.cyc = _ := (congrArg State.cyc ha :).trans hcyc
    refine ⟨fun hpos => ⟨t, ht, by rw [h1]; exact hvns, ?_⟩, fun hneg => ⟨t, ht, by rw [h1]; exact hvns, ?_⟩⟩
    · rw [h2, if_neg (Int.not_le.mpr hpos), hvcyc]
    · rw [h2, if_pos hneg, hvcyc, hvdraws, h1]
      rfl
  · intro u e n ended hpol
    obtain ⟨w', c', he', hw', hww, hcc⟩ := CycleEngine.poll_of_unstamped
      (congrArg (·.1) (State.advanceTo_walk (by unfold State.boundaryLeft; rw [he]) x)) he hw
    have hc'x : c'.timeout = some x := (congrArg Attempt.timeout hcc :).trans hx
    have hplane : c'.plane = c.plane := (congrArg Attempt.plane hcc :)
    have hslot : w'.slot = w.slot := (congrArg PollWork.slot hww :)
    have hmade : w'.made = 1 := (congrArg PollWork.made hww :).trans hm
    have hlog : w'.log = [] := (congrArg PollWork.log hww :).trans hl
    have hcond' : w'.conditions.getLsbD 0 = false := (congrArg (fun w : PollWork => w.conditions.getLsbD 0) hww :).trans hcond
    have hexp : s.pollExpiry = some x := by
      unfold State.pollExpiry State.pollRun
      rw [he]
      dsimp only
      rw [hw]
      exact hx
    have hfinish : u.pollTimeout = (State.changeSlot { u with sm := { u.sm with discarded := min u.sm.discarded 4294967295 } }
        w.slot e.misses).pollResult a ws (w'.ended c.plane .noResponse) .noResponse none := by
      rw [State.pollTimeout_ends he' hw' (by rw [hc'x]; rfl) hcond', hplane]
      unfold State.pollFinish
      dsimp only
      rw [show (w'.ended c.plane .noResponse).log = [⟨c.plane, .noResponse⟩] by
          unfold PollWork.ended; dsimp only; rw [hlog]; rfl,
        show (w'.ended c.plane .noResponse).slot = w.slot from hslot, State.takePoll_missed hpol]
    have row {y : State} (hy : u.pollTimeout.apart = y) : ∃ t, exec .pollResponseTimeout s = .next t ∧ t.apart = y := by
      refine work_apart hq (by rw [hexp]; simp) ?_
      rw [hexp]
      exact hy
    refine ⟨fun hlt => row ?_, fun hge hadm hf hqs hws hrefs => row ?_⟩
    · have hmiss : e.misses = { e with missed := n } := by
        unfold SlotEntry.misses
        rw [decide_eq_false (Nat.not_le.mpr hlt), Bool.or_false]
      have hch : State.changeSlot { u with sm := { u.sm with discarded := min u.sm.discarded 4294967295 } } w.slot
          { e with missed := n } = _ := State.changeSlot_counts rfl rfl rfl fun p => by cases p <;> rfl
      rw [hfinish, hmiss, hch, State.pollResult_missed hmade hlog hcond', State.putSlot_apart,
        State.becomes_same (by rfl)]
      rfl
    · have hmiss : e.misses = { e with missed := n, fenced := true } := by
        unfold SlotEntry.misses
        rw [decide_eq_true (show e.cfg.missLimit ≤ min (e.missed + 1) 15 from hge), Bool.or_true]
      have hch : State.changeSlot { u with sm := { u.sm with discarded := min u.sm.discarded 4294967295 } } w.slot
          { e with missed := n, fenced := true } = _ := State.changeSlot_fences rfl hadm hf rfl rfl hqs hws hrefs
      have hmoves (y : State) (hy : y.slot w.slot = e) : y.becomes w.slot { e with missed := n, fenced := true } =
          y.slotBecomes w.slot { e with missed := n, fenced := true } := by
        refine if_neg fun hs => ?_
        rw [hy] at hs
        exact absurd (hf.symm.trans (congrArg (fun x => x.2.1) hs :)) Bool.false_ne_true
      have hput := State.putSlot_apart { u with sm := { u.sm with discarded := min u.sm.discarded 4294967295 } } w.slot
        { e with missed := n, fenced := true }
      rw [hmoves { u with sm := { u.sm with discarded := min u.sm.discarded 4294967295 } } rfl] at hput
      rw [hfinish, hmiss, hch, State.pollResult_missed hmade hlog hcond']
      generalize State.putSlot _ w.slot { e with missed := n, fenced := true } = y at hput
      have hroom : y.roomReport.apart = { y.apart with ring := { y.apart.ring with tx := y.apart.ring.tx.map TxMove.roomSeen } } := rfl
      rw [hroom, hput]
      rfl

end Sys2Proof.Machine
end

section
/-! SUPPORT. A controller reset (O38). -/

namespace Sys2Proof.Machine

open Sys2Proof

variable {s t u v z : State} {i : Slot}

/-! ## The view of the slots, the hub state, the clock and the counts of the memory path -/

/-- The slots but for what polls and lane events set, the hub state, oscillator and cabinet time, the time snapshot, and the
counts of the memory path with the word last returned. -/
def State.view (s : State) : (Slot → SlotEntry) × HubState × Nat × (Nat × Nat × Int) × (Nat × Nat) × (Nat × Addr × Nat × Word) :=
  (s.held, s.cmd.hub, s.osc, (s.time.sec, s.time.ns, s.time.trim), (s.cmd.snapSec, s.cmd.snapNs),
    (s.path.guardedCount, s.path.lastGuarded, s.path.partialCount, s.path.cdata))

theorem State.view_rest (hf : t.frame = s.frame) : t.view.2 = s.view.2 :=
  (congrArg (fun x : MemoryPath × CommandUnit × RingEngine × TimeBase × Nat × Memory × List Instr =>
    (x.2.1.hub, x.2.2.2.2.1, (x.2.2.2.1.sec, x.2.2.2.1.ns, x.2.2.2.1.trim), (x.2.1.snapSec, x.2.1.snapNs),
      (x.1.guardedCount, x.1.lastGuarded, x.1.partialCount, x.1.cdata))) hf :)

theorem State.view_of_frame (hf : t.frame = s.frame) (hh : t.held = s.held) : t.view = s.view :=
  Prod.ext hh (State.view_rest hf)

@[simp] theorem State.dropHeld_view (s : State) (p : Purpose → Bool) : (s.dropHeld p).view = s.view := by
  unfold State.dropHeld
  split
  · split <;> rfl
  · rfl

theorem State.dropClaim_view (s : State) (id : Nat) : (s.dropClaim id).view = s.view := by
  unfold State.dropClaim
  dsimp only
  split <;> rfl

@[simp] theorem State.alarmLeaves_view (s : State) : s.alarmLeaves.view = s.view := rfl

theorem State.view_hub (h : s.view = t.view) : s.cmd.hub = t.cmd.hub := congrArg (·.2.1) h
theorem State.view_slot (h : s.view = t.view) (i : Slot) : (s.slot i).held = (t.slot i).held := congrFun (congrArg (·.1) h) i

theorem State.view_state (h : s.view = t.view) (i : Slot) : (s.slot i).state = (t.slot i).state :=
  (congrArg SlotEntry.state (State.view_slot h i) :)

/-! ## Judging the SEATED slots leaves the walk -/

@[simp] theorem State.putSlot_walk (s : State) (i : Slot) (e : SlotEntry) : (s.putSlot i e).walk = s.walk := by
  unfold State.walk
  rw [State.putSlot_cyc, State.putSlot_ring]

@[simp] theorem State.movePoint_walk (s : State) (k : Fin 64) (p : Point) : (s.movePoint k p).walk = s.walk := by
  have hplace (u : State) (b : LogBody) : (u.placeChange b).walk = u.walk := by
    unfold State.placeChange
    split
    · split
      · split <;> rfl
      · split <;> rfl
    · rfl
  unfold State.movePoint
  dsimp only
  split
  · rfl
  · split
    · exact hplace ..
    · split
      · exact hplace ..
      · rfl

@[simp] theorem State.clearCardPoints_walk (s : State) (i : Slot) : (s.clearCardPoints i).walk = s.walk :=
  foldl_walk (fun s k => by dsimp only; split <;> simp) _ _

@[simp] theorem State.changeSlot_walk (s : State) (i : Slot) (new : SlotEntry) : (s.changeSlot i new).walk = s.walk := by
  have hdis (u : State) : (u.disqualifySlot i).walk = u.walk := State.putTime_walk ..
  have hflush (u : State) : (u.flushBoth i).walk = u.walk := State.flush_walk ..
  unfold State.changeSlot
  extract_lets old s1 s2 s3 s4 s5
  have h2 : s2.walk = s.walk := by
    unfold s2
    split
    · exact State.putSlot_walk ..
    · exact (State.roomReport_walk _).trans (State.putSlot_walk ..)
  have h3 : s3.walk = s.walk := by
    unfold s3
    split
    · rw [hflush, h2]
    · exact h2
  have h4 : s4.walk = s.walk := by
    unfold s4
    split
    · rw [State.clearCardPoints_walk, h3]
    · exact h3
  have h5 : s5.walk = s.walk := by
    unfold s5
    split
    · rw [hdis, h4]
    · exact h4
  split
  · exact h5
  · rw [State.kickSlot_walk, h5]

@[simp] theorem State.laneOn_walk (i : Slot) (s : State) (p : Plane) : (State.laneOn i s p).walk = s.walk := by
  unfold State.laneOn
  dsimp only
  split
  · exact State.putSlot_walk ..
  · rfl

/-- A move that neither leaves ADMITTED nor takes the lane enables off leaves the walk. -/
theorem State.enterSlot_walk {st : SlotState} {f : SlotEntry → SlotEntry} (ha : (s.slot i).state ≠ .admitted)
    (hon : (s.slot i).state.laneOn = true → st.laneOn = true) : (s.enterSlot i st f).walk = s.walk := by
  have hchange := s.changeSlot_walk i ((f (s.slot i)).enter st s.osc)
  have hstate : ((s.changeSlot i ((f (s.slot i)).enter st s.osc)).slot i).state = st :=
    (congrArg SlotEntry.state ((congrFun (s.changeSlot_held i _) i).trans (Function.update_self ..)) :)
  unfold State.enterSlot State.moveSlot
  dsimp only
  rw [if_neg (by simp [ha])]
  unfold State.followEnable
  dsimp only
  rw [hstate]
  split
  · exact hchange
  · split
    · exact (foldl_walk (fun s p => State.laneOn_walk i s p) _ _).trans hchange
    · rename_i hne hoff
      cases hl : (s.slot i).state.laneOn
      · cases hst : st.laneOn
        · exact absurd (hl.trans hst.symm) hne
        · exact absurd hst hoff
      · exact absurd (hon hl) hoff

@[simp] theorem State.judgeSeated_walk (s : State) (i : Slot) : (s.judgeSeated i).walk = s.walk := by
  unfold State.judgeSeated
  split
  · rename_i h
    have hst : (s.slot i).state = .seated := by
      simp only [Bool.and_eq_true, decide_eq_true_eq] at h
      exact h.1
    have h1 : (s.enterSlot i .powering id).walk = s.walk :=
      State.enterSlot_walk (by rw [hst]; exact nofun) (by rw [hst]; exact nofun)
    have h2 : ((s.enterSlot i .powering id).slot i).state = .powering :=
      (congrArg SlotEntry.state (s.enterSlot_held i .powering id) :)
    unfold State.enterPowering State.enterTraining
    dsimp only
    split
    · rw [State.enterSlot_walk (by rw [h2]; exact nofun) (by rw [h2]; exact nofun), h1]
    · exact h1
  · rfl

theorem State.setHub_walk (s : State) (h : HubState) : (s.setHub h).walk = s.walk := by
  unfold State.setHub State.judgeAllSeated
  rw [foldl_walk (fun s i => State.judgeSeated_walk s i)]
  rfl

/-! ## Slots that are not SEATED keep their state -/

theorem State.judgeSeated_state (h : (s.slot i).state ≠ .seated) (j : Slot) : ((s.judgeSeated j).slot i).state = (s.slot i).state := by
  by_cases hj : i = j
  · rw [State.judgeSeated_still (.inl (hj ▸ h))]
  · have hother (u : State) (st : SlotState) : ((u.enterSlot j st id).slot i).state = (u.slot i).state :=
      (congrArg SlotEntry.state ((congrFun (u.moveSlot_held j _) i).trans (Function.update_of_ne hj _ _)) :)
    unfold State.judgeSeated
    split
    · unfold State.enterPowering State.enterTraining
      dsimp only
      split
      · rw [hother, hother]
      · rw [hother]
    · rfl

theorem State.judgeAllSeated_state (h : (s.slot i).state ≠ .seated) : (s.judgeAllSeated.slot i).state = (s.slot i).state := by
  have hall (l : List Slot) (u : State) (hu : (u.slot i).state ≠ .seated) :
      ((l.foldl State.judgeSeated u).slot i).state = (u.slot i).state := by
    induction l generalizing u with
    | nil => rfl
    | cons j l ih =>
      have h1 := State.judgeSeated_state hu j
      exact (ih _ (by rw [h1]; exact hu)).trans h1
  exact hall _ s h

/-! ## The blocks at a controller reset -/

theorem State.emptyTables_state (s : State) (i : Slot) : (s.emptyTables.slot i).state = (s.slot i).state := by
  have hput (u : State) (k : Fin 64) (x : Point) : (u.putPoint k x).sm = u.sm := rfl
  have hpoints (u : State) : u.emptyPoints.sm = u.sm := by
    unfold State.emptyPoints
    refine foldl_sm (fun s k => ?_) _ _
    rw [hput, (State.movePoint_sm s k _).1]
  unfold State.emptyTables
  extract_lets m s1 w s2 s3
  have h3 : s3.sm = s1.sm := hpoints s2
  unfold State.slot
  rw [State.putTime_sm, h3]
  simp [s1, m, vget, State.slot]

theorem State.emptyTables_view (s : State) : s.emptyTables.view.2 = s.view.2 := State.view_rest s.emptyTables_frame

theorem State.ringReset_view (s : State) : s.ringReset.view = s.view := by
  have hload : s.abandonLoad.view = s.view := by
    unfold State.abandonLoad State.loadAbandon
    split
    · split
      · dsimp only
        split
        · exact State.dropClaim_view _ _
        · exact State.dropClaim_view _ _
      · rfl
    · rfl
  have hrx (u : State) : u.abandonRx.view = u.view := by
    unfold State.abandonRx
    split
    · split
      · rfl
      · exact State.dropClaim_view ..
    · rfl
  have hflush (u : State) : u.flushQueue0.view = u.view := by
    unfold State.flushQueue0
    dsimp only
    split <;> rfl
  unfold State.ringReset
  exact (hflush _).trans ((hrx _).trans hload)

/-! ## The port at a controller reset (R15) -/

/-- The state with which the other blocks are reset: an access of the controller that held the port has been handed over. -/
def State.handedOver (s : State) : State :=
  match s.path.holder with
  | some (.controller c) => (s.release.perform c.acc).handOver c
  | _ => s

/-- Shelf memory once the access holding the port has been performed. -/
def State.performedMem (s : State) : Memory :=
  match s.path.holder with
  | some (.word ⟨_, _, .write a d⟩) => Memory.writeWord s.mem a d allBytes
  | some (.controller ⟨.write a d be, _⟩) => Memory.writeWord s.mem a d be
  | _ => s.mem

/-- R15: a word that is not kept is performed, and its completion means nothing. -/
theorem State.completed_kept_view (s : State) {h : Held} (hp : h.purpose.kept = true ∨ h.purpose = .dropped) (w : Word) :
    (s.completed h w).view = s.view := by
  obtain ⟨who, p, op⟩ := h
  unfold State.completed
  cases p with
  | status o fin =>
    dsimp only
    split <;> rfl
  | log =>
    dsimp only
    unfold State.logWordDone
    dsimp only
    split
    · rfl
    · split <;> rfl
  | dropped => rfl
  | image | transfer | rx | tx | cycle => exact absurd (hp.resolve_right nofun) Bool.false_ne_true

theorem State.performDma_spec (s : State) (op : DmaOp) : (s.performDma op).1.view = s.view ∧
    (s.performDma op).1.mem = (match op with | .write a d => Memory.writeWord s.mem a d allBytes | .read _ => s.mem) := by
  cases op <;> exact ⟨rfl, rfl⟩

/-- R15: the port after a controller reset. -/
theorem State.resetPort_spec (s : State) : s.resetPort.view = s.handedOver.view ∧ s.resetPort.mem = s.performedMem ∧
    s.resetPort.path.waiting = none ∧ s.resetPort.path.line = [] ∧ s.resetPort.path.holder = none := by
  have hnone {x y : State} (h : x.outside = y.outside) (hy : y.path.holder = none) : x.path.holder = none := outside_none h hy
  suffices h : (s.dropHeld (fun p => !p.kept)).complete.view = s.handedOver.view ∧
      (s.dropHeld (fun p => !p.kept)).complete.mem = s.performedMem ∧
      (s.dropHeld (fun p => !p.kept)).complete.path.holder = none from ⟨h.1, h.2.1, rfl, rfl, h.2.2⟩
  unfold State.handedOver State.performedMem
  obtain hh | ⟨c, hh⟩ | ⟨h, hh⟩ : s.path.holder = none ∨ (∃ c, s.path.holder = some (.controller c)) ∨
      ∃ h, s.path.holder = some (.word h) := by
    obtain _ | _ | _ := s.path.holder
    · exact .inl rfl
    · exact .inr (.inl ⟨_, rfl⟩)
    · exact .inr (.inr ⟨_, rfl⟩)
  · have hd : (s.dropHeld (fun p => !p.kept)).complete = s := by
      unfold State.dropHeld
      rw [hh]
      dsimp only
      unfold State.complete
      rw [hh]
    rw [hd, hh]
    exact ⟨rfl, rfl, rfl⟩
  · have hd : (s.dropHeld (fun p => !p.kept)).complete = (s.release.perform c.acc).handOver c := by
      unfold State.dropHeld
      rw [hh]
      dsimp only
      unfold State.complete
      rw [hh]
    rw [hd, hh]
    obtain ⟨acc, cls⟩ := c
    refine ⟨rfl, ?_, ?_⟩
    · rw [outside_mem (State.handOver_outside _ _)]
      cases acc <;> rfl
    · exact hnone (State.handOver_outside _ _) (by cases acc <;> rfl)
  · obtain ⟨h', hh', hop, hp⟩ : ∃ h', (s.dropHeld (fun p => !p.kept)).path.holder = some (.word h') ∧ h'.op = h.op ∧
        (h'.purpose.kept = true ∨ h'.purpose = .dropped) := by
      unfold State.dropHeld
      rw [hh]
      dsimp only
      by_cases hk : h.purpose.kept = true
      · rw [if_neg (by rw [hk]; exact Bool.false_ne_true)]
        exact ⟨h, hh, rfl, .inl hk⟩
      · rw [if_pos (by rw [Bool.eq_false_iff.mpr hk]; rfl)]
        exact ⟨_, rfl, rfl, .inr rfl⟩
    have hview : (s.dropHeld (fun p => !p.kept)).release.view = s.view := State.dropHeld_view ..
    have hmem : (s.dropHeld (fun p => !p.kept)).release.mem = s.mem :=
      outside_mem (s := s) (t := s.dropHeld (fun p => !p.kept)) (State.dropHeld_outside s _)
    obtain ⟨h1, h2⟩ := State.performDma_spec (s.dropHeld (fun p => !p.kept)).release h.op
    rw [State.complete_word hh', hop, State.completed_kept_view _ hp, outside_mem (State.completed_outside ..), hh, h1, h2,
      hview, hmem]
    refine ⟨rfl, ?_, hnone (State.completed_outside ..) ?_⟩
    · obtain ⟨who, p, op⟩ := h
      cases op <;> rfl
    · cases h.op <;> rfl

/-! ## The words granted by a settled port -/

theorem State.grant_words (s : State) (who : Requester) (himg : s.cmd.images = []) (howed : s.cmd.doneOwed = false) :
    (s.grant who).cmd.images = [] ∧ (∀ o ∈ (s.grant who).cmd.rewrite, o ∈ s.cmd.rewrite) ∧
      ∀ o ∈ s.cmd.rewrite, o ∈ (s.grant who).cmd.rewrite ∨
        (s.grant who).path.holder = some (.word ⟨.command, .status o false, .write (pageAddr o) (s.statusWord o)⟩) := by
  have hsame {x : State} (h : x.cmd = s.cmd) : x.cmd.images = [] ∧ (∀ o ∈ x.cmd.rewrite, o ∈ s.cmd.rewrite) ∧
      ∀ o ∈ s.cmd.rewrite, o ∈ x.cmd.rewrite ∨
        x.path.holder = some (.word ⟨.command, .status o false, .write (pageAddr o) (s.statusWord o)⟩) := by
    rw [h]
    exact ⟨himg, fun _ h => h, fun _ h => .inl h⟩
  unfold State.grant
  cases who with
  | ring =>
    dsimp only
    unfold State.grantRing
    split
    · exact hsame rfl
    · split <;> exact hsame rfl
  | cycle =>
    dsimp only
    split <;> exact hsame rfl
  | alarm =>
    dsimp only
    split <;> exact hsame rfl
  | command =>
    dsimp only
    unfold State.grantCommand
    split
    · exact hsame rfl
    · rename_i o _
      refine ⟨himg, fun x hx => (List.mem_filter.mp hx).1, fun x hx => ?_⟩
      by_cases hxo : x = o
      · refine .inr ?_
        rw [hxo, howed]
        simp only [Bool.and_false]
        rfl
      · exact .inl (List.mem_filter.mpr ⟨hx, by simpa using hxo⟩)
    · refine ⟨?_, fun _ h => h, fun _ h => .inl h⟩
      change s.cmd.images.filter _ = []
      rw [himg]
      rfl
    · split
      · exact hsame rfl
      · refine ⟨?_, fun _ h => h, fun _ h => .inl h⟩
        dsimp only [State.hold]
        split
        · rw [himg]
          rfl
        · exact himg

/-- R11, R34: on a free port with no access of the controller and no image word to rewrite, a word still to be rewritten stays
so, or is granted with its value. -/
theorem State.settle_words (hq : z.busQuiet) (hh : z.path.holder = none) (himg : z.cmd.images = []) (howed : z.cmd.doneOwed = false) :
    z.settle.cmd.images = [] ∧ (∀ o ∈ z.settle.cmd.rewrite, o ∈ z.cmd.rewrite) ∧
      ∀ o ∈ z.cmd.rewrite, o ∈ z.settle.cmd.rewrite ∨
        z.settle.path.holder = some (.word ⟨.command, .status o false, .write (pageAddr o) (z.settle.statusWord o)⟩) := by
  have hvalue (o : Nat) : z.settle.statusWord o = z.statusWord o :=
    (congrArg (fun x : State => x.statusWord o) (State.settle_apart hq) :)
  have hfill (x : State) : x.fill.cmd.images = x.cmd.images ∧ x.fill.cmd.rewrite = x.cmd.rewrite ∧
      x.fill.cmd.doneOwed = x.cmd.doneOwed ∧ x.fill.path = x.path ∧ ∀ o, x.fill.statusWord o = x.statusWord o := by
    obtain ⟨p, l, rp, rl, h⟩ := x.fill_eq
    rw [h]
    exact ⟨rfl, rfl, rfl, rfl, fun o => rfl⟩
  simp only [hvalue]
  unfold State.settle
  rw [State.bringAccess_quiet hq]
  obtain ⟨f1, f2, f3, f4, f5⟩ := hfill z
  obtain ⟨g1, g2, -, g4, -⟩ := hfill z.fill.arbitrate
  rw [g1, g2, g4]
  unfold State.arbitrate
  rw [if_neg (by rw [f4, hh]; exact Bool.false_ne_true), f4, hq.1]
  split
  · rw [f1, f2]
    exact ⟨himg, fun _ h => h, fun _ h => .inl h⟩
  · rename_i who _ _
    obtain ⟨h1, h2, h3⟩ := State.grant_words z.fill who (f1.trans himg) (f3.trans howed)
    rw [f2] at h2 h3
    simp only [f5] at h3
    exact ⟨h1, h2, h3⟩
  · rename_i hw _
    cases hw
  · rename_i hw _
    cases hw

/-! ## O38 -/

theorem State.resetTables_spec (s : State) : s.resetTables.view.2 = s.view.2 ∧
    (∀ i, (s.resetTables.slot i).state = (s.slot i).state) ∧ s.resetTables.outside = s.outside := by
  unfold State.resetTables
  split
  · exact ⟨s.emptyTables_view, s.emptyTables_state, s.emptyTables_outside⟩
  · exact ⟨rfl, fun _ => rfl, rfl⟩

theorem State.resetLog_spec (s : State) : s.resetLog.view = s.view ∧ s.resetLog.outside = s.outside := by
  unfold State.resetLog
  split
  · exact ⟨s.alarmLeaves_view, s.alarmLeaves_outside⟩
  · exact ⟨rfl, rfl⟩

/-- R37, R111, R152: the blocks after a controller reset, the port still to be decided. -/
theorem State.resetBlocks_spec (s : State) (hw : s.path.waiting = none) (hl : s.path.line = []) (hh : s.path.holder = none) :
    s.resetBlocks.view.2 = (s.cmd.hub.afterReset, s.view.2.2) ∧
      (∀ i, (s.slot i).state ≠ .seated → (s.resetBlocks.slot i).state = (s.slot i).state) ∧ s.resetBlocks.mem = s.mem ∧
      (s.resetBlocks.path.waiting = none ∧ s.resetBlocks.path.line = [] ∧ s.resetBlocks.path.holder = none ∧
        s.resetBlocks.path.zones = none) ∧
      (s.resetBlocks.ring.state = .stopped ∧ s.resetBlocks.ring.rxIdx = 0 ∧ s.resetBlocks.ring.txIdx = 0 ∧
        s.resetBlocks.ring.rx = none ∧ s.resetBlocks.ring.tx = none ∧ s.resetBlocks.ring.exam = none) ∧
      (s.resetBlocks.cyc.state = .idle ∧ s.resetBlocks.cyc.stack = [] ∧ s.resetBlocks.cyc.entry = none) ∧
      ∃ c : CommandUnit, s.resetBlocks.cmd = c.reset := by
  obtain ⟨t1, t2, t3⟩ := s.resetTables_spec
  obtain ⟨l1, l2⟩ := s.resetTables.resetLog_spec
  have r1 := s.resetTables.resetLog.ringReset_view
  have r2 := s.resetTables.resetLog.ringReset_outside
  have hring : s.resetTables.resetLog.ringReset.ring.state = .stopped ∧ s.resetTables.resetLog.ringReset.ring.rxIdx = 0 ∧
      s.resetTables.resetLog.ringReset.ring.txIdx = 0 ∧ s.resetTables.resetLog.ringReset.ring.rx = none ∧
      s.resetTables.resetLog.ringReset.ring.tx = none ∧ s.resetTables.resetLog.ringReset.ring.exam = none :=
    ⟨rfl, rfl, rfl, rfl, rfl, rfl⟩
  unfold State.resetBlocks
  generalize s.resetTables.resetLog.ringReset = u at r1 r2 hring
  have hview : u.view.2 = s.view.2 := (congrArg (·.2) (r1.trans l1)).trans t1
  have hstate (i : Slot) : (u.slot i).state = (s.slot i).state := (State.view_state (r1.trans l1) i).trans (t2 i)
  have hout : u.outside = s.outside := r2.trans (l2.trans t3)
  dsimp only
  have hhub : (u.setCyc u.cyc.idle).emptyZones.cmd.hub = s.cmd.hub := (congrArg (·.1) hview :)
  rw [hhub]
  generalize hx : (u.setCyc u.cyc.idle).emptyZones = x
  have hframe := State.setHub_frame x s.cmd.hub.afterReset
  have hwalk := State.setHub_walk x s.cmd.hub.afterReset
  have hrest := State.view_rest hframe
  have hkept (i : Slot) (h : (x.slot i).state ≠ .seated) : ((x.setHub s.cmd.hub.afterReset).slot i).state = (x.slot i).state :=
    State.judgeAllSeated_state (s := (retouch [0x31] x { x with cmd := { x.cmd with hub := s.cmd.hub.afterReset } }).judgeRelays) h
  generalize x.setHub s.cmd.hub.afterReset = y at hframe hwalk hrest hkept
  subst hx
  obtain ⟨hr1, hr2, hr3, hr4, hr5, hr6⟩ := hring
  have hpath : y.path = { u.path with zones := none } := congrArg (·.1) hframe
  have hyring := congrArg (fun f => f.2.2.1) hframe
  have hcyc : y.cyc = u.cyc.idle := CycleEngine.eq_of_unstamped (congrArg (·.1) hwalk) fun a ws w he => nomatch he
  have htx : y.ring.tx.isSome = u.ring.tx.isSome := congrArg (·.2) hwalk
  refine ⟨?_, fun i hi => ?_, ?_, ⟨?_, ?_, ?_, ?_⟩, ⟨?_, ?_, ?_, ?_, ?_, ?_⟩, ⟨?_, ?_, ?_⟩, y.cmd, rfl⟩
  · refine hrest.trans ?_
    change (s.cmd.hub.afterReset, u.view.2.2) = _
    rw [hview]
  · rw [← hstate i] at hi
    exact (hkept i hi).trans (hstate i)
  · exact (congrArg (fun f => f.2.2.2.2.2.1) hframe :).trans (outside_mem hout)
  · exact (congrArg MemoryPath.waiting hpath).trans ((outside_waiting hout).trans hw)
  · exact (congrArg MemoryPath.line hpath).trans ((congrArg (fun o => o.2.2.2.1) hout :).trans hl)
  · exact (congrArg MemoryPath.holder hpath).trans (outside_none hout hh)
  · exact congrArg MemoryPath.zones hpath
  · exact (congrArg RingEngine.state hyring :).trans hr1
  · exact (congrArg RingEngine.rxIdx hyring :).trans hr2
  · exact (congrArg RingEngine.txIdx hyring :).trans hr3
  · exact (congrArg RingEngine.rx hyring :).trans hr4
  · rw [hr5] at htx
    exact Option.not_isSome_iff_eq_none.mp (by rw [htx]; exact Bool.false_ne_true)
  · exact (congrArg RingEngine.exam hyring :).trans hr6
  · exact congrArg CycleEngine.state hcyc
  · exact congrArg CycleEngine.stack hcyc
  · exact congrArg CycleEngine.entry hcyc

/-- Settles O38: the port (`State.resetPort_spec`), the blocks (`State.resetBlocks_spec`) and the word then granted
(`State.settle_words`). -/
theorem controllerResetTaken : Obligations.ControllerResetTaken := by
  unfold Obligations.ControllerResetTaken
  intro s u
  have hu : u = s.handedOver := by
    unfold u State.handedOver
    obtain _ | _ | _ := s.path.holder <;> rfl
  clear_value u
  obtain ⟨p1, p2, p3, p4, p5⟩ := s.resetPort_spec
  obtain ⟨b1, b2, b3, ⟨b4, b5, b6, b7⟩, ⟨b8, b9, b10, b11, b12, b13⟩, ⟨b14, b15, b16⟩, c, hc⟩ := State.resetBlocks_spec _ p3 p4 p5
  have hrow : exec .controllerReset s = .next s.resetPort.resetBlocks.settle := congrArg settled s.controllerResets_eq
  generalize s.resetPort.resetBlocks = z at *
  have hq : z.busQuiet := ⟨b4, b5⟩
  have ha := State.settle_apart hq
  obtain ⟨w1, w2, w3⟩ := State.settle_words hq b6 (by rw [hc]; rfl) (by rw [hc]; rfl)
  have hcmd : z.settle.apart.cmd = z.apart.cmd := congrArg State.cmd ha
  have hpath : z.settle.apart.path = z.apart.path := congrArg State.path ha
  have hring : z.settle.apart.ring = z.apart.ring := congrArg State.ring ha
  have hcyc : z.settle.cyc = z.cyc := (congrArg State.cyc ha :)
  have htime : z.settle.time = z.time := (congrArg State.time ha :)
  have hmem : z.settle.mem = z.mem := (congrArg State.mem ha :)
  have hosc : z.settle.osc = z.osc := (congrArg State.osc ha :)
  have hslot (i : Slot) : z.settle.slot i = z.slot i := (congrArg (fun x : State => x.slot i) ha :)
  have hrange (o : Nat) : o ∈ z.cmd.rewrite ↔ 0x20 ≤ o ∧ o ≤ 0x5B := by
    rw [hc]
    change o ∈ List.range' 0x20 60 ↔ _
    rw [List.mem_range'_1]
    omega
  have hv : z.view.2 = (u.cmd.hub.afterReset, u.view.2.2) := by
    rw [b1, p1, hu, State.view_hub p1]
  have hstate (i : Slot) : (u.slot i).state = (s.resetPort.slot i).state := hu ▸ (State.view_state p1 i).symm
  have hperf : s.resetPort.mem = match s.path.holder with
      | some (.word ⟨_, _, .write a d⟩) => Memory.writeWord s.mem a d allBytes
      | some (.controller ⟨.write a d be, _⟩) => Memory.writeWord s.mem a d be
      | _ => s.mem := by
    rw [p2]
    unfold State.performedMem
    obtain _ | ⟨⟨_ | _, _⟩⟩ | ⟨_, _, _ | _⟩ := s.path.holder <;> rfl
  refine ⟨_, hrow, hmem.trans (b3.trans hperf), ?_⟩
  generalize z.settle = t at *
  have hhub : z.cmd.hub = u.cmd.hub.afterReset := congrArg (·.1) hv
  have hpend : t.cmd.pending = 0 := (congrArg CommandUnit.pending hcmd :).trans (congrArg CommandUnit.pending hc :)
  refine ⟨(congrArg MemoryPath.waiting hpath :).trans b4, (congrArg MemoryPath.line hpath :).trans b5,
    (congrArg MemoryPath.cdata hpath :).trans (congrArg (fun x => x.2.2.2.2.2.2.2) hv :),
    (congrArg MemoryPath.zones hpath :).trans b7,
    (congrArg MemoryPath.guardedCount hpath :).trans (congrArg (fun x => x.2.2.2.2.1) hv :),
    (congrArg MemoryPath.lastGuarded hpath :).trans (congrArg (fun x => x.2.2.2.2.2.1) hv :),
    (congrArg MemoryPath.partialCount hpath :).trans (congrArg (fun x => x.2.2.2.2.2.2.1) hv :),
    (congrArg CommandUnit.hub hcmd :).trans (hhub.trans ?_),
    (congrArg CommandUnit.collection hcmd :).trans (congrArg CommandUnit.collection hc :),
    (congrArg CommandUnit.transfer hcmd :).trans (congrArg CommandUnit.transfer hc :), (congrArg CommandUnit.setup hcmd :).trans (congrArg CommandUnit.setup hc :),
    (congrArg CommandUnit.record hcmd :).trans (congrArg CommandUnit.record hc :), (congrArg CommandUnit.mask hcmd :).trans (congrArg CommandUnit.mask hc :),
    hpend, by unfold State.attn; rw [hpend]; rfl,
    (congrArg CommandUnit.snapSec hcmd :).trans (congrArg (fun x => x.2.2.2.1.1) hv :),
    (congrArg CommandUnit.snapNs hcmd :).trans (congrArg (fun x => x.2.2.2.1.2) hv :), w1,
    fun o ho => (hrange o).mp (w2 o ho), fun o h1 h2 => w3 o ((hrange o).mpr ⟨h1, h2⟩),
    (congrArg RingEngine.state hring :).trans b8, (congrArg RingEngine.rxIdx hring :).trans b9,
    (congrArg RingEngine.txIdx hring :).trans b10, (congrArg RingEngine.rx hring :).trans b11,
    (congrArg RingEngine.tx hring :).trans b12, (congrArg RingEngine.exam hring :).trans b13,
    by rw [hcyc]; exact b14, by rw [hcyc]; exact b15, by rw [hcyc]; exact b16,
    (congrArg TimeBase.sec htime).trans (congrArg (fun x => x.2.2.1.1) hv :),
    (congrArg TimeBase.ns htime).trans (congrArg (fun x => x.2.2.1.2.1) hv :),
    (congrArg TimeBase.trim htime).trans (congrArg (fun x => x.2.2.1.2.2) hv :),
    hosc.trans (congrArg (fun x => x.2.1) hv :),
    fun i hi => (congrArg SlotEntry.state (hslot i)).trans ((b2 i (hstate i ▸ hi)).trans (hstate i).symm)⟩
  obtain _ | ⟨_ | _⟩ | _ | _ | _ := u.cmd.hub <;> rfl

end Sys2Proof.Machine
end

section
/-! SUPPORT. Training completion (O40). -/

namespace Sys2Proof.Machine

open Sys2Proof

variable {s t u v : State} {i : Slot} {p : Plane}

/-! ## Lane states -/

/-- The lane states. -/
def State.laneStates (s : State) (i : Slot) (p : Plane) : LaneState := (s.lane i p).state

theorem State.laneStates_of_lanes (h : t.lanes = s.lanes) : t.laneStates = s.laneStates := by
  funext i p
  unfold State.laneStates State.lane
  rw [h]

theorem foldl_laneStates {α : Type} {f : State → α → State} (h : ∀ s x, (f s x).laneStates = s.laneStates) (l : List α)
    (s : State) : (l.foldl f s).laneStates = s.laneStates := by
  induction l generalizing s with
  | nil => rfl
  | cons x l ih => rw [List.foldl_cons, ih, h]

theorem State.setLane_laneStates {l : LanePort} (h : l.state = (s.lane i p).state) :
    (s.setLane i p l).laneStates = s.laneStates := by
  funext j q
  unfold State.laneStates
  by_cases hj : j = i
  · rw [hj, State.lane_setLane_same_slot]
    split
    · rename_i hq
      rw [hq, h]
    · rfl
  · rw [State.lane_setLane_ne s p q l (Ne.symm hj)]

@[simp] theorem State.kickLane_laneStates (s : State) (i : Slot) (p : Plane) : (s.kickLane i p).laneStates = s.laneStates := by
  have hstart (u : State) (f : CtlFrame) : (u.reportStart f).laneStates = u.laneStates := by
    unfold State.reportStart
    split <;> rfl
  unfold State.kickLane
  dsimp only
  split
  · split
    · exact (hstart ..).trans (State.setLane_laneStates rfl)
    · split
      · split
        · exact State.setLane_laneStates (s := s) rfl
        · exact State.setLane_laneStates (s := s) rfl
        · rfl
      · rfl
  · rfl

@[simp] theorem State.kickSlot_laneStates (s : State) (i : Slot) : (s.kickSlot i).laneStates = s.laneStates := by
  rw [State.kickSlot, State.kickLane_laneStates, State.kickLane_laneStates]

@[simp] theorem State.dropClaim_laneStates (s : State) (id : Nat) : (s.dropClaim id).laneStates = s.laneStates := by
  unfold State.dropClaim
  dsimp only
  split <;> rfl

@[simp] theorem State.abandonTx_laneStates (i : Slot) (c : Cls) (s : State) (p : Plane) :
    (State.abandonTx i c s p).laneStates = s.laneStates := by
  unfold State.abandonTx
  dsimp only
  split
  · split
    · exact (State.dropClaim_laneStates ..).trans (State.setLane_laneStates (s := s) rfl)
    · rfl
  · rfl

@[simp] theorem State.emptyQueue_laneStates (i : Slot) (s : State) (c : Cls) :
    (State.emptyQueue i s c).laneStates = s.laneStates := by
  unfold State.emptyQueue
  dsimp only
  split
  · rfl
  · exact foldl_laneStates (fun s p => State.abandonTx_laneStates i c s p) _ s

@[simp] theorem State.flush_laneStates (s : State) (i : Slot) (cs : List Cls) : (s.flush i cs).laneStates = s.laneStates := by
  rw [State.flush, State.kickSlot_laneStates, foldl_laneStates (fun s c => State.emptyQueue_laneStates i s c)]

@[simp] theorem State.putTime_laneStates (s : State) (x : TimeBase) : (s.putTime x).laneStates = s.laneStates := by
  unfold State.putTime
  dsimp only
  split
  · rfl
  · exact foldl_laneStates (fun s i => by split <;> simp) _ _

@[simp] theorem State.putSlot_laneStates (s : State) (i : Slot) (e : SlotEntry) : (s.putSlot i e).laneStates = s.laneStates :=
  State.laneStates_of_lanes (State.putSlot_lanes ..)

@[simp] theorem State.clearCardPoints_laneStates (s : State) (i : Slot) : (s.clearCardPoints i).laneStates = s.laneStates := by
  have hplace (u : State) (b : LogBody) : (u.placeChange b).laneStates = u.laneStates := by
    unfold State.placeChange
    split
    · split
      · split <;> rfl
      · split <;> rfl
    · rfl
  refine foldl_laneStates (fun s k => ?_) _ _
  dsimp only
  split
  · unfold State.movePoint
    dsimp only
    split
    · rfl
    · split
      · exact hplace ..
      · split
        · exact hplace ..
        · rfl
  · rfl

@[simp] theorem State.changeSlot_laneStates (s : State) (i : Slot) (new : SlotEntry) :
    (s.changeSlot i new).laneStates = s.laneStates := by
  have hroom (u : State) : u.roomReport.laneStates = u.laneStates := rfl
  have hdis (u : State) : (u.disqualifySlot i).laneStates = u.laneStates := State.putTime_laneStates ..
  have hflush (u : State) : (u.flushBoth i).laneStates = u.laneStates := State.flush_laneStates ..
  unfold State.changeSlot
  dsimp only
  (repeat' split) <;> simp [hroom, hdis, hflush]

@[simp] theorem State.submit_laneStates (s : State) (i : Slot) (p : Plane) (f : CtlFrame) :
    (s.submit i p f).1.laneStates = s.laneStates := by
  unfold State.submit
  dsimp only
  split
  · exact (State.kickLane_laneStates ..).trans (State.setLane_laneStates rfl)
  · exact State.setLane_laneStates rfl

/-! ## A slot's entry after a change -/

theorem State.changeSlot_sm (s : State) (i : Slot) (new : SlotEntry) : (s.changeSlot i new).sm = (s.setSlot i new).sm := by
  refine Eq.trans ?_ (s.putSlot_slot i new)
  unfold State.changeSlot
  dsimp only
  (repeat' split) <;> simp

theorem State.changeSlot_slot (s : State) (i : Slot) (new : SlotEntry) : (s.changeSlot i new).slot i = new := by
  unfold State.slot
  rw [State.changeSlot_sm]
  exact State.slot_setSlot_self ..

/-- A move between states whose lane enables are alike, out of a state other than ADMITTED or into ADMITTED. -/
theorem State.moveSlot_eq_changeSlot {new : SlotEntry} (ha : (s.slot i).state ≠ .admitted ∨ new.state = .admitted)
    (hl : (s.slot i).state.laneOn = new.state.laneOn) : s.moveSlot i new = s.changeSlot i new := by
  have hstay : ((decide ((s.slot i).state = .admitted)) && decide (new.state ≠ .admitted)) = false := by
    obtain h | h := ha
    · rw [decide_eq_false h, Bool.false_and]
    · rw [decide_eq_false (not_not.mpr h), Bool.and_false]
  unfold State.moveSlot
  dsimp only
  rw [hstay, if_neg Bool.false_ne_true]
  unfold State.followEnable
  dsimp only
  rw [State.changeSlot_slot, if_pos hl]

theorem SlotEntry.recordLane_up (e : SlotEntry) (p : Plane) : e.recordLane p .up = e.setLaneState p .up := by
  unfold SlotEntry.recordLane
  simp

/-! ## An IDENT_REQUEST (R65) -/

/-- R49, R50, R65: an IDENT_REQUEST starts at once on a lane that is UP and has nothing to send. -/
theorem State.requestIdent_idle (hl : (u.lane i p).state = .up) (hq : (u.lane i p).queue = []) (ht : (u.lane i p).tx = .none) :
    u.requestIdent i p = u.setLane i p { u.lane i p with
      tx := .control ⟨.identRequest, .slotManager⟩ (controlFrame i .identRequest []) } := by
  unfold State.requestIdent
  rw [State.submit_idle hl hq ht]
  rfl

/-- A slot in a state that draws no queue: a lane that comes UP with nothing to send stays idle. -/
theorem State.kickLane_quiet (hq : (u.lane i p).queue = []) (hd : ¬ (u.slot i).state.drawing) : u.kickLane i p = u :=
  State.kickLane_still fun _ _ => ⟨hq, fun h => absurd h hd⟩

/-- R64: a slot goes from TRAINING to IDENTIFYING, its other lane not UP. -/
theorem State.enterIdentifying_trained {e : SlotEntry} (he : (u.slot i) = e) (hst : e.state = .training)
    (hl : ∀ q, (u.lane i q).state = .up → (u.lane i q).queue = []) : u.enterSlot i .identifying id =
      u.putSlot i { e with state := .identifying, timer := some (u.osc + 100000000), pwren := true } := by
  have henter : e.enter .identifying u.osc = { e with state := .identifying, timer := some (u.osc + 100000000), pwren := true } := by
    unfold SlotEntry.enter
    rw [hst]
    simp [SlotState.powered, SlotState.timerFrom, SlotState.clearsOverride, Config.identWaitPeriods, Config.msPeriods]
  unfold State.enterSlot
  rw [he, show (id e).enter .identifying u.osc = _ from henter]
  refine State.moveSlot_keeps ⟨⟨fun q hq _ => ⟨hl q hq, fun h => ?_⟩, .inl ?_, .inl ?_, fun h => ?_, .inl ?_⟩, fun h => ?_⟩ ?_
  · rcases h with h | h <;> cases h
  · rw [he]
    unfold SlotEntry.serving
    rw [hst]
    rfl
  · rw [he]
    simp [SlotEntry.leaves, hst]
  · rw [he, hst] at h
    cases h
  · rw [he]
    have hd (q : Plane) : ({ e with state := .identifying, timer := some (u.osc + 100000000), pwren := true } : SlotEntry).delay q
        = e.delay q := by cases q <;> rfl
    simp [SlotEntry.breaksRef, hst, hd]
  · rw [he, hst] at h
    cases h
  · rw [he, hst]
    rfl

theorem State.setLane_congr {x : State} {l : LanePort} (h : s.apart = x.apart) : (s.setLane i p l).apart = (x.setLane i p l).apart :=
  (congrArg (fun y : State => (y.setLane i p l).apart) h :)

/-! ## O40 -/

theorem State.laneTrained_state (h : (s.lane i p).state = .training) : ((s.laneTrained i p).lane i p).state = .up ∧
    ((s.laneTrained i p).slot i).laneState p = .up ∧
    ((s.laneTrained i p).slot i).state = if (s.slot i).state = .training then .identifying else (s.slot i).state := by
  have hup (x : SlotEntry) : (x.setLaneState p .up).laneState p = .up := by cases p <;> rfl
  unfold State.laneTrained
  dsimp only
  rw [if_pos h]
  have hstates := State.kickLane_laneStates (s.setLane i p { s.lane i p with state := .up }) i p
  have hsm := State.kickLane_sm (s.setLane i p { s.lane i p with state := .up }) i p
  generalize (s.setLane i p { s.lane i p with state := .up }).kickLane i p = u at hstates hsm
  have hlane : (u.lane i p).state = .up := by
    have := congrFun (congrFun hstates i) p
    unfold State.laneStates at this
    rw [this, State.lane_setLane_self]
  have hslot : u.slot i = s.slot i := (congrArg (fun m : SlotManager => vget m.slots i) hsm :)
  have hkeep {x : State} (hx : x.laneStates = u.laneStates) : (x.lane i p).state = .up :=
    (congrFun (congrFun hx i) p).trans hlane
  unfold State.slotLane
  rw [hslot, SlotEntry.recordLane_up]
  dsimp only
  rw [if_pos rfl]
  have hst : ((s.slot i).setLaneState p .up).state = (s.slot i).state := by cases p <;> rfl
  rw [hst]
  have hsubmit (x : State) : (x.requestIdent i p).slot i = x.slot i :=
    (congrArg (fun m : SlotManager => vget m.slots i) (State.submit_sm x i p _) :)
  split
  · rename_i htr
    have hself := State.putSlot_slot_self u i ((s.slot i).setLaneState p .up)
    have hmove : (u.putSlot i ((s.slot i).setLaneState p .up)).enterSlot i .identifying id =
        (u.putSlot i ((s.slot i).setLaneState p .up)).changeSlot i
          ((id ((u.putSlot i ((s.slot i).setLaneState p .up)).slot i)).enter .identifying
            (u.putSlot i ((s.slot i).setLaneState p .up)).osc) :=
      State.moveSlot_eq_changeSlot (.inl (by rw [hself, hst, htr]; exact nofun)) (by rw [hself, hst, htr]; rfl)
    refine ⟨hkeep ((State.submit_laneStates ..).trans ?_), ?_, ?_⟩
    · rw [hmove, State.changeSlot_laneStates, State.putSlot_laneStates]
    · rw [hsubmit, hmove, State.changeSlot_slot, hself]
      have henter : (id ((s.slot i).setLaneState p .up)).enter .identifying (u.putSlot i ((s.slot i).setLaneState p .up)).osc =
          { (s.slot i).setLaneState p .up with
            state := .identifying, timer := some ((u.putSlot i ((s.slot i).setLaneState p .up)).osc + 100000000), pwren := true } := by
        unfold SlotEntry.enter
        rw [id, hst, htr]
        simp [SlotState.powered, SlotState.timerFrom, SlotState.clearsOverride, Config.identWaitPeriods, Config.msPeriods]
      rw [henter]
      cases p <;> rfl
    · rw [hsubmit, hmove, State.changeSlot_slot, if_pos htr]
      rfl
  · rename_i htr
    refine ⟨hkeep ((State.submit_laneStates ..).trans (State.putSlot_laneStates ..)), ?_, ?_⟩
    · rw [hsubmit, State.putSlot_slot_self]
      exact hup _
    · rw [hsubmit, State.putSlot_slot_self, if_neg (by rw [htr]; exact nofun), hst, htr]
  · rename_i hno1 hno2
    have hchoose : (((s.slot i).setLaneState p .up).choosePlane).state = (s.slot i).state ∧
        (((s.slot i).setLaneState p .up).choosePlane).laneState p = .up := by
      unfold SlotEntry.choosePlane
      split
      · split
        · exact ⟨hst, by cases p <;> rfl⟩
        · exact ⟨hst, hup _⟩
      · exact ⟨hst, hup _⟩
    have hmove : u.moveSlot i ((s.slot i).setLaneState p .up).choosePlane = u.changeSlot i ((s.slot i).setLaneState p .up).choosePlane := by
      refine State.moveSlot_eq_changeSlot ?_ (by rw [hslot, hchoose.1])
      rw [hslot, hchoose.1]
      exact (em _).symm
    rw [hmove]
    refine ⟨hkeep (State.changeSlot_laneStates ..), ?_, ?_⟩
    · rw [State.changeSlot_slot]
      exact hchoose.2
    · rw [State.changeSlot_slot, if_neg hno1]
      exact hchoose.1

/-- Settles O40: by the slot's state; in every case by `State.laneTrained_state`. -/
theorem laneTrains : Obligations.LaneTrains := by
  unfold Obligations.LaneTrains
  intro i p s hq
  have row {x : State} (hx : (s.laneTrained i p).apart = x) : ∃ t, exec (.trainingComplete i p) s = .next t ∧ t.apart = x :=
    work_apart hq (by simp) hx
  refine ⟨fun h => row ?_, fun h hqueue htx => ?_, fun h => ?_⟩
  · unfold State.laneTrained
    dsimp only
    rw [if_neg h]
  · intro up e
    have hst : e.state = (s.slot i).state := by cases p <;> rfl
    have htrained (hd : ¬ (s.slot i).state.drawing) :
        s.laneTrained i p = (s.setLane i p { s.lane i p with state := .up }).slotLane i p .up := by
      unfold State.laneTrained
      dsimp only
      rw [if_pos h, State.kickLane_quiet (by rw [State.lane_setLane_self]; exact hqueue) (by exact hd)]
    have hslot : (s.setLane i p { s.lane i p with state := .up }).slot i = s.slot i := rfl
    have hsum : ((s.setLane i p { s.lane i p with state := .up }).slot i).summary = e.summary := by cases p <;> rfl
    have hask {u : State} (hu : u.lanes = (s.setLane i p { s.lane i p with state := .up }).lanes) : u.requestIdent i p =
        u.setLane i p { s.lane i p with
          state := .up, tx := .control ⟨.identRequest, .slotManager⟩ (controlFrame i .identRequest []) } := by
      have hl : u.lane i p = { s.lane i p with state := .up } := by
        unfold State.lane
        rw [hu]
        exact State.lane_setLane_self ..
      rw [State.requestIdent_idle (by rw [hl]) (by rw [hl]; exact hqueue) (by rw [hl]; exact htx), hl]
    refine ⟨fun htr hother => row ?_, fun hid => row ?_⟩
    · have hquiet (q : Plane) (hup : (((s.setLane i p { s.lane i p with state := .up }).putSlot i e).lane i q).state = .up) :
          (((s.setLane i p { s.lane i p with state := .up }).putSlot i e).lane i q).queue = [] := by
        have hl : ((s.setLane i p { s.lane i p with state := .up }).putSlot i e).lane i q =
            (s.setLane i p { s.lane i p with state := .up }).lane i q := by
          unfold State.lane
          rw [State.putSlot_lanes]
        rw [hl, State.lane_setLane_same_slot] at hup ⊢
        split
        · exact hqueue
        · rename_i hq
          rw [if_neg hq] at hup
          have : q = p.other := by cases p <;> cases q <;> first | rfl | exact absurd rfl hq
          exact absurd (this ▸ hup) hother
      rw [htrained (by rw [htr]; rintro (h | h) <;> cases h)]
      unfold State.slotLane
      rw [hslot, SlotEntry.recordLane_up]
      dsimp only
      rw [if_pos rfl, hst, htr]
      dsimp only
      rw [State.enterIdentifying_trained (State.putSlot_slot_self ..) (hst.trans htr) hquiet, hask ((State.putSlot_lanes ..).trans (State.putSlot_lanes ..))]
      refine (State.setLane_congr (?_ : _ = ((s.setLane i p { s.lane i p with state := .up }).slotBecomes i
        { e with state := .identifying, timer := some (s.osc + 100000000), pwren := true }).apart)).trans ?_
      · rw [State.putSlot_congr (State.putSlot_apart ..), State.putSlot_osc,
          State.becomes_same (e := e) hsum, State.becomes_moves (by
            rw [State.slot_setSlot_self, hst, htr]
            exact nofun), State.setSlot_slotBecomes]
        rfl
      · exact congrArg (fun x : State => (x.slotBecomes i _).apart) (State.setLane_setLane ..)
    · rw [htrained (by rw [hid]; rintro (h | h) <;> cases h)]
      unfold State.slotLane
      rw [hslot, SlotEntry.recordLane_up]
      dsimp only
      rw [if_pos rfl, hst, hid]
      dsimp only
      rw [hask (State.putSlot_lanes ..)]
      refine (State.setLane_congr (?_ : _ = ((s.setLane i p { s.lane i p with state := .up }).setSlot i e).apart)).trans ?_
      · rw [State.putSlot_apart, State.becomes_same (e := e) hsum]
      · exact congrArg (fun x : State => (x.setSlot i _).apart) (State.setLane_setLane ..)
  · obtain ⟨t, ht, ha⟩ := row rfl
    obtain ⟨h1, h2, h3⟩ := State.laneTrained_state h
    have hlanes : t.lane i p = (s.laneTrained i p).lane i p := (congrArg (fun x : State => x.lane i p) ha :)
    have hslot : t.slot i = (s.laneTrained i p).slot i := (congrArg (fun x : State => x.slot i) ha :)
    exact ⟨t, ht, by rw [hlanes, h1], by rw [hslot, h2], by rw [hslot, h3]⟩

end Sys2Proof.Machine
end

section
/-! SUPPORT. Loss of signal (O41). -/

namespace Sys2Proof.Machine

open Sys2Proof

variable {s t u v : State} {i : Slot} {p : Plane}

/-! ## What a loss finds nothing to do in -/

/-- A change that keeps the slot's state, FENCED flag and active plane, and breaks no reference, is kept alone. -/
theorem State.changeSlot_alike {e : SlotEntry} (hst : e.state = (u.slot i).state) (hf : e.fenced = (u.slot i).fenced)
    (ha : e.active = (u.slot i).active) (hr : (u.slot i).breaksRef e = false ∨ u.noRef i) : u.changeSlot i e = u.putSlot i e := by
  have hserv : (u.slot i).serving = e.serving := by
    unfold SlotEntry.serving
    rw [hst, hf]
  have hleaves : ((u.slot i).leaves e || (!(u.slot i).fenced && e.fenced)) = false := by
    unfold SlotEntry.leaves
    rw [hst, hf]
    cases (u.slot i).state <;> cases (u.slot i).fenced <;> rfl
  have hdis : (if (u.slot i).breaksRef e then (u.putSlot i e).disqualifySlot i else u.putSlot i e) = u.putSlot i e := by
    split
    · rename_i hb
      refine State.disqualifySlot_still fun k => ?_
      unfold State.ref
      rw [State.putSlot_time]
      exact hr.resolve_left (by rw [hb]; exact Bool.noConfusion) k
    · rfl
  have hcards : ((decide ((u.slot i).state = .admitted)) && decide (e.state ≠ .admitted)) = false := by
    rw [hst]
    cases (u.slot i).state <;> rfl
  unfold State.changeSlot
  dsimp only
  rw [if_pos hserv, hleaves, if_neg Bool.false_ne_true, hcards, if_neg Bool.false_ne_true, hdis, hst, ha]
  simp

theorem State.moveSlot_alike {e : SlotEntry} (hst : e.state = (u.slot i).state) (hf : e.fenced = (u.slot i).fenced)
    (ha : e.active = (u.slot i).active) (hr : u.noRef i) : u.moveSlot i e = u.putSlot i e := by
  rw [State.moveSlot_eq_changeSlot (by rw [hst]; exact (em _).symm) (by rw [hst]), State.changeSlot_alike hst hf ha (.inr hr)]

theorem State.reportUnsent_idle (h : s.cyc.entry = none) (fs : List CtlFrame) : s.reportUnsent fs = s := by
  unfold State.reportUnsent
  refine foldl_still (fun f => ?_) fs
  unfold State.reportControl
  split
  · rfl
  · rw [h]

theorem State.pollLaneDown_idle (h : s.cyc.entry = none) : s.pollLaneDown i p = s := by
  unfold State.pollLaneDown State.attemptOf State.pollRun
  rw [h]

/-- R41, R157: a lane of the port table goes out of UP, and the plane's delay is no longer valid. -/
theorem SlotEntry.recordLane_lost {e : SlotEntry} (h : e.laneState p = .up) : e.recordLane p .training =
    (e.setLaneState p .training).setDelay p { (e.setLaneState p .training).delay p with valid := false } := by
  unfold SlotEntry.recordLane
  dsimp only
  rw [h]
  cases p <;> rfl

/-! ## The loss (R40, R41) -/

/-- A loss of signal with no cycle entry in progress, the lane settled to `v`. -/
theorem State.laneLost_settles (hup : (s.lane i p).state = .up) (hc : (s.leaveUp i p .training).cyc.entry = none)
    (h : (s.leaveUp i p .training).slotLane i p .training = v) (hv : v.cyc.entry = none) : s.laneLost i p = v := by
  unfold State.laneLost
  dsimp only
  rw [if_pos hup, State.reportUnsent_idle hc, h, State.pollLaneDown_idle hv]

/-- R40, R159: what the slot manager does on a loss: the plane choice follows, unless an ADMITTED slot has lost both lanes. -/
theorem State.slotLane_lost (h : ¬ ((s.slot i).state = .admitted ∧ ((s.slot i).recordLane p .training).bothDown)) :
    s.slotLane i p .training = s.moveSlot i ((s.slot i).recordLane p .training).choosePlane := by
  have hst : ((s.slot i).recordLane p .training).state = (s.slot i).state :=
    congrArg (·.1) (SlotEntry.recordLane_summary (s.slot i) p .training)
  unfold State.slotLane
  dsimp only
  rw [if_neg (by exact nofun), if_neg (by
    rw [hst]
    simpa only [Bool.and_eq_true, decide_eq_true_eq] using h)]

/-- The entry of a slot that has lost a lane. -/
def SlotEntry.lost (e : SlotEntry) (p : Plane) : SlotEntry :=
  (e.setLaneState p .training).setDelay p { (e.setLaneState p .training).delay p with valid := false }

theorem SlotEntry.lost_state (e : SlotEntry) (p : Plane) :
    (e.lost p).state = e.state ∧ (e.lost p).fenced = e.fenced ∧ (e.lost p).active = e.active ∧ (e.lost p).cfg = e.cfg := by
  cases p <;> exact ⟨rfl, rfl, rfl, rfl⟩

theorem SlotEntry.lost_summary (e : SlotEntry) (p : Plane) : (e.lost p).summary = e.summary := by
  cases p <;> rfl

theorem SlotEntry.lost_bothDown {e : SlotEntry} (h : e.laneState p.other = .up) : ¬ (e.lost p).bothDown := by
  cases p <;> simp_all [SlotEntry.lost, SlotEntry.bothDown, SlotEntry.setLaneState, SlotEntry.setDelay, SlotEntry.laneState,
    Plane.other]

/-- R41, R157: a loss with no cycle entry in progress, no reference entry naming the slot, and no plane to move to. -/
theorem State.laneLost_stays {x : State} (hup : (s.lane i p).state = .up) (hu : (s.leaveUp i p .training).apart = x.apart)
    (hslot : x.slot i = s.slot i) (hc : x.cyc.entry = none) (hr : x.noRef i) (hlane : (s.slot i).laneState p = .up)
    (hno : ¬ ((s.slot i).state = .admitted ∧ ((s.slot i).lost p).bothDown))
    (hstay : ((s.slot i).lost p).choosePlane = (s.slot i).lost p) :
    (s.laneLost i p).apart = (x.setSlot i ((s.slot i).lost p)).apart := by
  obtain ⟨hst, hf, ha, hcfg⟩ := (s.slot i).lost_state p
  have huslot : (s.leaveUp i p .training).slot i = s.slot i := (congrArg (fun y : State => y.slot i) hu :).trans hslot
  have hucyc : (s.leaveUp i p .training).cyc.entry = none := (congrArg (fun y : State => y.cyc.entry) hu :).trans hc
  have hutime : (s.leaveUp i p .training).time = x.time := (congrArg (fun y : State => y.time) hu :)
  have hur : (s.leaveUp i p .training).noRef i := fun k => by
    unfold State.ref
    rw [hutime]
    exact hr k
  have hrec : ((s.leaveUp i p .training).slot i).recordLane p .training = (s.slot i).lost p := by
    rw [huslot, SlotEntry.recordLane_lost hlane]
    rfl
  rw [State.laneLost_settles hup hucyc (v := (s.leaveUp i p .training).putSlot i ((s.slot i).lost p)) ?_ ?_,
    State.putSlot_congr hu, State.becomes_same]
  · rw [hslot, SlotEntry.lost_summary]
  · rw [State.slotLane_lost (by rw [hrec, huslot]; exact hno), hrec, hstay]
    exact State.moveSlot_alike (by rw [huslot, hst]) (by rw [huslot, hf]) (by rw [huslot, ha]) hur
  · rw [State.putSlot_cyc, hucyc]

/-- R159: a loss on the active plane of an ADMITTED slot under AUTO, nothing in the slot being waited for. -/
theorem State.laneLost_moves {x : State} (hup : (s.lane i p).state = .up) (hu : (s.leaveUp i p .training).apart = x.apart)
    (hslot : x.slot i = s.slot i) (hx : x.slotStill i) (hlane : (s.slot i).laneState p = .up)
    (hadm : (s.slot i).state = .admitted) (hauto : (s.slot i).cfg.policy = .auto) (hact : (s.slot i).active = p)
    (hother : (s.slot i).laneState p.other = .up) :
    (s.laneLost i p).apart = (x.slotBecomes i { (s.slot i).lost p with active := p.other, alt := 0 }).apart := by
  obtain ⟨hqs, hws, hc, htx, hrefs, hcards⟩ := hx
  obtain ⟨hst, hf, ha, hcfg⟩ := (s.slot i).lost_state p
  have huslot : (s.leaveUp i p .training).slot i = s.slot i := (congrArg (fun y : State => y.slot i) hu :).trans hslot
  have hucyc : (s.leaveUp i p .training).cyc.entry = none := (congrArg (fun y : State => y.cyc.entry) hu :).trans hc
  have hutime : (s.leaveUp i p .training).time = x.time := (congrArg (fun y : State => y.time) hu :)
  have hulanes : (s.leaveUp i p .training).lanes = x.lanes := (congrArg (fun y : State => y.lanes) hu :)
  have husw : (s.leaveUp i p .training).sw = x.sw := (congrArg (fun y : State => y.sw) hu :)
  have hrec : ((s.leaveUp i p .training).slot i).recordLane p .training = (s.slot i).lost p := by
    rw [huslot, SlotEntry.recordLane_lost hlane]
    rfl
  have hchoose : ((s.slot i).lost p).choosePlane = { (s.slot i).lost p with active := p.other, alt := 0 } := by
    have hw : ((s.slot i).lost p).wantsPlane = some p.other := by
      unfold SlotEntry.wantsPlane
      rw [hcfg, hauto, ha, hact]
      cases p <;> simp_all [SlotEntry.lost, SlotEntry.setLaneState, SlotEntry.setDelay, SlotEntry.laneState, Plane.other]
    unfold SlotEntry.choosePlane
    rw [hst, hadm, hw]
    rfl
  have hmove : (s.leaveUp i p .training).moveSlot i { (s.slot i).lost p with active := p.other, alt := 0 } =
      (s.leaveUp i p .training).putSlot i { (s.slot i).lost p with active := p.other, alt := 0 } := by
    refine State.moveSlot_keeps ⟨⟨fun q _ _ => ⟨?_, fun _ c => ?_⟩, .inl ?_, .inr fun c => ?_, fun _ h => ?_, .inr fun k => ?_⟩,
      fun _ _ => hucyc⟩ ?_
    · unfold State.lane
      rw [hulanes]
      exact hqs q
    · rw [husw]
      exact hws c
    · rw [huslot]
      unfold SlotEntry.serving
      exact (congrArg₂ (fun (a : SlotState) (b : Bool) => a == .admitted && !b) hst hf).symm
    · rw [husw]
      exact hws c
    · exact absurd (hst.trans hadm) h
    · unfold State.ref
      rw [hutime]
      exact hrefs k
    · rw [huslot]
      exact congrArg SlotState.laneOn hst.symm
  rw [State.laneLost_settles hup hucyc (v := (s.leaveUp i p .training).putSlot i { (s.slot i).lost p with
    active := p.other, alt := 0 }) ?_ ?_, State.putSlot_congr hu]
  · refine congrArg State.apart (if_neg fun h => ?_)
    have hplane : (s.slot i).active = p.other := by
      rw [hslot] at h
      exact congrArg (fun y => y.2.2) h
    rw [hact] at hplane
    cases p <;> cases hplane
  · rw [State.slotLane_lost (by rw [hrec, huslot]; exact fun h => SlotEntry.lost_bothDown hother h.2), hrec, hchoose, hmove]
  · rw [State.putSlot_cyc, hucyc]

/-- R41, R52: a DATA frame cut on a lane, its slot's other lane at work: the claim on it ends. -/
theorem State.leaveUp_data {c : Cls} {f : Stored} {st : LaneState} (htx : (s.lane i p).tx = .data c f.id)
    (hfind : s.sw.find f.id = some f) (hrefs : 2 ≤ f.refs) (hbusy : (s.lane i p.other).tx ≠ .none) :
    (s.leaveUp i p st).apart = (({ s with
      draws := s.draws + 1
      sw := s.sw.modify f.id (fun x => { x with refs := x.refs - 1 }) } : State).setLane i p
        ((s.lane i p).settled st ((f.header ++ f.payload).take (Config.bytesSent s.draws i p)))).apart := by
  have hbytes : s.sentPart i p (.data c f.id) = (f.header ++ f.payload).take (Config.bytesSent s.draws i p) := by
    unfold State.sentPart State.txBytes SwitchCore.bytesOf
    dsimp only
    rw [hfind]
  unfold State.leaveUp
  dsimp only
  rw [htx]
  dsimp only
  rw [hbytes]
  have href : s.sw.dropRef f.id = s.sw.modify f.id (fun x => { x with refs := x.refs - 1 }) := by
    unfold SwitchCore.dropRef
    rw [hfind]
    exact if_neg (by omega)
  have hdrop (v : State) (hv : v.sw = s.sw) : v.dropClaim f.id =
      v.setSw (s.sw.modify f.id (fun x => { x with refs := x.refs - 1 })) := by
    unfold State.dropClaim
    rw [hv, href]
    exact if_neg (Nat.lt_irrefl s.sw.free)
  rw [hdrop _ (by rfl), State.kickLane_still]
  · rfl
  · intro _ hfree
    exact absurd ((congrArg (·.tx) (s.lane_setLane_other i p _)).symm.trans hfree) hbusy

/-- R44, R56: the partial frames counted when a lane settles. -/
def LanePort.partials (l : LanePort) : Nat := if l.staging.isSome then min (l.partialCount + 1) 4294967295 else l.partialCount

/-! What a lane that settles is, by what it had in transmission (R41, R52). -/

theorem LanePort.settled_idle {l : LanePort} {st : LaneState} {sent : List Byte} (h : l.tx = .none) : l.settled st sent =
    { l with
      state := st, staging := none, queue := [], partialCount := l.partials
      notSent := min (l.notSent + l.queue.length) 4294967295 } := by
  obtain ⟨enable, state, staging, queue, tx, partialCount, setAside, resend, notSent, lastOut, overtaken⟩ := l
  subst h
  unfold LanePort.settled LanePort.partials LanePort.unsent
  cases staging <;> rfl

theorem LanePort.settled_control {l : LanePort} {st : LaneState} {sent bs : List Byte} {f : CtlFrame} (h : l.tx = .control f bs) :
    l.settled st sent = { l with
      state := st, staging := none, queue := [], tx := .none, partialCount := l.partials
      notSent := min (l.notSent + (l.queue.length + 1)) 4294967295, lastOut := .cut sent } := by
  obtain ⟨enable, state, staging, queue, tx, partialCount, setAside, resend, notSent, lastOut, overtaken⟩ := l
  subst h
  unfold LanePort.settled LanePort.partials LanePort.unsent
  cases staging <;> rfl

theorem LanePort.settled_data {l : LanePort} {st : LaneState} {sent : List Byte} {c : Cls} {id : Nat} (h : l.tx = .data c id)
    (hq : l.queue = []) (hn : l.notSent ≤ 4294967295) : l.settled st sent = { l with
      state := st, staging := none, tx := .none, partialCount := l.partials
      resend := min (l.resend + 1) 4294967295, lastOut := .cut sent } := by
  obtain ⟨enable, state, staging, queue, tx, partialCount, setAside, resend, notSent, lastOut, overtaken⟩ := l
  subst h
  subst hq
  have hmin : satAdd Config.sat32 notSent 0 = notSent := Nat.min_eq_left hn
  unfold LanePort.settled LanePort.partials LanePort.unsent
  cases staging <;> exact congrArg (fun n => LanePort.mk enable st none [] .none _ setAside _ n _ overtaken) hmin

/-! ## O41 -/

/-- Settles O41: `State.laneLost_settles` with what the lane had in transmission; the plane choice by the slot's entry. -/
theorem signalLossTaken : Obligations.SignalLossTaken := by
  unfold Obligations.SignalLossTaken
  intro i p s hq l sent e lost partials
  have row {x : State} (hx : (s.laneLost i p).apart = x) : ∃ t, exec (.lossOfSignal i p) s = .next t ∧ t.apart = x :=
    work_apart hq (by simp) hx
  refine ⟨fun h => row ?_, fun hup hlane hent hrefs => ⟨fun hid => ⟨fun htx => row ?_, fun f bs htx => row ?_⟩, ?_, ?_⟩⟩
  · unfold State.laneLost
    dsimp only
    rw [if_neg h]
  · have hstay : ((s.slot i).lost p).choosePlane = (s.slot i).lost p := by
      unfold SlotEntry.choosePlane
      rw [((s.slot i).lost_state p).1, hid]
      rfl
    rw [State.laneLost_stays (x := s.setLane i p _) hup (congrArg State.apart (State.leaveUp_clear htx)) rfl hent hrefs hlane
      (fun h => absurd (hid.symm.trans h.1) nofun) hstay, LanePort.settled_idle htx]
    rfl
  · have hstay : ((s.slot i).lost p).choosePlane = (s.slot i).lost p := by
      unfold SlotEntry.choosePlane
      rw [((s.slot i).lost_state p).1, hid]
      rfl
    have hleave : s.leaveUp i p .training = { s with draws := s.draws + 1 }.setLane i p ((s.lane i p).settled .training (sent bs)) := by
      unfold State.leaveUp
      dsimp only
      rw [htx]
      rfl
    rw [State.laneLost_stays hup (congrArg State.apart hleave) rfl hent hrefs hlane
      (fun h => absurd (hid.symm.trans h.1) nofun) hstay, LanePort.settled_control htx]
    rfl
  · intro c f hadm hw hother hlq hcount htx hbusy hfind hrefs2
    have hstay : ((s.slot i).lost p).choosePlane = (s.slot i).lost p := by
      have hw' : ((s.slot i).lost p).wantsPlane = none := hw
      unfold SlotEntry.choosePlane
      rw [hw', ite_self]
    refine row ?_
    rw [State.laneLost_stays hup (State.leaveUp_data htx hfind hrefs2 hbusy) rfl hent hrefs hlane
      (fun h => SlotEntry.lost_bothDown hother h.2) hstay, LanePort.settled_data htx hlq hcount]
    rfl
  · intro hstill hadm hauto hact hother htx hcount
    obtain ⟨hqs, hws, hc, hring, -, hcards⟩ := hstill
    have hlq : l.queue = [] := hqs p
    have hsettled : l.settled .training [] = { l with state := .training, staging := none, partialCount := l.partials } := by
      have hmin : min (l.notSent + l.queue.length) 4294967295 = l.notSent := by
        rw [hlq]
        exact Nat.min_eq_left hcount
      rw [LanePort.settled_idle htx, hmin, ← hlq]
    have hleave : s.leaveUp i p .training = s.setLane i p { l with state := .training, staging := none, partialCount := partials } :=
      (State.leaveUp_clear htx).trans (congrArg (s.setLane i p) hsettled)
    have hqueues (q : Plane) : ((s.setLane i p { l with state := .training, staging := none, partialCount := partials }).lane i q).queue = [] := by
      rw [State.lane_setLane_same_slot]
      split
      · exact hlq
      · exact hqs q
    exact row (State.laneLost_moves hup (congrArg State.apart hleave) rfl ⟨hqueues, hws, hc, hring, hrefs, hcards⟩
      hlane hadm hauto hact hother)

end Sys2Proof.Machine
end

section
/-! SUPPORT. The end of a transmission (O44). -/

namespace Sys2Proof.Machine

open Sys2Proof

variable {s t u v : State} {i : Slot} {p : Plane} {c : Cls} {f : Stored} {a : Addr} {ws : List Word} {tag : Nat}

/-- A slot with nothing to send in its control queues or its egress queues has nothing to start (R50). -/
theorem State.kickSlot_empty (hl : ∀ q, (u.lane i q).queue = []) (hw : ∀ c, u.sw.queue i c = EgressQueue.nil) :
    u.kickSlot i = u :=
  State.kickSlot_still fun q _ _ => ⟨hl q, fun _ => hw⟩

theorem State.lane_setLane_queue {l : LanePort} (h : ∀ q, (s.lane i q).queue = []) (hl : l.queue = []) (q : Plane) :
    ((s.setLane i p l).lane i q).queue = [] := by
  rw [State.lane_setLane_same_slot]
  split
  · exact hl
  · exact h q

/-! ## Reports of control frames sent (R51, R145, R151) -/

section
variable {k : CtlKind}

theorem State.reportControl_manager (s : State) (sent : Bool) (k : CtlKind) : s.reportControl sent ⟨k, .slotManager⟩ = s := rfl

theorem State.reportControl_idle (h : s.cyc.entry = none) : s.reportControl true ⟨k, .cycle tag⟩ = s := by
  unfold State.reportControl
  dsimp only
  rw [h]

/-- R145, R146: the POLL of the attempt in progress has gone out. -/
theorem State.reportControl_poll {w : PollWork} {m : Attempt} (h : s.cyc.entry = some ⟨a, .run ws (.poll w)⟩)
    (hc : w.cur = some m) (ht : m.tag = tag) : s.reportControl true ⟨k, .cycle tag⟩ =
      { s with cyc := { s.cyc with entry := some ⟨a, .run ws (.poll { w with
        cur := some { m with sent := true, timeout := some (s.osc + s.cyc.timeoutUs * 100) } })⟩ } } := by
  unfold State.reportControl
  dsimp only
  rw [h]
  dsimp only
  rw [hc]
  dsimp only
  rw [if_pos ht, if_pos rfl]
  unfold State.setPoll PollWork.markSent
  rw [hc]
  rfl

/-- R151: the last TIME frame awaited has gone out, every one of them sent. -/
theorem State.reportControl_time {w : TimeWork} {q : Plane} (h : s.cyc.entry = some ⟨a, .run ws (.time w)⟩)
    (ht : w.tag = tag) (haw : w.awaited = 1) (hn : w.notSent = 0) (hp : w.plane = some q) :
    s.reportControl true ⟨k, .cycle tag⟩ = { s with
      cyc := { s.cyc with entry := some ⟨a, .writeBack ws
        { w4 := wordOf (8 + 2 ^ 8 * (w.sent + 1) + 2 ^ 12 * (if q = .b then 1 else 0)
            + 2 ^ 16 * (Config.freeFlags s.draws).toNat + 2 ^ 24 * (Config.freeCodes s.draws).val)
          w5 := wordOf (2 ^ 31 * (if Config.freeRttPresent s.draws then 1 else 0) + (Config.freeRtt s.draws).toNat)
          w6 := wordOf s.time.sec, w7 := wordOf s.time.ns, n := 0, next := a + 8 }⟩ }
      draws := s.draws + 1 } := by
  have h4 : s.resultWord4 (timeResult .sent (w.sent + 1) (some q) a) =
      wordOf (8 + 2 ^ 8 * (w.sent + 1) + 2 ^ 12 * (if q = .b then 1 else 0)
        + 2 ^ 16 * (Config.freeFlags s.draws).toNat + 2 ^ 24 * (Config.freeCodes s.draws).val) := by
    cases q <;> rfl
  unfold State.reportControl
  dsimp only
  rw [h]
  dsimp only
  rw [if_pos ht, if_pos rfl]
  unfold State.timeJudge
  dsimp only
  rw [haw, hn, hp, if_pos (by rfl), if_pos (by rfl)]
  unfold State.endEntry
  dsimp only
  rw [show w.sent + flag true = w.sent + 1 from rfl, h4]
  rfl

end

/-! ## The only frame of a slot's queues sent (R85, R88) -/

/-- The switch core after the only frame of a slot's queue has been sent. -/
def SwitchCore.onlySent (w : SwitchCore) (i : Slot) (c : Cls) (f : Stored) : SwitchCore :=
  { (w.setQueue i c EgressQueue.nil) with
    free := w.free + f.blocks
    stored := w.stored.filter (·.id ≠ f.id)
    counters := vset w.counters (portOf i)
      { vget w.counters (portOf i) with framesOut := min ((vget w.counters (portOf i)).framesOut + 1) 4294967295 } }

theorem State.frameSent_only (hfind : s.sw.find f.id = some f) (hrefs : f.refs = 2) (hqc : s.sw.queue i c = ⟨[f.id], []⟩) :
    s.frameSent i c f.id = (s.setSw (s.sw.onlySent i c f)).roomReport := by
  have hremove : (s.sw.queue i c).remove f.id = EgressQueue.nil := by
    rw [hqc]
    simp [EgressQueue.remove, EgressQueue.nil]
  have hdrop := SwitchCore.dropRef_dropRef (w := (s.sw.setQueue i c EgressQueue.nil).bump (portOf i) PortCounters.countOut)
    hfind hrefs
  unfold State.frameSent
  dsimp only
  rw [hremove, hdrop]
  rfl

theorem SwitchCore.onlySent_queue {w : SwitchCore} (hqd : ∀ d, d ≠ c → w.queue i d = EgressQueue.nil) (d : Cls) :
    (w.onlySent i c f).queue i d = EgressQueue.nil := by
  have hself : (w.onlySent i c f).queue i d = ((vget w.queues i).set c EgressQueue.nil).get d :=
    congrArg (fun q : SlotQueues => q.get d) (vget_vset_self ..)
  by_cases hd : d = c
  · rw [hself, hd]
    cases c <;> rfl
  · have hget := hqd d hd
    rw [hself]
    cases c <;> cases d <;> first | exact absurd rfl hd | exact hget

/-! ## O44 -/

/-- Settles O44: by what the lane had in transmission; a lane with nothing more to send stays free. -/
theorem transmissionEnds : Obligations.TransmissionEnds := by
  unfold Obligations.TransmissionEnds
  intro i p s hq
  have row {x : State} (hx : (s.transmitEnd i p).apart = x) : ∃ t, exec (.frameTransmitEnd i p) s = .next t ∧ t.apart = x :=
    work_apart hq (by simp) hx
  have hctl {f : CtlFrame} {bs : List Byte} (htx : (s.lane i p).tx = .control f bs) {v : State}
      (h : (s.setLane i p { s.lane i p with tx := .none, lastOut := .whole bs (checkWord bs) }).reportControl true f = v)
      (hlanes : v.lanes = (s.setLane i p { s.lane i p with tx := .none, lastOut := .whole bs (checkWord bs) }).lanes)
      (hsw : v.sw = s.sw) (hqs : ∀ q, (s.lane i q).queue = []) (hws : ∀ c, s.sw.queue i c = EgressQueue.nil) :
      s.transmitEnd i p = v := by
    unfold State.transmitEnd
    dsimp only
    rw [htx]
    dsimp only
    rw [h]
    refine State.kickSlot_empty (fun q => ?_) (fun c => by rw [hsw]; exact hws c)
    unfold State.lane
    rw [hlanes]
    exact State.lane_setLane_queue (l := { s.lane i p with tx := .none, lastOut := .whole bs (checkWord bs) }) hqs (hqs p) q
  refine ⟨fun h => row ?_, fun f bs htx hsend hqs hws => row ?_, fun k tag bs htx hqs hws => ?_, fun c f htx hfind hrefs hqs hqc hqd => row ?_⟩
  · unfold State.transmitEnd
    dsimp only
    rw [h]
  · obtain ⟨k, d⟩ := f
    cases hsend
    exact congrArg State.apart (hctl htx rfl rfl rfl hqs hws)
  · intro u ends
    refine ⟨fun he => row ?_, fun a ws w m he hm ht => row ?_, fun a ws w q he ht haw hn hp => row ?_⟩
    · exact congrArg State.apart (hctl htx (State.reportControl_idle he) rfl rfl hqs hws)
    · exact congrArg State.apart (hctl htx (State.reportControl_poll he hm ht) rfl rfl hqs hws)
    · exact congrArg State.apart (hctl htx (State.reportControl_time he ht haw hn hp) rfl rfl hqs hws)
  · have hbytes : s.sw.bytesOf f.id = f.header ++ f.payload := by
      unfold SwitchCore.bytesOf
      rw [hfind]
    unfold State.transmitEnd
    dsimp only
    rw [htx]
    dsimp only
    rw [hbytes]
    obtain ⟨x, hx⟩ : ∃ x, x = s.setLane i p { s.lane i p with
      tx := .none, lastOut := .whole (f.header ++ f.payload) (checkWord (f.header ++ f.payload)) } := ⟨_, rfl⟩
    have hxq (q : Plane) : (x.lane i q).queue = [] := by
      rw [hx]
      exact State.lane_setLane_queue (l := { s.lane i p with
        tx := .none, lastOut := .whole (f.header ++ f.payload) (checkWord (f.header ++ f.payload)) }) hqs (hqs p) q
    have hxw : x.sw = s.sw := by rw [hx]; rfl
    rw [← hx, State.frameSent_only (by rw [hxw]; exact hfind) hrefs (by rw [hxw]; exact hqc), hxw]
    have hkick : ((x.setSw (s.sw.onlySent i c f)).roomReport).kickSlot i = (x.setSw (s.sw.onlySent i c f)).roomReport :=
      State.kickSlot_empty hxq fun d => SwitchCore.onlySent_queue hqd d
    rw [hkick, hx]
    rfl

end Sys2Proof.Machine
end

section
/-! SUPPORT. The control frames of a card (O43). -/

namespace Sys2Proof.Machine

open Sys2Proof

variable {s t u v : State} {i : Slot} {p : Plane} {c : Cls} {a : Addr} {ws : List Word} {g0 g : Staging} {bs : List Byte}
  {x y : TimeBase} {k : Fin 4} {takes : RefEntry → Bool}

/-! ## A frame that passes (R45, R46, R48) -/

theorem Staging.whole_iff : g.whole = true ↔ 12 ≤ g.count ∧ g.count = 12 + hdrLength g.kept ∧ g.tail = checkBytes (~~~ g.check) := by
  unfold Staging.whole
  simp [and_assoc]

theorem State.lengthOk_iff {n : Nat} : s.lengthOk i n = true ↔ n ≤ 2040 ∧ ∀ d, (s.slot i).card = some d → n ≤ d.maxPayload := by
  unfold State.lengthOk
  cases (s.slot i).card with
  | none =>
    rw [Bool.and_true, decide_eq_true_eq]
    exact ⟨fun h => ⟨h, nofun⟩, And.left⟩
  | some d =>
    rw [Bool.and_eq_true, decide_eq_true_eq, decide_eq_true_eq]
    exact and_congr_right fun _ => ⟨fun h _ hd => Option.some.inj hd ▸ h, fun h => h d rfl⟩

/-! R45: a frame that passes checks 1 to 3 is judged by its kind alone. -/

theorem State.judgeFrame_accepted {k : FrameKind} (h : s.frameFits i g) (hk : hdrKind g.kept = some k)
    (ha : ((s.slot i).state.accepts k && payloadOk k g.payload) = true) : s.judgeFrame i g = .ok k := by
  obtain ⟨h1, h2, h3, h4, h5, h6⟩ := h
  have hw : g.whole = true := Staging.whole_iff.mpr ⟨h1, h2, h3⟩
  have hl : s.lengthOk i (hdrLength g.kept) = true := State.lengthOk_iff.mpr ⟨h4, h5⟩
  unfold State.judgeFrame
  rw [hw, hl, if_neg (by decide), if_neg (by decide), if_neg (not_not.mpr h6), hk]
  exact if_pos ha

theorem State.judgeFrame_notAdmitted (h : s.frameFits i g)
    (ha : ∀ k, hdrKind g.kept = some k → ((s.slot i).state.accepts k && payloadOk k g.payload) = false) :
    s.judgeFrame i g = .error .notAdmitted := by
  obtain ⟨h1, h2, h3, h4, h5, h6⟩ := h
  have hw : g.whole = true := Staging.whole_iff.mpr ⟨h1, h2, h3⟩
  have hl : s.lengthOk i (hdrLength g.kept) = true := State.lengthOk_iff.mpr ⟨h4, h5⟩
  unfold State.judgeFrame
  rw [hw, hl, if_neg (by decide), if_neg (by decide), if_neg (not_not.mpr h6)]
  cases hk : hdrKind g.kept with
  | none => rfl
  | some k => exact if_neg (by rw [ha k hk]; exact Bool.false_ne_true)

/-- R48: the end of a frame that its slot's state accepts. -/
theorem State.frameEnd_accepted {k : FrameKind} (hs : (s.lane i p).staging = some g0) (hf : s.frameFits i (g0.feed bs))
    (hk : hdrKind (g0.feed bs).kept = some k) (hacc : (s.slot i).state.accepts k = true)
    (hpay : payloadOk k (g0.feed bs).payload = true) :
    s.frameEnd i p bs = (s.setLane i p { s.lane i p with staging := none }).deliverFrame i p (g0.feed bs) k := by
  have hj : (s.setLane i p { s.lane i p with staging := none }).judgeFrame i (g0.feed bs) = .ok k :=
    State.judgeFrame_accepted (by exact hf) hk (by rw [Bool.and_eq_true]; exact ⟨hacc, hpay⟩)
  unfold State.frameEnd
  dsimp only
  rw [hs]
  dsimp only
  rw [hj]

/-! ## STATUS (R146, R149, R154 to R156) -/

theorem State.observeCard_none (h : ∀ k, ((u.point k).cfg.kind.isCard && (u.point k).cfg.which == i.val + 1) = false)
    (flags : BitVec 4) (codes : List Byte) : u.observeCard i flags codes = u := by
  unfold State.observeCard
  refine foldl_still (fun k => if_neg fun hc => ?_) _
  simp only [Bool.and_eq_true, decide_eq_true_eq] at hc
  have := h k
  rw [hc.1.2, hc.2] at this
  simp at this

theorem State.takeStatus_stray {st : Stamp} {z : List Byte}
    (h : ∀ m, u.attemptOf i = some m → ¬ (m.plane = p ∧ m.number = statusNumber z)) : u.takeStatus i p z st =
      { u with cyc := { u.cyc with counters := { u.cyc.counters with stray := min (u.cyc.counters.stray + 1) 4294967295 } } } := by
  unfold State.takeStatus
  dsimp only
  split
  · rename_i m hm
    rw [if_neg (by simpa only [Bool.and_eq_true, decide_eq_true_eq] using h m hm)]
    rfl
  · rfl

section
variable {w : PollWork} {m : Attempt} {r : Response}

/-- R146: an echo of the attempt in progress, with no condition to retry on. -/
theorem State.attemptEnds_success (he : u.cyc.entry = some ⟨a, .run ws (.poll w)⟩) (hw : w.cur = some m)
    (hc : w.conditions = 0) : u.attemptEnds (.success r) =
      u.pollFinish a ws (w.ended m.plane (.success r)) (.success r) := by
  have hno : ((w.ended m.plane (.success r)).retries? (.success r)) = false := by
    unfold PollWork.retries? AttemptOutcome.meets PollWork.ended
    dsimp only
    rw [hc]
    simp
  unfold State.attemptEnds State.pollRun
  rw [he]
  dsimp only
  rw [hw]
  dsimp only
  rw [hno, if_neg Bool.false_ne_true]

/-- R155, R156: a slot's entry after the sample of an attempt, where there is one. -/
def SlotEntry.sampled (e : SlotEntry) (p : Plane) : Option Nat → SlotEntry
  | some v => e.setDelay p ((e.delay p).sample (v / 2))
  | none => e

theorem SlotEntry.sampled_facts (e : SlotEntry) (p : Plane) (o : Option Nat) : (e.sampled p o).state = e.state ∧
    (e.sampled p o).fenced = e.fenced ∧ (e.sampled p o).active = e.active ∧ (e.sampled p o).cfg = e.cfg ∧
    ∀ q, (e.delay q).valid = true → ((e.sampled p o).delay q).valid = true := by
  have hv (d : Delay) (n : Nat) : (d.sample n).valid = true := by
    unfold Delay.sample
    split
    · assumption
    · rfl
  cases o with
  | none => exact ⟨rfl, rfl, rfl, rfl, fun _ h => h⟩
  | some v =>
    cases p
    · refine ⟨rfl, rfl, rfl, rfl, fun q h => ?_⟩
      cases q
      · exact hv _ _
      · exact h
    · refine ⟨rfl, rfl, rfl, rfl, fun q h => ?_⟩
      cases q
      · exact h
      · exact hv _ _

/-- R120: a change that keeps the slot's state, its FENCED flag, its active plane and what is valid breaks no reference. -/
theorem SlotEntry.breaksRef_keeps {e f : SlotEntry} (hst : f.state = e.state) (hf : f.fenced = e.fenced)
    (ha : f.active = e.active) (hv : ∀ q, (e.delay q).valid = true → (f.delay q).valid = true) : e.breaksRef f = false := by
  unfold SlotEntry.breaksRef
  rw [hst, hf, ha]
  have hva := hv e.active
  cases hold : (e.delay e.active).valid
  · cases e.state <;> cases e.fenced <;> cases e.active <;> rfl
  · rw [hva hold]
    cases e.state <;> cases e.fenced <;> cases e.active <;> rfl

/-- R154: a poll of one attempt, a SUCCESS, the plane pinned and the slot not fenced. -/
theorem State.takePoll_success (hp : (u.slot i).cfg.policy ≠ .auto) (hf : (u.slot i).fenced = false) :
    u.takePoll i [⟨p, .success r⟩] (.success r) =
      (({ u with sm := { u.sm with discarded := min (u.sm.discarded +
          (if (acceptedRtt ((u.lane i p).state == .up) r).isSome then 0 else 1)) 4294967295 } } : State).putSlot i
        { (u.slot i).sampled p (acceptedRtt ((u.lane i p).state == .up) r) with missed := 0 },
        acceptedRtt ((u.lane i p).state == .up) r) := by
  have hg : Sampling.attempt (fun p => (u.lane i p).state == .up) { entry := u.slot i, discarded := 0, last := none }
      ⟨p, .success r⟩ = {
        entry := (u.slot i).sampled p (acceptedRtt ((u.lane i p).state == .up) r)
        discarded := if (acceptedRtt ((u.lane i p).state == .up) r).isSome then 0 else 1
        last := acceptedRtt ((u.lane i p).state == .up) r } := by
    unfold Sampling.attempt
    dsimp only
    cases acceptedRtt ((u.lane i p).state == .up) r <;> rfl
  unfold State.takePoll
  dsimp only [List.foldl_cons, List.foldl_nil]
  rw [hg]
  dsimp only
  obtain ⟨hst, hfe, hact, hcfg, hval⟩ := (u.slot i).sampled_facts p (acceptedRtt ((u.lane i p).state == .up) r)
  have hmiss : (((u.slot i).sampled p (acceptedRtt ((u.lane i p).state == .up) r)).judgePlane
      (fun p => (u.lane i p).state == .up) [⟨p, .success r⟩]).judgeMiss (.success r) =
      { (u.slot i).sampled p (acceptedRtt ((u.lane i p).state == .up) r) with missed := 0 } := by
    have hj : ((u.slot i).sampled p (acceptedRtt ((u.lane i p).state == .up) r)).judgePlane
        (fun p => (u.lane i p).state == .up) [⟨p, .success r⟩] = _ := if_pos (by rw [hcfg]; exact hp)
    rw [hj]
    exact congrArg (fun b => { (u.slot i).sampled p (acceptedRtt ((u.lane i p).state == .up) r) with missed := 0, fenced := b })
      (hfe.trans hf).symm
  rw [hmiss]
  refine Prod.ext (State.changeSlot_alike hst hfe hact (.inl (SlotEntry.breaksRef_keeps hst hfe hact fun q h => ?_))) rfl
  have hq := hval q h
  cases q <;> exact hq

/-- R149: result word 5 of a poll; without a sample its bits are free (assumption log 44). -/
def sampleWord (draws : Nat) : Option Nat → Word
  | some v => wordOf (2 ^ 31 + v)
  | none => wordOf (Config.freeRtt draws).toNat

/-- R149: the words of a poll's result when its one attempt was a SUCCESS. -/
theorem State.pollResult_success {o : Option Nat} (hm : w.made = 1) (hl : w.log = []) (hc : w.conditions = 0) :
    (u.pollResult a ws (w.ended p (.success r)) (.success r) o).apart = ({ u.apart with
      cyc := { u.apart.cyc with
        counters := { u.apart.cyc.counters with succeeded := min (u.apart.cyc.counters.succeeded + 1) 4294967295 }
        entry := some ⟨a, .writeBack ws
          { w4 := wordOf (4 + 2 ^ 8 + 2 ^ 12 * (if p = .b then 1 else 0) + 2 ^ 16 * r.flags.toNat + 2 ^ 24 * r.codes.length)
            w5 := sampleWord u.apart.draws o
            w6 := wordOf u.apart.time.sec, w7 := wordOf u.apart.time.ns, n := 0, next := a + 8 }⟩ }
      draws := u.apart.draws + 1 } : State) := by
  have hnext : ((w.ended p (.success r)).branch && (AttemptOutcome.success r).meets (w.ended p (.success r)).conditions) = false := by
    unfold AttemptOutcome.meets PollWork.ended
    dsimp only
    rw [hc]
    simp
  have hplane : (w.ended p (.success r)).lastPlane = some p := by
    unfold PollWork.lastPlane PollWork.ended
    dsimp only
    rw [hl]
    rfl
  have hmade : (w.ended p (.success r)).made = 1 := hm
  unfold State.pollResult
  rw [hnext, if_neg Bool.false_ne_true, hplane, hmade]
  unfold State.endEntry
  dsimp only
  cases o with
  | none =>
    dsimp only [Option.elim]
    rw [State.resultWord5_wait]
    cases p <;> rfl
  | some v => cases p <;> rfl

end

/-- R146, R149, R154: the STATUS of the one attempt of a poll in progress, the plane pinned, the slot not fenced, and no
card point naming the slot. -/
theorem State.takeStatus_success {w : PollWork} {m : Attempt} {z : List Byte} {st : Stamp} {o : Option Nat}
    (he : u.cyc.entry = some ⟨a, .run ws (.poll w)⟩) (hs : w.slot = i) (hw : w.cur = some m) (hp : m.plane = p)
    (hn : m.number = statusNumber z) (hm : w.made = 1) (hl : w.log = []) (hc : w.conditions = 0)
    (hpin : (u.slot i).cfg.policy ≠ .auto) (hf : (u.slot i).fenced = false)
    (hcards : ∀ k, ((u.point k).cfg.kind.isCard && (u.point k).cfg.which == i.val + 1) = false)
    (hr : acceptedRtt ((u.lane i p).state == .up)
      { flags := statusFlags z, turnaround := statusTurnaround z, codes := statusCodes z, t1 := m.t1, t4 := st } = o) :
    (u.takeStatus i p z st).apart = ({ u.setSlot i { (u.slot i).sampled p o with missed := 0 } with
      draws := u.draws + 1
      sm := { (u.setSlot i { (u.slot i).sampled p o with missed := 0 }).sm with
        discarded := min (u.sm.discarded + (if o.isSome then 0 else 1)) 4294967295 }
      cyc := { u.cyc with
        counters := { u.cyc.counters with succeeded := min (u.cyc.counters.succeeded + 1) 4294967295 }
        entry := some ⟨a, .writeBack ws
          { w4 := wordOf (4 + 2 ^ 8 + 2 ^ 12 * (if p = .b then 1 else 0) + 2 ^ 16 * (statusFlags z).toNat
              + 2 ^ 24 * (statusCodes z).length)
            w5 := sampleWord u.draws o
            w6 := wordOf u.time.sec, w7 := wordOf u.time.ns, n := 0, next := a + 8 }⟩ } } : State).apart := by
  have hat : u.attemptOf i = some m := by
    unfold State.attemptOf State.pollRun
    rw [he]
    exact (if_pos hs).trans hw
  have htake : u.takeStatus i p z st = u.attemptEnds (.success
      { flags := statusFlags z, turnaround := statusTurnaround z, codes := statusCodes z, t1 := m.t1, t4 := st }) := by
    unfold State.takeStatus
    dsimp only
    rw [hat]
    exact if_pos (by rw [hp, hn]; simp)
  rw [htake, State.attemptEnds_success he hw hc, hp]
  generalize hrr : ({ flags := statusFlags z, turnaround := statusTurnaround z, codes := statusCodes z, t1 := m.t1, t4 := st }
    : Response) = r at hr
  have hflags : r.flags = statusFlags z := hrr ▸ rfl
  have hcodes : r.codes = statusCodes z := hrr ▸ rfl
  have hpoll := State.takePoll_success (u := u) (i := i) (p := p) (r := r) hpin hf
  rw [hr] at hpoll
  have hlog : (w.ended p (.success r)).log = [⟨p, .success r⟩] := by
    unfold PollWork.ended
    rw [hl]
    rfl
  have hslot : (w.ended p (.success r)).slot = i := hs
  unfold State.pollFinish
  rw [hlog, hslot, hpoll]
  dsimp only
  have hput := State.putSlot_apart ({ u with sm := { u.sm with
    discarded := min (u.sm.discarded + (if o.isSome then 0 else 1)) 4294967295 } } : State) i { (u.slot i).sampled p o with missed := 0 }
  rw [State.becomes_same (by
    obtain ⟨hst, hfe, hact, -, -⟩ := (u.slot i).sampled_facts p o
    exact (congrArg₂ Prod.mk hst (congrArg₂ Prod.mk hfe hact)).symm)] at hput
  have halarm := State.putSlot_alarm ({ u with sm := { u.sm with
    discarded := min (u.sm.discarded + (if o.isSome then 0 else 1)) 4294967295 } } : State) i { (u.slot i).sampled p o with missed := 0 }
  generalize State.putSlot _ i { (u.slot i).sampled p o with missed := 0 } = y at hput halarm
  rw [State.observeCard_none (fun k => by
      unfold State.point
      rw [halarm]
      exact hcards k), State.pollResult_success hm hl hc, hput, hflags, hcodes]
  cases o <;> rfl

theorem acceptedRtt_none {up : Bool} {r : Response} (h : r.t1 = none) : acceptedRtt up r = none := by
  unfold acceptedRtt
  rw [h]

/-- R155: when a round trip is taken. -/
theorem acceptedRtt_some {up : Bool} {r : Response} {n : Stamp} (h : r.t1 = some n) : acceptedRtt up r =
    if n.mark = r.t4.mark ∧ up = true ∧ 0 ≤ rtt n r.t4 r.turnaround ∧ rtt n r.t4 r.turnaround ≤ 10000
    then some (rtt n r.t4 r.turnaround).toNat else none := by
  unfold acceptedRtt
  rw [h]
  refine if_congr ?_ rfl rfl
  simp [and_assoc]

/-! ## REF (R119, R121, R123) -/

theorem foldl_alone {α : Type} {f : α → Fin 4 → α} {z : α} (hz : ∀ j, j ≠ k → f z j = z) (hk : ∀ j, j ≠ k → f (f z k) j = f z k) :
    (List.finRange 4).foldl f z = f z k := by
  rw [show List.finRange 4 = [0, 1, 2, 3] from rfl]
  have : k = 0 ∨ k = 1 ∨ k = 2 ∨ k = 3 := by omega
  obtain rfl | rfl | rfl | rfl := this <;> simp only [List.foldl_cons, List.foldl_nil]
  · rw [hk 1 (by decide), hk 2 (by decide), hk 3 (by decide)]
  · rw [hz 0 (by decide), hk 2 (by decide), hk 3 (by decide)]
  · rw [hz 0 (by decide), hz 1 (by decide), hk 3 (by decide)]
  · rw [hz 0 (by decide), hz 1 (by decide), hz 2 (by decide)]

/-- R119: an arrival that one entry alone takes. -/
theorem TimeBase.offer_alone (h0 : ((vget x.refs k).cfg.enabled && takes (vget x.refs k)) = true)
    (h : ∀ j, j ≠ k → ((vget x.refs j).cfg.enabled && takes (vget x.refs j)) = false) (n : Nat) :
    x.offer takes n = x.rejudge (x.took k ((vget x.refs k).judge n)) := by
  have hself : TimeBase.offered takes n x k = x.took k ((vget x.refs k).judge n) := by
    unfold TimeBase.offered
    rw [if_pos h0]
  rw [TimeBase.offer_eq, foldl_alone (k := k) (fun j hj => TimeBase.offered_other (h j hj)), hself]
  intro j hj
  rw [hself]
  refine TimeBase.offered_other ?_
  rw [TimeBase.took_refs, vget_vset_ne _ _ (Ne.symm hj)]
  exact h j hj

/-- R122: an arrival that leaves its entry's qualification leaves the selection. -/
theorem TimeBase.rejudge_took {j : RefEntry × Bool} (h : j.1.qualified = (vget x.refs k).qualified) :
    x.rejudge (x.took k j) = x.took k j := by
  refine TimeBase.rejudge_same fun m => ?_
  rw [TimeBase.took_refs]
  by_cases hm : m = k
  · rw [hm, vget_vset_self, h]
  · rw [vget_vset_ne _ _ (Ne.symm hm)]

/-- R121: does an enabled entry name the slot? -/
theorem State.offered_iff : (List.finRange 4).any (fun k => (s.ref k).cfg.enabled && (s.ref k).names i) = true ↔
    ∃ k, (s.ref k).cfg.enabled = true ∧ (s.ref k).names i = true := by
  simp

theorem State.refArrival_none (h : ∀ k, ¬ ((u.ref k).cfg.enabled = true ∧ (u.ref k).names i = true)) (st : Stamp) :
    u.refArrival i st = u := by
  have hno : (List.finRange 4).any (fun k => (u.ref k).cfg.enabled && (u.ref k).names i) = false := by
    rw [Bool.eq_false_iff, Ne, State.offered_iff]
    exact fun ⟨k, hk⟩ => h k hk
  unfold State.refArrival
  dsimp only
  rw [hno]
  rfl

theorem State.refArrival_discarded (h : ∃ k, (u.ref k).cfg.enabled = true ∧ (u.ref k).names i = true)
    (hd : (u.slot i).serving = false ∨ ((u.slot i).delay (u.slot i).active).valid = false) (st : Stamp) :
    u.refArrival i st = { u with time := { u.time with discardedRefs := min (u.time.discardedRefs + 1) 4294967295 } } := by
  have hc : (!(u.slot i).serving || !((u.slot i).delay (u.slot i).active).valid) = true := by
    obtain h | h := hd
    · rw [h]
      rfl
    · rw [h]
      exact Bool.or_true _
  unfold State.refArrival
  dsimp only
  rw [State.offered_iff.mpr h, hc]
  rfl

/-- R119, R123: a REF that the entries naming the slot judge. -/
theorem State.refArrival_judged {st : Stamp} (h : ∃ k, (u.ref k).cfg.enabled = true ∧ (u.ref k).names i = true)
    (hs : (u.slot i).serving = true) (hv : ((u.slot i).delay (u.slot i).active).valid = true)
    (hy : u.time.offer (fun r => r.names i) st.osc = y) :
    (loopUses u.time y (fun r => r.names i) = false → u.refArrival i st = u.putTime y) ∧
    (loopUses u.time y (fun r => r.names i) = true →
      (st.mark ≠ u.time.mark → u.refArrival i st = { u.putTime y with time := (u.putTime y).time.discard }) ∧
      (st.mark = u.time.mark → u.refArrival i st =
        (u.putTime y).loop (refReading st.ns ((u.slot i).delay (u.slot i).active).value))) := by
  have hgo : u.refArrival i st = if loopUses u.time y (fun r => r.names i) then
      if st.mark ≠ u.time.mark then { u.putTime y with time := (u.putTime y).time.discard }
      else (u.putTime y).loop (refReading st.ns ((u.slot i).delay (u.slot i).active).value)
    else u.putTime y := by
    unfold State.refArrival
    dsimp only
    rw [State.offered_iff.mpr h, hs, hv, hy]
    rfl
  rw [hgo]
  refine ⟨fun hl => by rw [hl, if_neg Bool.false_ne_true], fun hl => ⟨fun hm => ?_, fun hm => ?_⟩⟩
  · rw [hl, if_pos rfl, if_pos hm]
  · rw [hl, if_pos rfl, if_neg (not_not.mpr hm)]

/-- R123: the phase error of a REF, by its stamp less the delay. -/
theorem phaseError_refReading (ns d : Nat) : phaseError (refReading ns d) =
    if ((ns : Int) - d) % 1000000000 < 500000000 then ((ns : Int) - d) % 1000000000
    else ((ns : Int) - d) % 1000000000 - 1000000000 := by
  have hn : ((((ns : Int) - d) % 1000000000).toNat : Int) = ((ns : Int) - d) % 1000000000 :=
    Int.toNat_of_nonneg (Int.emod_nonneg _ (by decide))
  unfold phaseError refReading
  rw [hn]
  by_cases h : ((ns : Int) - d) % 1000000000 < 500000000
  · rw [if_pos h, if_pos (by omega)]
  · rw [if_neg h, if_neg (by omega)]

/-- R125, R126: the loop in LOCKED, the phase error inside the lock window, after an arrival was recorded. -/
theorem State.loop_locked {n : Nat} {e : Int} (hst : y.state = u.time.state) (hb : y.beyond = u.time.beyond)
    (hl : y.state = .locked) (he : phaseError n = e) (hlim : e.natAbs < y.disc.stepLimit) (hwin : e.natAbs ≤ y.disc.lockWindow) :
    ((u.putTime y).loop n).apart = ({ u.apart with time := { y with
      lastError := e, integral := max (-8000000) (min 8000000 (y.integral + e)), unlockRun := 0
      trim := max (-50000) (min 50000 (-(Int.tdiv e (2 ^ y.disc.kp) +
        Int.tdiv (max (-8000000) (min 8000000 (y.integral + e))) (2 ^ y.disc.ki)))) } } : State) := by
  have hy := State.putTime_same (u := u) hst hb
  generalize u.putTime y = t at hy
  have htime : t.time = y := (congrArg State.time hy :)
  have herr : (t.putTime { t.time with lastError := e }).time = { y with lastError := e } :=
    (congrArg State.time (State.putTime_same (u := t) (t := { t.time with lastError := e }) rfl rfl) :).trans
      (by rw [← htime])
  obtain ⟨hsame, -⟩ := State.putTime_putTime (s := t) (x := { t.time with lastError := e }) rfl rfl
    ((({ y with lastError := e } : TimeBase).correct e).countLock e)
  have hlock : (({ y with lastError := e } : TimeBase).correct e).countLock e =
      { ({ y with lastError := e } : TimeBase).correct e with unlockRun := 0 } :=
    (TimeBase.countLock_locked (x := ({ y with lastError := e } : TimeBase).correct e) hl e).trans (if_pos hwin)
  rw [State.loop_steers he (by rw [htime]; exact hlim), herr, hsame (by rw [hlock, htime]; rfl) (by rw [hlock, htime]; rfl),
    hy, hlock]
  rfl

end Sys2Proof.Machine
end

section
/-! SUPPORT. An IDENT: admission, rejection and restart (O43). -/

namespace Sys2Proof.Machine

open Sys2Proof

variable {s t u v : State} {i : Slot} {p : Plane} {c : Cls} {a : Addr} {bs : List Byte}

/-! ## The checks of an IDENT (R66) -/

theorem SlotEntry.typeOk_iff {e : SlotEntry} {n : BitVec 16} :
    e.typeOk n = true ↔ e.override = true ∨ n ≠ 0 ∧ (e.cfg.allowed = [] ∨ n ∈ e.cfg.allowed) := by
  unfold SlotEntry.typeOk
  simp

theorem SlotEntry.payloadPasses_iff {e : SlotEntry} {n : Nat} :
    e.payloadPasses n = true ↔ e.override = true ∨ 256 ≤ n ∧ n ≤ 2040 := by
  unfold SlotEntry.payloadPasses
  simp

theorem State.judgeIdent_passes (ht : (u.slot i).typeOk (identType bs) = true)
    (hp : (u.slot i).payloadPasses (identPayload bs) = true) : u.judgeIdent i p bs =
      ((u.enterSlot i .admitted (fun e => e.admitWith p bs)).submit i p
        { kind := .admission ((u.enterSlot i .admitted (fun e => e.admitWith p bs)).slot i).active, sender := .slotManager }).1 := by
  unfold State.judgeIdent
  dsimp only
  rw [ht, hp]
  rfl

/-! ## Admission (R67) -/

/-- R88: a slot that begins to serve, with nothing in its queues and no reference naming it: a report of room is all that
follows. -/
theorem State.changeSlot_serves {e : SlotEntry} (hold : (u.slot i).state ≠ .admitted ∧ (u.slot i).state ≠ .draining)
    (hst : e.state = .admitted) (hf : e.fenced = false)
    (hq : ∀ p, (u.lane i p).queue = []) (hw : ∀ k, u.sw.queue i k = EgressQueue.nil) (hr : u.noRef i) :
    u.changeSlot i e = (u.putSlot i e).roomReport := by
  have hserv : (u.slot i).serving ≠ e.serving := by
    unfold SlotEntry.serving
    rw [hst, hf, beq_eq_false_iff_ne.mpr hold.1, Bool.false_and]
    decide
  have hleaves : ((u.slot i).leaves e || (!(u.slot i).fenced && e.fenced)) = false := by
    unfold SlotEntry.leaves
    rw [hf, beq_eq_false_iff_ne.mpr hold.1, beq_eq_false_iff_ne.mpr hold.2]
    simp
  have hcards : ((decide ((u.slot i).state = .admitted)) && decide (e.state ≠ .admitted)) = false := by
    rw [decide_eq_false hold.1]
    rfl
  have hstill (p : Plane) : (u.putSlot i e).roomReport.laneStill i p := fun _ _ => by
    refine ⟨?_, fun _ k => ?_⟩
    · change ((u.putSlot i e).lane i p).queue = []
      unfold State.lane
      rw [State.putSlot_lanes]
      exact hq p
    · change (u.putSlot i e).sw.queue i k = _
      rw [State.putSlot_sw]
      exact hw k
  have hdis : (u.putSlot i e).roomReport.disqualifySlot i = (u.putSlot i e).roomReport := State.disqualifySlot_still fun k => by
    change ((u.putSlot i e).ref k).names i = false
    unfold State.ref
    rw [State.putSlot_time]
    exact hr k
  unfold State.changeSlot
  dsimp only
  rw [if_neg hserv, hleaves, if_neg Bool.false_ne_true, hcards, if_neg Bool.false_ne_true, hdis, ite_self,
    State.kickSlot_still hstill, ite_self]

/-- R67: a slot's entry after an admission. -/
def SlotEntry.admitted (e : SlotEntry) (p : Plane) (bs : List Byte) : SlotEntry :=
  { e.admitWith p bs with state := .admitted, timer := none, pwren := true }

theorem SlotEntry.enter_admitted {e : SlotEntry} (h : e.state = .identifying) (n : Nat) :
    (e.admitWith p bs).enter .admitted n = e.admitted p bs := by
  have hst : (e.admitWith p bs).state = .identifying := h
  unfold SlotEntry.enter SlotEntry.admitted
  rw [hst]
  simp [SlotState.powered, SlotState.timerFrom, SlotState.clearsOverride]

/-- R67: an admission from IDENTIFYING, nothing waiting in the slot, the ADMIT frame starting at once. -/
theorem State.judgeIdent_admits (hid : (u.slot i).state = .identifying) (ht : (u.slot i).typeOk (identType bs) = true)
    (hp : (u.slot i).payloadPasses (identPayload bs) = true) (hl : (u.lane i p).state = .up) (htx : (u.lane i p).tx = .none)
    (hq : ∀ q, (u.lane i q).queue = []) (hw : ∀ k, u.sw.queue i k = EgressQueue.nil) (hr : u.noRef i) :
    (u.judgeIdent i p bs).apart = (State.slotBecomes { u.setLane i p { u.lane i p with
        tx := .control ⟨.admission ((u.slot i).cfg.policy.admits p), .slotManager⟩
          (controlFrame i .admission (admitPayload i ((u.slot i).cfg.policy.admits p))) } with
      ring := { u.ring with tx := u.ring.tx.map TxMove.roomSeen } } i ((u.slot i).admitted p bs)).apart := by
  have henter : u.enterSlot i .admitted (fun e => e.admitWith p bs) = (u.putSlot i ((u.slot i).admitted p bs)).roomReport := by
    unfold State.enterSlot
    rw [SlotEntry.enter_admitted hid, State.moveSlot_eq_changeSlot (.inr rfl) (by rw [hid]; rfl)]
    exact State.changeSlot_serves (by rw [hid]; exact ⟨nofun, nofun⟩) rfl rfl hq hw hr
  have hput := State.putSlot_apart u i ((u.slot i).admitted p bs)
  rw [State.becomes_moves (by rw [hid]; exact nofun)] at hput
  rw [State.judgeIdent_passes ht hp, henter]
  have hlanes := State.putSlot_lanes u i ((u.slot i).admitted p bs)
  have hslot := State.putSlot_slot_self u i ((u.slot i).admitted p bs)
  have hring := State.putSlot_ring u i ((u.slot i).admitted p bs)
  generalize u.putSlot i ((u.slot i).admitted p bs) = w at hput hlanes hslot hring
  have hlane : w.roomReport.lane i p = u.lane i p := by
    change w.lane i p = _
    unfold State.lane
    rw [hlanes]
  have hact : (w.roomReport.slot i).active = (u.slot i).cfg.policy.admits p :=
    (congrArg SlotEntry.active hslot :)
  rw [hact, State.submit_idle (by rw [hlane]; exact hl) (by rw [hlane]; exact hq p) (by rw [hlane]; exact htx), hlane]
  change (({ w.apart with ring := { w.apart.ring with tx := w.apart.ring.tx.map TxMove.roomSeen } } : State).setLane i p _) = _
  rw [hput]
  rfl

/-! ## Rejection (R66) -/

/-- R66: a slot's entry after a rejection. -/
def SlotEntry.rejected (e : SlotEntry) (r : FailReason) : SlotEntry :=
  { e with state := .rejected, reason := r, timer := none, pwren := false }

/-- R39, R66: a rejection takes the lanes off, none of them having anything to send. -/
theorem State.enterRejected {r : FailReason} (hid : (u.slot i).state = .identifying) (hst : (u.lane i p).staging = none)
    (htx : (u.lane i p).tx = .none) (hq : (u.lane i p).queue = []) (hn : (u.lane i p).notSent ≤ 4294967295)
    (ho : (u.lane i p.other).state ≠ .up) (ha : (u.slot i).delayA.valid = false) (hb : (u.slot i).delayB.valid = false) :
    (u.enterSlot i .rejected (fun e => { e with reason := r })).apart = (State.slotBecomes { u with
      lanes := vset u.lanes i (vget u.lanes i).disabled } i
        { (u.slot i).rejected r with laneA := .off, laneB := .off }).apart := by
  have henter (n : Nat) : SlotEntry.enter { u.slot i with reason := r } .rejected n = (u.slot i).rejected r := by
    unfold SlotEntry.enter SlotEntry.rejected
    rw [hid]
    simp [SlotState.powered, SlotState.timerFrom, SlotState.clearsOverride]
  have hlane (q : Plane) : q = p ∨ (u.lane i q).state ≠ .up := by
    by_cases hqp : q = p
    · exact .inl hqp
    · have : q = p.other := by cases p <;> cases q <;> first | rfl | exact absurd rfl hqp
      exact .inr (this ▸ ho)
  have hoff (q : Plane) : (u.lane i q).offClear = { u.lane i q with enable := false, state := .off } := by
    unfold LanePort.offClear
    split
    · rename_i hup
      obtain rfl | h := hlane q
      · have hmin : min ((u.lane i q).notSent + (u.lane i q).queue.length) 4294967295 = (u.lane i q).notSent := by
          rw [hq]
          exact Nat.min_eq_left hn
        have hpart : (u.lane i q).partials = (u.lane i q).partialCount := by
          unfold LanePort.partials
          rw [hst]
          rfl
        rw [LanePort.settled_idle htx, hmin, hpart, ← hst, ← hq]
      · exact absurd hup h
    · rfl
  have hboth : (vget u.lanes i).both LanePort.offClear = (vget u.lanes i).disabled := by
    have h1 := hoff .a
    have h2 := hoff .b
    unfold State.lane at h1 h2
    unfold Lanes.both Lanes.disabled
    exact congrArg₂ Lanes.mk h1 h2
  have hbreak : (u.slot i).breaksRef ((u.slot i).rejected r) = false := by
    have hd (q : Plane) : ((u.slot i).delay q).valid = false := by cases q <;> assumption
    unfold SlotEntry.breaksRef
    rw [hid, hd]
    have h1 : ((u.slot i).rejected r).active = (u.slot i).active := rfl
    have h2 : ((u.slot i).rejected r).fenced = (u.slot i).fenced := rfl
    rw [h1, h2]
    cases (u.slot i).fenced <;> cases (u.slot i).active <;> rfl
  have hstill : u.moveStill i ((u.slot i).rejected r) := by
    refine ⟨⟨fun q hup _ => ⟨?_, fun h => ?_⟩, .inl ?_, .inl ?_, fun h => ?_, .inl hbreak⟩, fun h => ?_⟩
    · obtain rfl | h := hlane q
      · exact hq
      · exact absurd hup h
    · rcases h with h | h <;> cases h
    · unfold SlotEntry.serving
      rw [hid]
      rfl
    · unfold SlotEntry.leaves
      rw [hid]
      have h2 : ((u.slot i).rejected r).fenced = (u.slot i).fenced := rfl
      rw [h2]
      cases (u.slot i).fenced <;> rfl
    · rw [hid] at h
      cases h
    · rw [hid] at h
      cases h
  have hclear (q : Plane) : (u.lane i q).clear := fun hup => by
    obtain rfl | h := hlane q
    · exact ⟨htx, hq⟩
    · exact absurd hup h
  unfold State.enterSlot
  rw [henter, State.moveSlot_off hstill (by rw [hid]; rfl) rfl hclear, hboth, SlotEntry.lanesTo_dark (by exact ha) (by exact hb)]
  refine congrArg State.apart (State.becomes_moves ?_)
  change (u.slot i).state ≠ _
  rw [hid]
  exact nofun

end Sys2Proof.Machine
end

section
/-! SUPPORT. Restart of a card, and the settling of O43. -/

namespace Sys2Proof.Machine

open Sys2Proof

variable {s t u v : State} {i : Slot} {p : Plane} {c d : Cls} {a : Addr} {bs : List Byte}

/-! ## Queues that stay empty -/

/-- The slot's queue of a class is empty. -/
def State.nilAt (s : State) (i : Slot) (d : Cls) : Prop := s.sw.queue i d = EgressQueue.nil

/-- Both queues of the slot are empty. -/
def State.emptyAt (s : State) (i : Slot) : Prop := ∀ d, s.nilAt i d

theorem State.nilAt_of_queues (h : t.sw.queues = s.sw.queues) (hs : s.nilAt i d) : t.nilAt i d := by
  unfold State.nilAt SwitchCore.queue at hs ⊢
  rw [h]
  exact hs

theorem State.emptyAt_of_queues (h : t.sw.queues = s.sw.queues) (hs : s.emptyAt i) : t.emptyAt i :=
  fun d => State.nilAt_of_queues h (hs d)

theorem SwitchCore.dropRef_queues (w : SwitchCore) (id : Nat) : (w.dropRef id).queues = w.queues := by
  unfold SwitchCore.dropRef
  split
  · rfl
  · split <;> rfl

theorem State.dropClaim_queues (s : State) (id : Nat) : (s.dropClaim id).sw.queues = s.sw.queues := by
  unfold State.dropClaim
  dsimp only
  split
  · exact SwitchCore.dropRef_queues ..
  · exact SwitchCore.dropRef_queues ..

theorem State.abandonTx_queues (i : Slot) (c : Cls) (s : State) (p : Plane) : (State.abandonTx i c s p).sw.queues = s.sw.queues := by
  unfold State.abandonTx
  dsimp only
  split
  · split
    · exact State.dropClaim_queues ..
    · rfl
  · rfl

theorem State.kickLane_queues (s : State) (i : Slot) (p : Plane) : (s.kickLane i p).sw.queues = s.sw.queues := by
  have hstart (u : State) (f : CtlFrame) : (u.reportStart f).sw = u.sw := by
    unfold State.reportStart
    split <;> rfl
  unfold State.kickLane
  dsimp only
  split
  · split
    · exact congrArg SwitchCore.queues (hstart ..)
    · split
      · split <;> rfl
      · rfl
  · rfl

theorem State.kickSlot_queues (s : State) (i : Slot) : (s.kickSlot i).sw.queues = s.sw.queues := by
  rw [State.kickSlot, State.kickLane_queues, State.kickLane_queues]

theorem State.emptyQueue_nilAt (j : Slot) (c : Cls) (h : s.nilAt i d) : (State.emptyQueue j s c).nilAt i d := by
  unfold State.emptyQueue
  dsimp only
  split
  · exact h
  · have hq : ([Plane.a, Plane.b].foldl (State.abandonTx j c) s).sw.queues = s.sw.queues := by
      rw [List.foldl_cons, List.foldl_cons, List.foldl_nil, State.abandonTx_queues, State.abandonTx_queues]
    generalize [Plane.a, Plane.b].foldl (State.abandonTx j c) s = v at hq
    have hd : v.nilAt i d := State.nilAt_of_queues hq h
    have hset : (v.sw.setQueue j c EgressQueue.nil).queue i d = EgressQueue.nil := by
      unfold State.nilAt SwitchCore.queue at hd
      unfold SwitchCore.queue SwitchCore.setQueue
      dsimp only
      by_cases hj : i = j
      · subst hj
        rw [vget_vset_self]
        cases c <;> cases d <;> first | rfl | exact hd
      · rw [vget_vset_ne _ _ (Ne.symm hj)]
        exact hd
    exact (SwitchCore.keeps_dropRefs _ _).queues i d ((SwitchCore.keeps_bump _ _ _).queues i d hset)

theorem State.flush_nilAt (j : Slot) (cs : List Cls) (h : s.nilAt i d) : (s.flush j cs).nilAt i d := by
  have hfold (u : State) (hu : u.nilAt i d) : (cs.foldl (State.emptyQueue j) u).nilAt i d := by
    induction cs generalizing u with
    | nil => exact hu
    | cons c cs ih => exact ih _ (State.emptyQueue_nilAt j c hu)
  exact State.nilAt_of_queues (State.kickSlot_queues ..) (hfold s h)

theorem State.putTime_nilAt (x : TimeBase) (h : s.nilAt i d) : (s.putTime x).nilAt i d := by
  have hfold (q : Nat) (l : List Slot) (u : State) (hu : u.nilAt i d) :
      (l.foldl (fun s j => if (s.slot j).cfg.gate < q then s.flush j [.timed] else s) u).nilAt i d := by
    induction l generalizing u with
    | nil => exact hu
    | cons j l ih =>
      refine ih _ ?_
      dsimp only
      split
      · exact State.flush_nilAt j _ hu
      · exact hu
  unfold State.putTime
  dsimp only
  split
  · exact h
  · exact hfold _ _ _ h

theorem State.clearCardPoints_sw (s : State) (j : Slot) : (s.clearCardPoints j).sw = s.sw := by
  have hplace (u : State) (b : LogBody) : (u.placeChange b).sw = u.sw := by
    unfold State.placeChange
    split
    · split
      · split <;> rfl
      · split <;> rfl
    · rfl
  have hmove (u : State) (k : Fin 64) (x : Point) : (u.movePoint k x).sw = u.sw := by
    unfold State.movePoint
    dsimp only
    split
    · rfl
    · split
      · exact hplace ..
      · split
        · exact hplace ..
        · rfl
  unfold State.clearCardPoints
  have hfold (l : List (Fin 64)) (u : State) : (l.foldl (fun s k =>
      let p := s.point k
      if p.cfg.kind.isCard && p.cfg.which = j.val + 1 then s.movePoint k p.cleared else s) u).sw = u.sw := by
    induction l generalizing u with
    | nil => rfl
    | cons k l ih =>
      rw [List.foldl_cons, ih]
      dsimp only
      split
      · exact hmove ..
      · rfl
  exact hfold _ _

/-- What a change of a slot's entry does to a queue that is empty, or emptied by its flush. -/
theorem State.changeSlot_nilAt {new : SlotEntry} {j : Slot}
    (h : s.nilAt i d ∨ i = j ∧ ((s.slot j).leaves new || (!(s.slot j).fenced && new.fenced)) = true ∧ new.serving = false) :
    (s.changeSlot j new).nilAt i d := by
  have hput (h : s.nilAt i d) : (s.putSlot j new).nilAt i d := by
    unfold State.nilAt
    rw [State.putSlot_sw]
    exact h
  unfold State.changeSlot
  extract_lets old s1 s2 s3 s4 s5
  have h3 : s3.nilAt i d := by
    unfold s3
    split
    · obtain h | ⟨rfl, -, hserv⟩ := h
      · refine State.flush_nilAt j _ ?_
        unfold s2
        split <;> exact hput h
      · refine State.flush_queue (by cases d <;> simp) (State.queueOpen_serving ?_)
        unfold s2
        split
        · exact (congrArg SlotEntry.serving (s.putSlot_slot_self i new)).trans hserv
        · exact (congrArg SlotEntry.serving (s.putSlot_slot_self i new)).trans hserv
    · rename_i hno
      obtain h | ⟨-, h, -⟩ := h
      · unfold s2
        split <;> exact hput h
      · exact absurd h hno
  have h4 : s4.nilAt i d := by
    unfold s4
    split
    · exact State.nilAt_of_queues (congrArg SwitchCore.queues (s3.clearCardPoints_sw j)) h3
    · exact h3
  have h5 : s5.nilAt i d := by
    unfold s5
    split
    · exact State.putTime_nilAt _ h4
    · exact h4
  split
  · exact h5
  · exact State.nilAt_of_queues (s5.kickSlot_queues j) h5

theorem State.changeSlot_emptyAt {new : SlotEntry}
    (h : s.emptyAt i ∨ ((s.slot i).leaves new || (!(s.slot i).fenced && new.fenced)) = true ∧ new.serving = false) :
    (s.changeSlot i new).emptyAt i := fun d => State.changeSlot_nilAt (h.imp (· d) fun hf => ⟨rfl, hf⟩)

/-! ## Restart of a card (R69) -/

theorem State.submit_queues (s : State) (j : Slot) (p : Plane) (f : CtlFrame) : (s.submit j p f).1.sw.queues = s.sw.queues := by
  unfold State.submit
  dsimp only
  split
  · exact State.kickLane_queues ..
  · rfl

/-- R69: a slot's entry between its two states at a restart. -/
def SlotEntry.restarted (e : SlotEntry) (n : Nat) : SlotEntry :=
  { e.left with state := .identifying, timer := some (n + Config.identWaitPeriods), pwren := true }

/-- R69: the slot goes from ADMITTED to IDENTIFYING. -/
theorem State.enterIdentifying_restarts (h : (u.slot i).state = .admitted) :
    (u.enterSlot i .identifying id).slot i = (u.slot i).restarted u.osc ∧ (u.enterSlot i .identifying id).emptyAt i := by
  have henter : (id (u.slot i)).enter .identifying u.osc = (u.slot i).restarted u.osc := by
    unfold SlotEntry.enter SlotEntry.restarted
    rw [id, h]
    simp [SlotState.powered, SlotState.timerFrom, SlotState.clearsOverride]
  have hsw (v : State) : (v.pollLeaves i).sw = v.sw := by
    unfold State.pollLeaves
    split
    · split <;> rfl
    · rfl
  unfold State.enterSlot
  rw [henter]
  have hslot := State.changeSlot_slot u i ((u.slot i).restarted u.osc)
  have hleft : ((u.changeSlot i ((u.slot i).restarted u.osc)).pollLeaves i).slot i = (u.slot i).restarted u.osc := by
    unfold State.slot at hslot ⊢
    rw [State.pollLeaves_sm]
    exact hslot
  have hempty : (u.changeSlot i ((u.slot i).restarted u.osc)).emptyAt i := State.changeSlot_emptyAt (.inr ⟨by
    unfold SlotEntry.leaves
    rw [h]
    rfl, rfl⟩)
  have hmove : u.moveSlot i ((u.slot i).restarted u.osc) = (u.changeSlot i ((u.slot i).restarted u.osc)).pollLeaves i := by
    unfold State.moveSlot
    dsimp only
    rw [h, if_pos (by rfl)]
    unfold State.followEnable
    dsimp only
    exact if_pos (by rw [hleft]; rfl)
  rw [hmove]
  exact ⟨hleft, State.emptyAt_of_queues (congrArg SwitchCore.queues (hsw _)) hempty⟩

/-- R66, R67: an IDENT that passes admits its card, and leaves empty queues empty. -/
theorem State.judgeIdent_admitted (hid : (u.slot i).state = .identifying) (ht : (u.slot i).typeOk (identType bs) = true)
    (hp : (u.slot i).payloadPasses (identPayload bs) = true) (hq : u.emptyAt i) :
    (u.judgeIdent i p bs).slot i = (u.slot i).admitted p bs ∧ (u.judgeIdent i p bs).emptyAt i := by
  have henter : u.enterSlot i .admitted (fun e => e.admitWith p bs) = u.changeSlot i ((u.slot i).admitted p bs) := by
    unfold State.enterSlot
    rw [SlotEntry.enter_admitted hid, State.moveSlot_eq_changeSlot (.inr rfl) (by rw [hid]; rfl)]
  rw [State.judgeIdent_passes ht hp, henter]
  refine ⟨?_, State.emptyAt_of_queues (State.submit_queues ..) (State.changeSlot_emptyAt (.inl hq))⟩
  unfold State.slot
  rw [State.submit_sm]
  exact State.changeSlot_slot u i ((u.slot i).admitted p bs)

/-! ## O43 -/

/-- Settles O43: an accepted frame by `State.frameEnd_accepted`; then STATUS, IDENT and REF by the lemmas about each. -/
theorem controlFramesReceived : Obligations.ControlFramesReceived := by
  unfold Obligations.ControlFramesReceived
  intro i p bs g0 s hq hst hfits g x e l u ends
  have row {y : State} (hy : (s.frameEnd i p bs).apart = y) : ∃ t, exec (.frameEndReceived i p bs) s = .next t ∧ t.apart = y :=
    work_apart hq (by simp) hy
  refine ⟨fun hk hpay => ?_, fun hk hlen => ?_, fun hk hlen hstate => ?_⟩
  · have hframe (hacc : e.state = .admitted ∨ e.state = .draining) : s.frameEnd i p bs = u.takeStatus i p x g.stamp :=
      State.frameEnd_accepted hst hfits hk (by rcases hacc with h | h <;> exact h ▸ rfl) hpay
    refine ⟨fun hacc hno => row ?_, fun a ws w c hadm he hw hcur hplane hnum hmade hlog hcond hpin hf hcards => ?_⟩
    · rw [hframe hacc, State.takeStatus_stray (by exact hno)]
      rfl
    · intro rtt d e1
      refine row ?_
      have hrtt : acceptedRtt ((u.lane i p).state == .up) 
          { flags := statusFlags x, turnaround := statusTurnaround x, codes := statusCodes x, t1 := c.t1, t4 := g.stamp } = rtt := by
        have hl : u.lane i p = l := State.lane_setLane_self ..
        have hlane : (u.lane i p).state = (s.lane i p).state := (congrArg LanePort.state hl).trans rfl
        unfold rtt
        rw [hlane]
        cases hc : c.t1 with
        | none => exact acceptedRtt_none rfl
        | some n =>
          refine (acceptedRtt_some rfl).trans (if_congr ?_ rfl rfl)
          rw [beq_iff_eq]
          exact Iff.rfl
      have he1 : e1 = e.sampled p rtt := by
        unfold e1
        cases rtt <;> rfl
      rw [hframe (.inl hadm), State.takeStatus_success (u := u) (o := rtt) he hw hcur hplane hnum hmade hlog hcond hpin hf hcards hrtt,
        he1]
      cases rtt <;> rfl
  · intro typeOk sizeOk active card
    have hframe (hacc : e.state = .identifying ∨ e.state = .admitted) : s.frameEnd i p bs = u.takeIdent i p x :=
      State.frameEnd_accepted hst hfits hk (by rcases hacc with h | h <;> exact h ▸ rfl) (by
        unfold payloadOk
        exact decide_eq_true hlen)
    have hactive : e.cfg.policy.admits p = active := rfl
    refine ⟨fun hid ht hs hl htx hqs hws hrefs => row ?_, fun r hid hr htx hql hn ho ha hb => row ?_, fun hadm ht hs => ?_⟩
    · have hact : (e.cfg.policy.admits p) = active := rfl
      have hid' : (u.slot i).state = .identifying := hid
      have htake : u.takeIdent i p x = u.judgeIdent i p x := by
        unfold State.takeIdent
        rw [hid']
      have hlane : u.lane i p = l := State.lane_setLane_self ..
      have hadmits := State.judgeIdent_admits (u := u) (bs := x) hid' (SlotEntry.typeOk_iff.mpr ht) (SlotEntry.payloadPasses_iff.mpr hs)
        (by rw [hlane]; exact hl) (by rw [hlane]; exact htx) (State.lane_setLane_queue hqs (hqs p)) hws hrefs
      have hcode : admitPayload i active = [BitVec.ofNat 8 (i.val + 1), if active = .a then 0 else 1, 0, 0] := by
        unfold admitPayload
        cases active <;> rfl
      have hpolicy : (u.slot i).cfg.policy.admits p = active := hact
      have hset := s.setLane_setLane i p l
        { l with tx := .control ⟨.admission active, .slotManager⟩ (controlFrame i .admission (admitPayload i active)) }
      rw [hframe (.inl hid), htake, hadmits, hlane, hpolicy, hset, hcode]
      rfl
    · have hid' : (u.slot i).state = .identifying := hid
      have htake : u.takeIdent i p x = u.judgeIdent i p x := by
        unfold State.takeIdent
        rw [hid']
      have hrej : u.judgeIdent i p x = u.enterSlot i .rejected (fun e => { e with reason := r }) := by
        unfold State.judgeIdent
        obtain ⟨rfl, hno⟩ | ⟨rfl, hty, hno⟩ := hr
        · have : (u.slot i).typeOk (identType x) = false := Bool.eq_false_iff.mpr fun h => hno (SlotEntry.typeOk_iff.mp h)
          dsimp only
          rw [this]
          rfl
        · have : (u.slot i).payloadPasses (identPayload x) = false :=
            Bool.eq_false_iff.mpr fun h => hno (SlotEntry.payloadPasses_iff.mp h)
          have ht' : (u.slot i).typeOk (identType x) = true := SlotEntry.typeOk_iff.mpr hty
          dsimp only
          rw [this, ht']
          rfl
      have hlane : u.lane i p = l := State.lane_setLane_self ..
      rw [hframe (.inl hid), htake, hrej, State.enterRejected (u := u) (p := p) hid' (by rw [hlane]) (by rw [hlane]; exact htx)
        (by rw [hlane]; exact hql) (by rw [hlane]; exact hn) (by
          have : u.lane i p.other = s.lane i p.other := s.lane_setLane_other i p _
          rw [this]
          exact ho) ha hb]
      rfl
    · have hadm' : (u.slot i).state = .admitted := hadm
      obtain ⟨hslot, hempty⟩ := State.enterIdentifying_restarts hadm'
      have htake : u.takeIdent i p x = (u.enterSlot i .identifying id).judgeIdent i p x := by
        unfold State.takeIdent
        rw [hadm']
      obtain ⟨hafter, hq'⟩ := State.judgeIdent_admitted (p := p) (bs := x) (by rw [hslot]; rfl)
        (by rw [hslot]; exact SlotEntry.typeOk_iff.mpr ht) (by rw [hslot]; exact SlotEntry.payloadPasses_iff.mpr hs) hempty
      obtain ⟨t, ht, ha⟩ := row rfl
      have htslot : t.slot i = (s.frameEnd i p bs).slot i := (congrArg (fun y : State => y.slot i) ha :)
      have htsw : t.sw = (s.frameEnd i p bs).sw := (congrArg (fun y : State => y.sw) ha :)
      rw [hframe (.inr hadm), htake] at htslot htsw
      rw [hafter, hslot] at htslot
      refine ⟨t, ht, ?_⟩
      rw [htslot, htsw]
      exact ⟨rfl, rfl, rfl, rfl, rfl, rfl, rfl, hq'⟩
  · intro offered at_
    have hframe : s.frameEnd i p bs = if p = e.active then u.refArrival i g.stamp else u.setLane i p (u.lane i p).countSetAside :=
      State.frameEnd_accepted hst hfits hk (by rcases hstate with h | h <;> exact h ▸ rfl) (by
        unfold payloadOk
        exact decide_eq_true hlen)
    refine ⟨fun hp => row ?_, fun hp hno => row ?_, fun hp hex hd => row ?_, fun k hp hk1 hother hserv hval => ?_⟩
    · have hlane : u.lane i p = l := State.lane_setLane_self ..
      rw [hframe, if_neg hp, hlane]
      exact congrArg State.apart (State.setLane_setLane ..)
    · rw [hframe, if_pos hp, State.refArrival_none (by exact hno)]
    · rw [hframe, if_pos hp, State.refArrival_discarded (by exact hex) (by
        have : u.slot i = e := rfl
        rw [this, ← hp]
        exact hd)]
      rfl
    have hex : ∃ k, (u.ref k).cfg.enabled = true ∧ (u.ref k).names i = true := ⟨k, hk1⟩
    have hself : ((vget s.time.refs k).cfg.enabled && (vget s.time.refs k).names i) = true := by
      rw [Bool.and_eq_true]
      exact hk1
    have hno (j : Fin 4) (hj : j ≠ k) : ((vget s.time.refs j).cfg.enabled && (vget s.time.refs j).names i) = false := by
      rw [Bool.eq_false_iff, Ne, Bool.and_eq_true]
      exact hother j hj
    have hserv' : (u.slot i).serving = true := hserv
    have hval' : ((u.slot i).delay (u.slot i).active).valid = true := by
      have : (u.slot i).active = p := hp.symm
      rw [this]
      exact hval
    have hone := TimeBase.offer_alone (x := s.time) (takes := fun r => r.names i) hself hno g.stamp.osc
    refine ⟨fun hlast hsel => row ?_, fun y hlast hlo hhi hqual hsel => ?_⟩
    · have hoffer : s.time.offer (fun r => r.names i) g.stamp.osc = at_ k 0 := by
        rw [hone, RefEntry.judge_first (r := vget s.time.refs k) hlast, TimeBase.rejudge_took rfl]
        rfl
      obtain ⟨hpass, -⟩ := State.refArrival_judged (u := u) hex hserv' hval' hoffer
      rw [hframe, if_pos hp, hpass (loopUses_false fun j hj => .inl (hno j fun h => hsel (h ▸ hj))), State.putTime_same (u := u) (t := at_ k 0) rfl rfl]
      rfl
    · intro taken
      have hoffer : s.time.offer (fun r => r.names i) g.stamp.osc = taken := by
        have hq1 (b : Bool) : ((vget s.time.refs k).qualified || b) = (vget s.time.refs k).qualified := by
          have : (vget s.time.refs k).qualified = true := hqual
          rw [this]
          rfl
        rw [hone, RefEntry.judge_good (r := vget s.time.refs k) hlast ⟨hlo, hhi⟩, hq1, TimeBase.rejudge_took rfl]
        rfl
      obtain ⟨-, huses⟩ := State.refArrival_judged (u := u) hex hserv' hval' hoffer
      obtain ⟨hmoved, hstays⟩ := huses (loopUses_selected hsel hself (by
        exact (congrArg RefEntry.qualified (vget_vset_self s.time.refs k _) :).trans hqual))
      refine ⟨fun hm => row ?_, fun hm hlock => ?_⟩
      · have hput := State.putTime_same (u := u) (t := taken) rfl rfl
        rw [hframe, if_pos hp, hmoved hm]
        generalize u.putTime taken = y at hput
        change { y.apart with time := y.apart.time.discard } = _
        rw [hput]
        rfl
      · intro n err sum hlim hwin
        refine row ?_
        have herr : phaseError (refReading g.stamp.ns ((u.slot i).delay (u.slot i).active).value) = err := by
          have : (u.slot i).active = p := hp.symm
          rw [phaseError_refReading, this]
          rfl
        rw [hframe, if_pos hp, hstays hm, State.loop_locked (u := u) (y := taken) rfl rfl hlock herr hlim hwin]
        rfl

end Sys2Proof.Machine
end

section
/-! SUPPORT. Frames received: the staging buffer, discards, and the switch core's decision over a list of ports (O42). -/

namespace Sys2Proof.Machine

open Sys2Proof

variable {s t u v : State} {i j : Slot} {p : Plane} {c : Cls} {bs : List Byte} {g g0 : Staging} {w : SwitchCore} {n : Nat}

/-! ## The staging buffer (R44) -/

/-- R44: a staging buffer after the bytes of a frame. -/
theorem Staging.feed_begin (n : Stamp) (bs : List Byte) : (Staging.begin n).feed bs =
    { stamp := n, kept := bs.take 2052, count := bs.length, check := checkRun (bs.take (bs.length - 4))
      tail := bs.drop (bs.length - 4) } := by
  induction bs using List.reverseRecOn with
  | nil => rfl
  | append_singleton bs b ih =>
    have hsnoc : (Staging.begin n).feed (bs ++ [b]) = ((Staging.begin n).feed bs).byte b := List.foldl_concat ..
    rw [hsnoc, ih]
    have hkept : (if bs.length < Config.stagingBytes then bs.take 2052 ++ [b] else bs.take 2052) = (bs ++ [b]).take 2052 := by
      change (if bs.length < 2052 then _ else _) = _
      split
      · rename_i h
        rw [List.take_of_length_le (by omega), List.take_of_length_le (by simp; omega)]
      · rename_i h
        rw [List.take_append_of_le_length (by omega)]
    unfold Staging.byte
    dsimp only
    rw [hkept, List.length_append, List.length_singleton]
    by_cases h4 : bs.length < 4
    · have h0 : bs.length - 4 = 0 := by omega
      have h1 : bs.length + 1 - 4 = 0 := by omega
      rw [h0, h1]
      cases bs with
      | nil => rfl
      | cons x rest => exact if_pos h4
    · have hlen : (bs.drop (bs.length - 4)).length = 4 := by rw [List.length_drop]; omega
      have hsub : bs.length + 1 - 4 = (bs.length - 4) + 1 := by omega
      have hcons : bs.drop (bs.length - 4) = bs[bs.length - 4] :: bs.drop (bs.length - 4 + 1) := List.drop_eq_getElem_cons (by omega)
      have htake : (bs ++ [b]).take (bs.length - 4 + 1) = bs.take (bs.length - 4) ++ [bs[bs.length - 4]] := by
        rw [List.take_append_of_le_length (by omega), List.take_succ_eq_append_getElem (by omega)]
      have hdrop : (bs ++ [b]).drop (bs.length - 4 + 1) = bs.drop (bs.length - 4 + 1) ++ [b] :=
        List.drop_append_of_le_length (by omega)
      rw [hsub, htake, hdrop]
      have hcheck : checkRun (bs.take (bs.length - 4) ++ [bs[bs.length - 4]]) =
          checkByte (checkRun (bs.take (bs.length - 4))) bs[bs.length - 4] := List.foldl_concat ..
      rw [hcheck]
      split
      · rename_i x rest hx
        rw [if_neg (by rw [hlen]; decide)]
        rw [hcons] at hx
        injection hx with h1 h2
        rw [h1, h2]
      · rename_i hx
        rw [hx] at hlen
        cases hlen

/-! ## Discards (R45 to R47) -/

theorem State.pollFailedFrame_idle (h : s.cyc.entry = none) : s.pollFailedFrame i p = s := by
  unfold State.pollFailedFrame State.attemptOf State.pollRun
  rw [h]

/-- R45, R47: the end of a frame that is discarded. -/
theorem State.frameEnd_discarded {d : Discard} (hs : (s.lane i p).staging = some g0)
    (hj : (s.setLane i p { s.lane i p with staging := none }).judgeFrame i (g0.feed bs) = .error d) :
    s.frameEnd i p bs = (s.setLane i p { s.lane i p with staging := none }).discardFrame i p d := by
  unfold State.frameEnd
  dsimp only
  rw [hs]
  dsimp only
  rw [hj]

theorem State.discardFrame_idle {d : Discard} (h : s.cyc.entry = none) : s.discardFrame i p d = { s with
    sw := { s.sw with counters := vset s.sw.counters (portOf i) ((vget s.sw.counters (portOf i)).discard d) }
    alarm := if d = .check ∨ d = .overlength
      then { s.alarm with marks := { s.alarm.marks with linkError := vset s.alarm.marks.linkError i true } } else s.alarm } := by
  unfold State.discardFrame
  dsimp only
  cases d <;> exact State.pollFailedFrame_idle h

/-! ## Losses (R94, R95) -/

/-- R94: the counters after some losses. -/
def lossCounts (xs : List (Fin 13 × Loss)) (v : Vector PortCounters 13) : Vector PortCounters 13 :=
  xs.foldl (fun v x => vset v x.1 ((vget v x.1).lose x.2)) v

/-- R95: the queue drops marked after some losses. -/
def lossDrops (xs : List (Fin 13 × Loss)) (v : Vector Bool 13) : Vector Bool 13 :=
  xs.foldl (fun v x => if x.2 = .queueFull then vset v x.1 true else v) v

theorem State.countLosses_eq (s : State) (xs : List (Fin 13 × Loss)) : s.countLosses xs = { s with
    sw := { s.sw with counters := lossCounts xs s.sw.counters }
    alarm := { s.alarm with marks := { s.alarm.marks with queueDrop := lossDrops xs s.alarm.marks.queueDrop } } } := by
  induction xs generalizing s with
  | nil => rfl
  | cons x xs ih =>
    have hcons : s.countLosses (x :: xs) = (s.countLoss x).countLosses xs := rfl
    rw [hcons, ih]
    unfold State.countLoss lossCounts lossDrops
    dsimp only
    split
    · rename_i h
      simp only [List.foldl_cons, if_pos h]
      rfl
    · rename_i h
      simp only [List.foldl_cons, if_neg h]
      rfl

/-- The losses of some ports, where `f` says which are lost. -/
def lossesOf (ps : List (Fin 13)) (f : Fin 13 → Option Loss) : List (Fin 13 × Loss) :=
  ps.filterMap (fun p => (f p).map (fun l => (p, l)))

/-- A port's counters after its loss, if it has one. -/
def PortCounters.loses (k : PortCounters) : Option Loss → PortCounters
  | some l => k.lose l
  | none => k

theorem lossCounts_lossesOf {ps : List (Fin 13)} (hp : ps.Nodup) (f : Fin 13 → Option Loss) (v : Vector PortCounters 13)
    (x : Fin 13) : vget (lossCounts (lossesOf ps f) v) x = if x ∈ ps then (vget v x).loses (f x) else vget v x := by
  induction ps generalizing v with
  | nil => rfl
  | cons p ps ih =>
    obtain ⟨hnot, hnd⟩ := List.nodup_cons.mp hp
    have hstep : lossCounts (lossesOf (p :: ps) f) v = lossCounts (lossesOf ps f) (vset v p ((vget v p).loses (f p))) := by
      unfold lossesOf
      rw [List.filterMap_cons]
      cases hf : f p with
      | none => simp [PortCounters.loses]
      | some l => rfl
    rw [hstep, ih hnd]
    by_cases hx : x = p
    · subst hx
      rw [if_neg hnot, if_pos (List.mem_cons_self ..), vget_vset_self]
    · rw [vget_vset_ne _ _ (Ne.symm hx)]
      simp [List.mem_cons, hx]

theorem lossDrops_lossesOf {ps : List (Fin 13)} (f : Fin 13 → Option Loss) (v : Vector Bool 13)
    (x : Fin 13) : vget (lossDrops (lossesOf ps f) v) x = (decide (x ∈ ps ∧ f x = some .queueFull) || vget v x) := by
  induction ps generalizing v with
  | nil => simp [lossesOf, lossDrops]
  | cons p ps ih =>
    have hstep : lossDrops (lossesOf (p :: ps) f) v =
        lossDrops (lossesOf ps f) (if f p = some .queueFull then vset v p true else v) := by
      unfold lossesOf
      rw [List.filterMap_cons]
      cases hf : f p with
      | none => simp
      | some l => simp [lossDrops]
    rw [hstep, ih]
    by_cases hx : x = p
    · subst hx
      by_cases hfull : f x = some .queueFull
      · simp [hfull]
      · simp [hfull]
    · split
      · rw [vget_vset_ne _ _ (Ne.symm hx)]
        simp [hx]
      · simp [hx]

end Sys2Proof.Machine
end

section
/-! SUPPORT. The switch core's decision over a list of ports (O42). -/

namespace Sys2Proof.Machine

open Sys2Proof

variable {s t u v : State} {i j : Slot} {p : Plane} {c : Cls} {bs : List Byte} {w : SwitchCore} {b : Nat} {ps : List (Fin 13)}
  {x : Fin 13}

/-! ## Ports -/

theorem port_cases (x : Fin 13) : x = 0 ∨ ∃ j, x = portOf j := by
  by_cases h : x = 0
  · exact .inl h
  · refine .inr ⟨⟨x.val - 1, by omega⟩, Fin.ext ?_⟩
    have : x.val ≠ 0 := fun hx => h (Fin.ext hx)
    simp only [portOf]
    omega

theorem portOf_ne_zero (j : Slot) : portOf j ≠ 0 := fun h => absurd (congrArg Fin.val h) (Nat.succ_ne_zero j.val)

theorem portOf_inj (h : portOf i = portOf j) : i = j := Fin.ext (Nat.succ.inj (congrArg Fin.val h))

/-! ## A frame in the queues of some ports (R83) -/

theorem SwitchCore.onPort_zero (w : SwitchCore) (c : Cls) (f : EgressQueue → EgressQueue) :
    w.onPort c f 0 = { w with queue0 := f w.queue0 } := rfl

theorem SwitchCore.foldl_onPort (hp : ps.Nodup) (c : Cls) (f : EgressQueue → EgressQueue) (w : SwitchCore) :
    ps.foldl (fun w p => w.onPort c f p) w = { w with
      queue0 := if 0 ∈ ps then f w.queue0 else w.queue0
      queues := Vector.ofFn (fun j : Fin 12 => if portOf j ∈ ps then (vget w.queues j).set c (f (w.queue j c))
        else vget w.queues j) } := by
  induction ps generalizing w with
  | nil =>
    have : Vector.ofFn (fun j : Fin 12 => if portOf j ∈ ([] : List (Fin 13)) then (vget w.queues j).set c (f (w.queue j c))
        else vget w.queues j) = w.queues := by
      ext k hk
      simp [vget]
    rw [this]
    rfl
  | cons p ps ih =>
    obtain ⟨hnot, hnd⟩ := List.nodup_cons.mp hp
    rw [List.foldl_cons, ih hnd]
    obtain rfl | ⟨i, rfl⟩ := port_cases p
    · rw [SwitchCore.onPort_zero, if_neg hnot, if_pos (List.mem_cons_self ..)]
      refine congrArg (fun q => ({ w with queue0 := f w.queue0, queues := q } : SwitchCore)) (congrArg Vector.ofFn (funext fun j => ?_))
      simp only [List.mem_cons, portOf_ne_zero, false_or]
      rfl
    · rw [SwitchCore.onPort_slot]
      have h0 : (0 ∈ portOf i :: ps) = (0 ∈ ps) := by
        rw [List.mem_cons]
        exact propext (or_iff_right (portOf_ne_zero i).symm)
      simp only [h0]
      refine congrArg (fun q => ({ w with queue0 := if 0 ∈ ps then f w.queue0 else w.queue0, queues := q } : SwitchCore))
        (congrArg Vector.ofFn (funext fun j => ?_))
      by_cases hj : j = i
      · subst hj
        rw [if_neg hnot, if_pos (List.mem_cons_self ..)]
        exact vget_vset_self ..
      · have hne : portOf j ≠ portOf i := fun h => hj (portOf_inj h)
        have hq : vget (w.setQueue i c (f (w.queue i c))).queues j = vget w.queues j := vget_vset_ne _ _ (Ne.symm hj)
        have hqueue : (w.setQueue i c (f (w.queue i c))).queue j c = w.queue j c :=
          congrArg (fun q : SlotQueues => q.get c) hq
        rw [hq, hqueue]
        simp only [List.mem_cons, hne, false_or]

theorem foldl_stillOn {α : Type} {f : State → α → State} {l : List α} (h : ∀ x ∈ l, f u x = u) : l.foldl f u = u := by
  induction l with
  | nil => rfl
  | cons x l ih =>
    rw [List.foldl_cons, h x (List.mem_cons_self ..)]
    exact ih fun y hy => h y (List.mem_cons_of_mem _ hy)

theorem State.kickPorts_busy (h : ∀ j, portOf j ∈ ps → ∀ q, (u.lane j q).state ≠ .up ∨ (u.lane j q).tx ≠ .none) :
    u.kickPorts ps = u := by
  unfold State.kickPorts
  refine foldl_stillOn fun p hp => ?_
  obtain rfl | ⟨i, rfl⟩ := port_cases p
  · rfl
  · rw [slotOf_portOf]
    exact State.kickSlot_still fun q hup htx => ((h i hp q).elim (absurd hup) (absurd htx))

/-! ## The decision (R80 to R83) -/

/-- R83: a destination lost for want of room. -/
def State.fullLoss (s : State) (c : Cls) (b : Nat) (p : Fin 13) : Option Loss :=
  if (s.gateLoss c p).isNone && !s.hasRoom c b p then some .queueFull else none

/-- R83: does the frame go to a candidate? -/
def State.goesTo (s : State) (c : Cls) (b : Nat) (p : Fin 13) : Bool := (s.gateLoss c p).isNone && s.hasRoom c b p

theorem lossesOf_filter (ps : List (Fin 13)) (f g : Fin 13 → Bool) (l : Loss) :
    ((ps.filter f).filter g).map (fun p => (p, l)) = lossesOf ps (fun p => if f p && g p then some l else none) := by
  unfold lossesOf
  induction ps with
  | nil => rfl
  | cons p ps ih =>
    rw [List.filter_cons, List.filterMap_cons]
    cases hf : f p
    · simpa [hf] using ih
    · cases hg : g p
      · simpa [hf, hg] using ih
      · simpa [hf, hg] using ih

theorem State.verdict_ports {src d : Nat} (hd : s.decodeDest src d = .ports ps) : s.verdict src d c b =
    if (∃ p ∈ ps, s.gateLoss c p = none) ∧ s.sw.free < b then .poolEmpty (lossesOf ps (s.gateLoss c))
    else .placed (ps.filter (s.goesTo c b)) (lossesOf ps (s.gateLoss c) ++ lossesOf ps (s.fullLoss c b)) := by
  have hfull : ((ps.filter (fun p => (s.gateLoss c p).isNone)).filter (fun p => !s.hasRoom c b p)).map (fun p => (p, Loss.queueFull))
      = lossesOf ps (s.fullLoss c b) := lossesOf_filter ..
  have hgoes : (ps.filter (fun p => (s.gateLoss c p).isNone)).filter (s.hasRoom c b) = ps.filter (s.goesTo c b) := by
    rw [List.filter_filter]
    exact List.filter_congr fun p _ => Bool.and_comm ..
  have hcond : (!(ps.filter (fun p => (s.gateLoss c p).isNone)).isEmpty && decide (s.sw.free < b)) = true ↔
      (∃ p ∈ ps, s.gateLoss c p = none) ∧ s.sw.free < b := by
    simp [List.isEmpty_iff, List.filter_eq_nil_iff]
  unfold State.verdict
  rw [hd]
  dsimp only
  rw [hfull, hgoes]
  exact if_congr hcond rfl rfl

theorem lossCounts_append (xs ys : List (Fin 13 × Loss)) (v : Vector PortCounters 13) :
    lossCounts (xs ++ ys) v = lossCounts ys (lossCounts xs v) := List.foldl_append

theorem lossDrops_append (xs ys : List (Fin 13 × Loss)) (v : Vector Bool 13) :
    lossDrops (xs ++ ys) v = lossDrops ys (lossDrops xs v) := List.foldl_append

theorem State.gateLoss_notFull (s : State) (c : Cls) (x : Fin 13) : s.gateLoss c x ≠ some .queueFull := by
  unfold State.gateLoss
  (repeat' split) <;> exact nofun

/-- R80, R82, R94: the counters of the ports after the losses at the decode and at the time gates. -/
def State.gatedCounts (s : State) (c : Cls) (ps : List (Fin 13)) (x : Fin 13) : PortCounters :=
  if x ∈ ps then (vget s.sw.counters x).loses (s.gateLoss c x) else vget s.sw.counters x

section
variable {header payload : List Byte}

/-- R83: with blocks wanting, the frame goes to no port. -/
theorem State.takeCardFrame_poolEmpty (hd : s.decodeDest (i.val + 1) (hdrDestination header) = .ports ps) (hp : ps.Nodup)
    (hi : portOf i ∉ ps) (hopen : ∃ p ∈ ps, s.gateLoss (hdrClass header) p = none) (hb : s.sw.free < blocksFor payload.length) :
    s.takeCardFrame i header payload = { s with sw := { s.sw with counters := Vector.ofFn (fun x : Fin 13 =>
      if x = portOf i then
        { vget s.sw.counters (portOf i) with
          framesIn := min ((vget s.sw.counters (portOf i)).framesIn + 1) 4294967295
          poolEmpty := min ((vget s.sw.counters (portOf i)).poolEmpty + 1) 4294967295 }
      else s.gatedCounts (hdrClass header) ps x) } } := by
  have hv : s.verdict (i.val + 1) (hdrDestination header) (hdrClass header) (blocksFor payload.length) =
      .poolEmpty (lossesOf ps (s.gateLoss (hdrClass header))) := (State.verdict_ports hd).trans (if_pos ⟨hopen, hb⟩)
  unfold State.takeCardFrame
  dsimp only
  rw [hv]
  dsimp only
  rw [State.countLosses_eq]
  have hdrops : lossDrops (lossesOf ps (s.gateLoss (hdrClass header))) s.alarm.marks.queueDrop = s.alarm.marks.queueDrop := by
    refine Vector.ext fun k hk => ?_
    have := lossDrops_lossesOf (ps := ps) (s.gateLoss (hdrClass header)) s.alarm.marks.queueDrop ⟨k, hk⟩
    rw [decide_eq_false fun h => s.gateLoss_notFull _ _ h.2, Bool.false_or] at this
    exact this
  have hcounts (x : Fin 13) := lossCounts_lossesOf hp (s.gateLoss (hdrClass header))
    (vset s.sw.counters (portOf i) (vget s.sw.counters (portOf i)).countIn) x
  unfold State.bump SwitchCore.bump
  dsimp only
  rw [hdrops]
  refine congrArg (fun v => ({ s with sw := { s.sw with counters := v } } : State)) (Vector.ext fun k hk => ?_)
  rw [Vector.getElem_ofFn]
  change vget (vset _ _ _) ⟨k, hk⟩ = _
  by_cases hx : (⟨k, hk⟩ : Fin 13) = portOf i
  · rw [hx, vget_vset_self, if_pos rfl, hcounts, if_neg hi, vget_vset_self]
    rfl
  · rw [vget_vset_ne _ _ (Ne.symm hx), if_neg hx, hcounts, vget_vset_ne _ _ (Ne.symm hx)]
    rfl

/-- R83: the counters of the ports after all losses. -/
def State.lostCounts (s : State) (c : Cls) (b : Nat) (ps : List (Fin 13)) (x : Fin 13) : PortCounters :=
  if x ∈ ps then ((vget s.sw.counters x).loses (s.gateLoss c x)).loses (s.fullLoss c b x) else vget s.sw.counters x

/-- R94: the switch core with a card's frame counted in and its losses counted. -/
def State.decided (s : State) (i : Slot) (c : Cls) (b : Nat) (ps : List (Fin 13)) : SwitchCore :=
  { s.sw with counters := Vector.ofFn (fun x : Fin 13 =>
      if x = portOf i then
        { vget s.sw.counters (portOf i) with framesIn := min ((vget s.sw.counters (portOf i)).framesIn + 1) 4294967295 }
      else s.lostCounts c b ps x) }

/-- R83: the switch core with a frame stored once, at the tail of the queues of some ports. -/
def SwitchCore.holding (w : SwitchCore) (c : Cls) (header payload : List Byte) (into : List (Fin 13)) : SwitchCore :=
  { w with
    free := w.free - blocksFor payload.length
    stored := w.stored ++ [⟨w.nextId, header, payload, blocksFor payload.length, into.length, false⟩]
    nextId := w.nextId + 1
    queue0 := if 0 ∈ into then w.queue0.append w.nextId else w.queue0
    queues := Vector.ofFn (fun j : Fin 12 => if portOf j ∈ into
      then (vget w.queues j).set c ((w.queue j c).append w.nextId) else vget w.queues j) }

/-- R95: the alarm unit with the queues that were full marked. -/
def State.dropsMarked (s : State) (c : Cls) (b : Nat) (ps : List (Fin 13)) : AlarmUnit :=
  { s.alarm with marks := { s.alarm.marks with queueDrop := Vector.ofFn (fun x : Fin 13 =>
      decide (x ∈ ps ∧ s.fullLoss c b x = some .queueFull) || vget s.alarm.marks.queueDrop x) } }

/-- R83: the frame goes to each port that is open to it and has room. -/
theorem State.takeCardFrame_placed {into : List (Fin 13)} (hd : s.decodeDest (i.val + 1) (hdrDestination header) = .ports ps)
    (hp : ps.Nodup) (hi : portOf i ∉ ps)
    (hb : blocksFor payload.length ≤ s.sw.free ∨ ∀ p ∈ ps, s.gateLoss (hdrClass header) p ≠ none)
    (hinto : ps.filter (s.goesTo (hdrClass header) (blocksFor payload.length)) = into)
    (hbusy : ∀ j, portOf j ∈ into → ∀ q, (s.lane j q).state ≠ .up ∨ (s.lane j q).tx ≠ .none) :
    (s.takeCardFrame i header payload).apart = ({ s with
      sw := if into.length = 0 then s.decided i (hdrClass header) (blocksFor payload.length) ps
        else (s.decided i (hdrClass header) (blocksFor payload.length) ps).holding (hdrClass header) header payload into
      alarm := s.dropsMarked (hdrClass header) (blocksFor payload.length) ps } : State).apart := by
  have hv : s.verdict (i.val + 1) (hdrDestination header) (hdrClass header) (blocksFor payload.length) =
      .placed into (lossesOf ps (s.gateLoss (hdrClass header)) ++
        lossesOf ps (s.fullLoss (hdrClass header) (blocksFor payload.length))) := by
    rw [← hinto]
    refine (State.verdict_ports hd).trans (if_neg fun ⟨⟨p, hmem, hnone⟩, hlt⟩ => ?_)
    obtain h | h := hb
    · omega
    · exact h p hmem hnone
  have hnd : into.Nodup := hinto ▸ hp.filter _
  have hcounts : lossCounts (lossesOf ps (s.gateLoss (hdrClass header)) ++
      lossesOf ps (s.fullLoss (hdrClass header) (blocksFor payload.length)))
        (vset s.sw.counters (portOf i) (vget s.sw.counters (portOf i)).countIn) =
      (s.decided i (hdrClass header) (blocksFor payload.length) ps).counters := by
    refine Vector.ext fun k hk => ?_
    unfold State.decided
    rw [Vector.getElem_ofFn]
    change vget _ ⟨k, hk⟩ = _
    rw [lossCounts_append, lossCounts_lossesOf hp, lossCounts_lossesOf hp]
    by_cases hx : (⟨k, hk⟩ : Fin 13) = portOf i
    · rw [hx, if_neg hi, if_neg hi, vget_vset_self, if_pos rfl]
      rfl
    · rw [if_neg hx, vget_vset_ne _ _ (Ne.symm hx)]
      unfold State.lostCounts
      split <;> rfl
  have hdrops : lossDrops (lossesOf ps (s.gateLoss (hdrClass header)) ++
      lossesOf ps (s.fullLoss (hdrClass header) (blocksFor payload.length))) s.alarm.marks.queueDrop =
      (s.dropsMarked (hdrClass header) (blocksFor payload.length) ps).marks.queueDrop := by
    refine Vector.ext fun k hk => ?_
    unfold State.dropsMarked
    rw [Vector.getElem_ofFn]
    change vget _ ⟨k, hk⟩ = _
    have hg : ¬ ((⟨k, hk⟩ : Fin 13) ∈ ps ∧ s.gateLoss (hdrClass header) ⟨k, hk⟩ = some .queueFull) :=
      fun h => s.gateLoss_notFull _ _ h.2
    rw [lossDrops_append, lossDrops_lossesOf, lossDrops_lossesOf, decide_eq_false hg, Bool.false_or]
  have hlost : (s.bump (portOf i) PortCounters.countIn).countLosses (lossesOf ps (s.gateLoss (hdrClass header)) ++
      lossesOf ps (s.fullLoss (hdrClass header) (blocksFor payload.length))) = { s with
        sw := s.decided i (hdrClass header) (blocksFor payload.length) ps
        alarm := s.dropsMarked (hdrClass header) (blocksFor payload.length) ps } := by
    rw [State.countLosses_eq]
    unfold State.bump SwitchCore.bump
    dsimp only
    rw [hcounts, hdrops]
    rfl
  unfold State.takeCardFrame
  dsimp only
  rw [hv]
  dsimp only
  rw [hlost]
  cases hin : into with
  | nil => rfl
  | cons x xs =>
    rw [← hin, if_neg (by rw [hin]; exact Bool.false_ne_true), if_neg (by rw [hin]; exact Nat.succ_ne_zero _)]
    unfold State.place
    dsimp only
    rw [SwitchCore.foldl_onPort hnd, State.kickPorts_busy (by exact hbusy)]
    rfl

end

end Sys2Proof.Machine
end

section
/-! SUPPORT. The settling of O42. -/

namespace Sys2Proof.Machine

open Sys2Proof

variable {s t u v : State} {i j : Slot} {p : Plane} {c : Cls} {bs : List Byte} {w : SwitchCore} {b d : Nat} {ps : List (Fin 13)}
  {x : Fin 13} {g g0 : Staging}

/-! ## A frame taken out of the staging buffer -/

theorem State.setLane_unstaged (s : State) (i : Slot) (p : Plane) (j : Slot) (q : Plane) :
    (((s.setLane i p { s.lane i p with staging := none }).lane j q).state = (s.lane j q).state) ∧
      ((s.setLane i p { s.lane i p with staging := none }).lane j q).tx = (s.lane j q).tx := by
  by_cases hj : j = i
  · subst hj
    rw [State.lane_setLane_same_slot]
    split
    · rename_i hq
      rw [hq]
      exact ⟨rfl, rfl⟩
    · exact ⟨rfl, rfl⟩
  · rw [State.lane_setLane_ne s p q _ (Ne.symm hj)]
    exact ⟨rfl, rfl⟩

/-! ## Judgements that fail (R45, R46) -/

theorem State.judgeFrame_check (h : ¬ (12 ≤ g.count ∧ g.count = 12 + hdrLength g.kept ∧ g.tail = checkBytes (~~~ g.check))) :
    s.judgeFrame i g = .error .check := by
  have hw : g.whole = false := Bool.eq_false_iff.mpr fun hw => h (Staging.whole_iff.mp hw)
  unfold State.judgeFrame
  rw [hw]
  rfl

theorem State.judgeFrame_overlength (h : g.whole = true) (hl : s.lengthOk i (hdrLength g.kept) = false) :
    s.judgeFrame i g = .error .overlength := by
  unfold State.judgeFrame
  rw [h, hl]
  rfl

theorem State.judgeFrame_spoofed (h : g.whole = true) (hl : s.lengthOk i (hdrLength g.kept) = true)
    (hs : hdrSource g.kept ≠ i.val + 1) : s.judgeFrame i g = .error .spoofed := by
  unfold State.judgeFrame
  rw [h, hl, if_neg (by decide), if_neg (by decide)]
  exact if_pos hs

/-- R46: the kinds that a state accepts. -/
theorem SlotState.accepts_iff {st : SlotState} {k : FrameKind} : st.accepts k = true ↔
    st = .identifying ∧ k = .ident ∨ st = .admitted ∧ k ∈ [FrameKind.data, .status, .ident, .ref] ∨
      st = .draining ∧ k ∈ [FrameKind.data, .status, .ref] := by
  cases st <;> cases k <;> decide

/-! ## Destinations (R80, R81) -/

/-- R80, R81: a destination that names no port but the source. -/
def State.badDest (s : State) (i : Slot) (d : Nat) : Prop :=
  d = i.val + 1 ∨ 13 ≤ d ∧ d < 16 ∨ 80 ≤ d ∧ d < 127 ∨
    ∃ k : Fin 64, d = 16 + k.val ∧ ((vget s.sw.groups k).enabled = false ∨
      ∀ x : Fin 13, (vget s.sw.groups k).members.getLsbD x.val = true → x = portOf i)

theorem State.decodeDest_group (s : State) (src : Nat) (k : Fin 64) : s.decodeDest src (16 + k.val) =
    if !(vget s.sw.groups k).enabled ||
        (allPorts.filter (fun p => (vget s.sw.groups k).members.getLsbD p.val && p.val ≠ src)).isEmpty then .bad
    else .ports (allPorts.filter (fun p => (vget s.sw.groups k).members.getLsbD p.val && p.val ≠ src)) := by
  have hk : (⟨16 + k.val - 16, by omega⟩ : Fin 64) = k := Fin.ext (Nat.add_sub_cancel_left ..)
  unfold State.decodeDest
  rw [dif_neg (by omega), dif_pos ⟨by omega, by omega⟩]
  dsimp only
  rw [hk]

theorem ne_source : (decide (x.val ≠ i.val + 1)) = (x != portOf i) := by
  rw [Bool.eq_iff_iff, decide_eq_true_eq, bne_iff_ne]
  exact not_congr ⟨fun h => Fin.ext h, fun h => congrArg Fin.val h⟩

theorem State.decodeDest_bad (h : s.badDest i d) : s.decodeDest (i.val + 1) d = .bad := by
  obtain h | h | h | ⟨k, rfl, h⟩ := h
  · unfold State.decodeDest
    rw [dif_pos (by omega), if_pos h]
  · unfold State.decodeDest
    rw [dif_neg (by omega), dif_neg (by omega), if_neg (by omega)]
  · unfold State.decodeDest
    rw [dif_neg (by omega), dif_neg (by omega), if_neg (by omega)]
  · rw [State.decodeDest_group]
    refine if_pos ?_
    rw [Bool.or_eq_true, List.isEmpty_iff, List.filter_eq_nil_iff]
    refine h.imp (fun h => by rw [h]; rfl) fun h x _ => ?_
    rw [ne_source, Bool.and_eq_true]
    rintro ⟨hm, hx⟩
    exact absurd (h x hm) (bne_iff_ne.mp hx)

theorem State.decodeDest_noneServing (h : ∀ j, j ≠ i → (s.slot j).serving = false) :
    s.decodeDest (i.val + 1) 127 = .noneServing := by
  unfold State.decodeDest
  rw [dif_neg (by omega), dif_neg (by omega), if_pos rfl]
  refine if_pos ?_
  rw [List.isEmpty_iff, List.filter_eq_nil_iff]
  intro x _
  rw [ne_source, Bool.and_eq_true]
  rintro ⟨hs, hx⟩
  obtain rfl | ⟨j, rfl⟩ := port_cases x
  · cases hs
  · unfold State.servingPort at hs
    rw [slotOf_portOf] at hs
    dsimp only at hs
    rw [h j fun hj => bne_iff_ne.mp hx (hj ▸ rfl)] at hs
    cases hs

/-- R80, R81: the candidate ports of a destination. -/
theorem State.decodeDest_ports (h : d = 0 ∧ ps = [0] ∨ (∃ j : Slot, j ≠ i ∧ d = j.val + 1 ∧ ps = [portOf j]) ∨
      (∃ k : Fin 64, d = 16 + k.val ∧ (vget s.sw.groups k).enabled = true ∧
        ps = allPorts.filter (fun x => (vget s.sw.groups k).members.getLsbD x.val && x != portOf i)) ∨
      (d = 127 ∧ ps = allPorts.filter (fun x => s.servingPort x && x != portOf i))) (hne : ps ≠ []) :
    s.decodeDest (i.val + 1) d = .ports ps ∧ ps.Nodup ∧ portOf i ∉ ps := by
  have hnd : allPorts.Nodup := List.nodup_finRange 13
  have hno (f : Fin 13 → Bool) : portOf i ∉ allPorts.filter (fun x => f x && x != portOf i) := fun hm => by
    have := (List.mem_filter.mp hm).2
    simp at this
  obtain ⟨rfl, rfl⟩ | ⟨j, hj, rfl, rfl⟩ | ⟨k, rfl, hen, hps⟩ | ⟨rfl, hps⟩ := h
  · refine ⟨rfl, List.nodup_singleton _, fun h => portOf_ne_zero i (List.mem_singleton.mp h)⟩
  · refine ⟨State.decodeDest_slot fun h => hj (Fin.ext (by omega)), List.nodup_singleton _, fun h => hj (portOf_inj (List.mem_singleton.mp h)).symm⟩
  · refine ⟨?_, hps ▸ hnd.filter _, hps ▸ hno _⟩
    rw [State.decodeDest_group]
    simp only [ne_source]
    rw [← hps, hen]
    exact if_neg (by simpa using hne)
  · refine ⟨?_, hps ▸ hnd.filter _, hps ▸ hno _⟩
    unfold State.decodeDest
    rw [dif_neg (by omega), dif_neg (by omega), if_pos rfl]
    dsimp only
    simp only [ne_source]
    rw [← hps]
    exact if_neg (by simpa using hne)

section
variable {header payload : List Byte}

/-- The counters of a port replaced. -/
def State.countersAt (s : State) (x : Fin 13) (k : PortCounters) : State :=
  { s with sw := { s.sw with counters := vset s.sw.counters x k } }

/-- R94: a port's counters with a frame counted in. -/
def State.countedIn (s : State) (i : Slot) : PortCounters :=
  { vget s.sw.counters (portOf i) with framesIn := min ((vget s.sw.counters (portOf i)).framesIn + 1) 4294967295 }

theorem State.takeCardFrame_bad (h : s.decodeDest (i.val + 1) (hdrDestination header) = .bad) :
    s.takeCardFrame i header payload = s.countersAt (portOf i)
      { vget s.sw.counters (portOf i) with
        framesIn := min ((vget s.sw.counters (portOf i)).framesIn + 1) 4294967295
        badDestination := min ((vget s.sw.counters (portOf i)).badDestination + 1) 4294967295 } := by
  unfold State.takeCardFrame State.verdict
  dsimp only
  rw [h]
  dsimp only
  unfold State.bump SwitchCore.bump
  dsimp only
  rw [vset_vset, vget_vset_self]
  rfl

theorem State.takeCardFrame_noneServing (h : s.decodeDest (i.val + 1) (hdrDestination header) = .noneServing) :
    s.takeCardFrame i header payload = s.countersAt (portOf i)
      { vget s.sw.counters (portOf i) with
        framesIn := min ((vget s.sw.counters (portOf i)).framesIn + 1) 4294967295
        notServing := min ((vget s.sw.counters (portOf i)).notServing + 1) 4294967295 } := by
  unfold State.takeCardFrame State.verdict
  dsimp only
  rw [h]
  dsimp only
  unfold State.bump SwitchCore.bump
  dsimp only
  rw [vset_vset, vget_vset_self]
  rfl

/-- R82, R83: a frame for one slot that is lost there. -/
theorem State.takeCardFrame_lost {l : Loss} (hj : j ≠ i)
    (hv : s.verdict (i.val + 1) (hdrDestination header) (hdrClass header) (blocksFor payload.length) = .placed [] [(portOf j, l)]) :
    s.takeCardFrame i header payload = { s with
      sw := { s.sw with counters := vset (vset s.sw.counters (portOf i) (s.countedIn i)) (portOf j) ((vget s.sw.counters (portOf j)).lose l) }
      alarm := if l = .queueFull then
          { s.alarm with marks := { s.alarm.marks with queueDrop := vset s.alarm.marks.queueDrop (portOf j) true } }
        else s.alarm } := by
  have hne : portOf i ≠ portOf j := fun h => hj (portOf_inj h).symm
  have hget : vget (vset s.sw.counters (portOf i) (vget s.sw.counters (portOf i)).countIn) (portOf j) =
      vget s.sw.counters (portOf j) := vget_vset_ne _ _ hne
  unfold State.takeCardFrame
  dsimp only
  rw [hv]
  dsimp only
  unfold State.countLosses State.countLoss State.bump SwitchCore.bump
  simp only [List.foldl_cons, List.foldl_nil, hget]
  cases l <;> rfl

theorem State.takeCardFrame_poolEmpty_slot
    (hv : s.verdict (i.val + 1) (hdrDestination header) (hdrClass header) (blocksFor payload.length) = .poolEmpty []) :
    s.takeCardFrame i header payload = s.countersAt (portOf i)
      { vget s.sw.counters (portOf i) with
        framesIn := min ((vget s.sw.counters (portOf i)).framesIn + 1) 4294967295
        poolEmpty := min ((vget s.sw.counters (portOf i)).poolEmpty + 1) 4294967295 } := by
  unfold State.takeCardFrame
  dsimp only
  rw [hv]
  dsimp only
  unfold State.countLosses State.bump SwitchCore.bump
  simp only [List.foldl_nil, vset_vset, vget_vset_self]
  rfl

/-- R79, R83: a frame for port 0. -/
theorem State.takeCardFrame_port0 (hd : hdrDestination header = 0) (hr : s.ring.state = .running)
    (hf : blocksFor payload.length ≤ s.sw.free) (hroom : s.sw.occupancy s.sw.queue0 + blocksFor payload.length ≤ s.sm.q0Limit) :
    (s.takeCardFrame i header payload).apart = ({ s with sw := { s.sw with
      counters := vset s.sw.counters (portOf i) (s.countedIn i)
      free := s.sw.free - blocksFor payload.length
      stored := s.sw.stored ++ [⟨s.sw.nextId, header, payload, blocksFor payload.length, 1, false⟩]
      nextId := s.sw.nextId + 1
      queue0 := { s.sw.queue0 with frames := s.sw.queue0.frames ++ [s.sw.nextId] } } } : State).apart := by
  have hgate : s.gateLoss (hdrClass header) 0 = none := if_pos hr
  have hroom' : s.hasRoom (hdrClass header) (blocksFor payload.length) 0 = true := decide_eq_true hroom
  have hv : s.verdict (i.val + 1) (hdrDestination header) (hdrClass header) (blocksFor payload.length) = .placed [0] [] := by
    unfold State.verdict
    rw [hd]
    have : s.decodeDest (i.val + 1) 0 = .ports [0] := rfl
    rw [this]
    simp [hgate, hroom', Nat.not_lt.mpr hf]
  unfold State.takeCardFrame
  dsimp only
  rw [hv]
  rfl

end

end Sys2Proof.Machine
end

section
/-! SUPPORT. The settling of O42. -/

namespace Sys2Proof.Machine

open Sys2Proof

variable {s t u v : State} {i j : Slot} {p : Plane} {c : Cls} {bs : List Byte} {b : Nat} {ps : List (Fin 13)}
  {x : Fin 13} {g g0 : Staging}

/-! ## What a port says of a frame (R80, R82, R83) -/

/-- R80: is the port closed to frames? -/
def State.shutAt (s : State) (x : Fin 13) : Bool := if x = 0 then s.ring.state != .running else !s.servingPort x

/-- R82: does the port's time gate fail the quality? -/
def State.gatedAt (s : State) (c : Cls) (x : Fin 13) : Bool :=
  match slotOf x.val with
  | some j => c == .timed && decide ((s.slot j).cfg.gate < s.sw.quality)
  | none => false

theorem State.gatedAt_zero (s : State) (c : Cls) : s.gatedAt c 0 = false := rfl

theorem State.gatedAt_slot (s : State) (c : Cls) (j : Slot) :
    s.gatedAt c (portOf j) = (c == .timed && decide ((s.slot j).cfg.gate < s.sw.quality)) := by
  unfold State.gatedAt
  rw [slotOf_portOf]

theorem State.shutAt_slot (s : State) (j : Slot) : s.shutAt (portOf j) = !(s.slot j).serving := by
  unfold State.shutAt State.servingPort
  rw [if_neg (portOf_ne_zero j), slotOf_portOf]

theorem State.gateLoss_eq (s : State) (c : Cls) (x : Fin 13) : s.gateLoss c x =
    if s.shutAt x then some (if x = 0 then .portClosed else .notServing)
    else if s.gatedAt c x then some .timeGated else none := by
  obtain rfl | ⟨j, rfl⟩ := port_cases x
  · rw [s.gatedAt_zero]
    have hgl : s.gateLoss c 0 = if s.ring.state = .running then none else some .portClosed := rfl
    have hsh : s.shutAt 0 = (s.ring.state != .running) := rfl
    rw [hgl, hsh]
    by_cases h : s.ring.state = .running
    · simp [h]
    · simp [h]
  · rw [State.gateLoss_slot, s.gatedAt_slot, s.shutAt_slot, if_neg (portOf_ne_zero j)]
    cases (s.slot j).serving
    · rfl
    · by_cases h : c = .timed ∧ (s.slot j).cfg.gate < s.sw.quality
      · simp [h.1, h.2]
      · rw [if_neg (by decide), if_neg h, if_neg (by decide), if_neg (by simpa using h)]

theorem State.goesTo_eq (s : State) (c : Cls) (b : Nat) (x : Fin 13) :
    s.goesTo c b x = (!s.shutAt x && !s.gatedAt c x && s.hasRoom c b x) := by
  unfold State.goesTo
  rw [State.gateLoss_eq]
  cases s.shutAt x <;> cases s.gatedAt c x <;> rfl

theorem State.fullLoss_eq (s : State) (c : Cls) (b : Nat) (x : Fin 13) : s.fullLoss c b x =
    if !s.shutAt x && !s.gatedAt c x && !s.hasRoom c b x then some .queueFull else none := by
  unfold State.fullLoss
  rw [State.gateLoss_eq]
  cases s.shutAt x <;> cases s.gatedAt c x <;> rfl

/-! ## O42 -/

/-- Settles O42: starts by `Staging.feed_begin`, ends by the judgement of the frame, DATA frames by the switch core's decision. -/
theorem framesReceived : Obligations.FramesReceived := by
  unfold Obligations.FramesReceived
  refine ⟨fun i p bs s hq => ?_, fun i p bs s hq => ?_⟩
  · have row {x : State} (hx : (s.frameStart i p bs).apart = x) :
        ∃ t, exec (.frameStartReceived i p bs) s = .next t ∧ t.apart = x := work_apart hq (by simp) hx
    refine ⟨fun h => row ?_, fun h => row ?_⟩
    · unfold State.frameStart
      exact congrArg State.apart (if_neg h)
    · unfold State.frameStart
      dsimp only
      rw [if_pos h, Staging.feed_begin]
      cases (s.lane i p).staging <;> rfl
  · have row {x : State} (hx : (s.frameEnd i p bs).apart = x) :
        ∃ t, exec (.frameEndReceived i p bs) s = .next t ∧ t.apart = x := work_apart hq (by simp) hx
    refine ⟨fun hst => ?_, fun g0 hst => ?_⟩
    · have hover : s.frameEnd i p bs = s.overtakenEnd i p bs := by
        unfold State.frameEnd
        dsimp only
        rw [hst]
      refine ⟨fun ho => row ?_, fun o ho => ⟨fun hno => row ?_, fun hosc hflt hk hfits hent => ?_⟩⟩
      · rw [hover]
        unfold State.overtakenEnd
        rw [ho]
      · rw [hover]
        unfold State.overtakenEnd
        rw [ho]
        dsimp only
        rw [if_neg (by tauto)]
      · intro cs counted
        refine row ?_
        have hj : (s.setLane i p { s.lane i p with overtaken := none }).judgeFrame i (o.buffer.feed bs) = .error .notAdmitted := by
          refine State.judgeFrame_notAdmitted (by exact hfits) fun k _ => ?_
          have hs : ((s.setLane i p { s.lane i p with overtaken := none }).slot i).state = .faulted := hflt
          rw [hs]
          rfl
        rw [hover]
        unfold State.overtakenEnd
        rw [ho]
        dsimp only
        rw [if_pos ⟨hosc, hflt, hk⟩, hj]
        dsimp only
        rw [State.discardFrame_idle (by exact hent)]
        rfl
    · intro g port cs st ends counted linkError whole fits takes
      refine ⟨fun hent => ?_, fun hfits hk hstate => ?_⟩
      · have discards {d : Discard}
            (hj : (s.setLane i p { s.lane i p with staging := none }).judgeFrame i g = .error d) {w : SwitchCore} {a : AlarmUnit}
            (hw : w = counted (cs.discard d)) (ha : a = if d = .check ∨ d = .overlength then linkError else s.alarm) : ends w a := by
          refine row ?_
          rw [State.frameEnd_discarded hst hj, State.discardFrame_idle (by exact hent), hw, ha]
          rfl
        have hlen : (s.setLane i p { s.lane i p with staging := none }).lengthOk i (hdrLength g.kept) = true ↔ fits := State.lengthOk_iff
        refine ⟨fun hw => discards (State.judgeFrame_check hw) rfl rfl, fun hw hno => ?_, fun hw hf hsrc => ?_, fun hf hno => ?_⟩
        · exact discards (State.judgeFrame_overlength (Staging.whole_iff.mpr hw) (Bool.eq_false_iff.mpr fun h => hno (hlen.mp h))) rfl rfl
        · exact discards (State.judgeFrame_spoofed (Staging.whole_iff.mpr hw) (hlen.mpr hf) hsrc) rfl rfl
        · refine discards (State.judgeFrame_notAdmitted (by exact hf) fun k hk => ?_) rfl rfl
          rw [Bool.eq_false_iff, Ne, Bool.and_eq_true]
          exact fun h => hno k hk ⟨SlotState.accepts_iff.mp h.1, h.2⟩
      · intro h d q b c1 frame limit opens busy
        have hframe : s.frameEnd i p bs = (s.setLane i p { s.lane i p with staging := none }).takeCardFrame i h g.payload :=
          State.frameEnd_accepted hst hfits hk (SlotState.accepts_iff.mpr (.inr (hstate.imp (⟨·, by decide⟩) (⟨·, by decide⟩)))) rfl
        have hlanes := s.setLane_unstaged i p
        obtain ⟨u, hu⟩ : ∃ u, u = s.setLane i p { s.lane i p with staging := none } := ⟨_, rfl⟩
        have hends {w : SwitchCore} {a : AlarmUnit} (hy : (u.takeCardFrame i h g.payload).apart = ({ u with sw := w, alarm := a } : State).apart) :
            ends w a := by
          refine row ?_
          rw [hframe, ← hu, hy, hu]
        have husw : u.sw = s.sw := by rw [hu]; rfl
        have husm : u.sm = s.sm := by rw [hu]; rfl
        have huring : u.ring = s.ring := by rw [hu]; rfl
        have hualarm : u.alarm = s.alarm := by rw [hu]; rfl
        have huslot (j : Slot) : u.slot j = s.slot j := by rw [hu]; rfl
        rw [← hu] at hlanes
        clear_value h
        refine ⟨fun hbad => hends ?_, fun hd hno => hends ?_, fun hd hr hf hroom => hends ?_, fun j hd hj => ?_, fun ps hps hne => ?_⟩
        · rw [State.takeCardFrame_bad (State.decodeDest_bad (by
            unfold State.badDest
            rw [husw]
            exact hbad))]
          unfold State.countersAt
          rw [husw, ← hualarm]
        · rw [State.takeCardFrame_noneServing (by
            have : hdrDestination h = 127 := hd
            rw [this]
            exact State.decodeDest_noneServing fun j hj => by rw [huslot]; exact hno j hj)]
          unfold State.countersAt
          rw [husw, ← hualarm]
        · rw [State.takeCardFrame_port0 hd (by rw [huring]; exact hr) (by rw [husw]; exact hf) (by rw [husw, husm]; exact hroom)]
          unfold State.countedIn
          rw [husw, ← hualarm]
        · intro lost
          have hne : i.val + 1 ≠ j.val + 1 := fun h => hj (Fin.ext (by omega))
          have hd' : hdrDestination h = j.val + 1 := hd
          have hverdict := State.verdict_slot (s := u) (c := q) (b := b) hne
          have hroom : u.hasRoom q b (portOf j) = decide (s.sw.occupancy (s.sw.queue j q) + b ≤ limit j) := by
            rw [State.hasRoom_slot, husw, huslot]
          have hopen (h : opens j) : u.gateLoss q (portOf j) = none := State.gateLoss_open (by rw [huslot]; exact h.1) fun hq => by
            rw [husw, huslot]
            exact h.2 hq
          have hlost {l : Loss} {a : AlarmUnit} (hv : u.verdict (i.val + 1) (j.val + 1) q b = .placed [] [(portOf j, l)])
              (ha : a = if l = .queueFull then { s.alarm with marks := { s.alarm.marks with queueDrop := vset s.alarm.marks.queueDrop (portOf j) true } } else s.alarm) :
              ends (lost (·.lose l)) a := by
            refine hends ?_
            rw [State.takeCardFrame_lost hj (by rw [hd']; exact hv), ha]
            unfold State.countedIn
            rw [husw, hualarm]
          refine ⟨fun hs => ?_, fun hs hq hg => ?_, fun ho hf => hends ?_, fun ho hf hl => ?_⟩
          · exact hlost (l := .notServing) (State.verdict_closed hne (by rw [huslot]; exact hs)) rfl
          · refine hlost (l := .timeGated) ?_ rfl
            rw [hverdict, State.gateLoss_slot, huslot, husw, if_neg (by rw [hs]; exact Bool.noConfusion), if_pos ⟨hq, hg⟩]
          · have hv : u.verdict (i.val + 1) (hdrDestination h) (hdrClass h) (blocksFor g.payload.length) = .poolEmpty [] := by
              rw [hd']
              refine hverdict.trans ?_
              rw [hopen ho]
              exact if_pos (by rw [husw]; exact hf)
            rw [State.takeCardFrame_poolEmpty_slot hv]
            unfold State.countersAt
            rw [husw, ← hualarm]
          · refine hlost (l := .queueFull) ?_ rfl
            rw [hverdict, hopen ho]
            dsimp only
            rw [if_neg (by rw [husw]; omega), hroom, decide_eq_false (by omega)]
            rfl
        · intro names shut gated room goes full lost
          obtain ⟨hdec, hnd, hnot⟩ := State.decodeDest_ports (s := u) (i := i) (d := d) (ps := ps) (by
            rw [husw]
            have hserv : u.servingPort = s.servingPort := by rw [hu]; rfl
            rw [hserv]
            exact hps) hne
          have hnames (x : Fin 13) : names x = true ↔ x ∈ ps := List.contains_iff_mem
          have hshut (x : Fin 13) : u.shutAt x = shut x := by rw [hu]; rfl
          have hgated (x : Fin 13) : u.gatedAt q x = gated x := by rw [hu]; rfl
          have hroom (x : Fin 13) : u.hasRoom q b x = room x := by
            obtain rfl | ⟨j, rfl⟩ := port_cases x
            · rw [hu]
              rfl
            · have hr : room (portOf j) = decide (s.sw.occupancy (s.sw.queue j q) + b ≤ limit j) := by
                unfold room
                rw [slotOf_portOf]
              rw [State.hasRoom_slot, husw, huslot, hr]
          have hgoes {x : Fin 13} (hx : x ∈ ps) : u.goesTo q b x = goes x := by
            unfold goes
            rw [State.goesTo_eq, hshut, hgated, hroom, (hnames x).mpr hx, Bool.true_and]
          have hfull {x : Fin 13} (hx : x ∈ ps) : u.fullLoss q b x = if full x then some .queueFull else none := by
            unfold full
            rw [State.fullLoss_eq, hshut, hgated, hroom, (hnames x).mpr hx, Bool.true_and]
          have hlost {x : Fin 13} (hx : x ∈ ps) (k : PortCounters) : k.loses (u.gateLoss q x) = lost x k := by
            unfold lost
            rw [State.gateLoss_eq, hshut, hgated, (hnames x).mpr hx]
            cases shut x
            · cases gated x <;> rfl
            · by_cases h0 : x = 0
              · rw [if_pos rfl, if_pos h0]
                exact (if_pos h0).symm
              · rw [if_pos rfl, if_neg h0]
                exact (if_neg h0).symm
          have hno {x : Fin 13} (hx : x ∉ ps) : names x = false := Bool.eq_false_iff.mpr fun h => hx ((hnames x).mp h)
          have hkept {x : Fin 13} (hx : x ∉ ps) (k : PortCounters) : lost x k = k := by
            unfold lost
            rw [hno hx]
            rfl
          have hgate {x : Fin 13} : u.gateLoss q x = none ↔ shut x = false ∧ gated x = false := by
            rw [State.gateLoss_eq, hshut, hgated]
            cases shut x <;> cases gated x <;> simp
          refine ⟨fun hfree ⟨y, hy, hopen⟩ => hends ?_, fun hfree hbusy => ?_⟩
          · rw [State.takeCardFrame_poolEmpty hdec hnd hnot ⟨y, hy, hgate.mpr hopen⟩ (by rw [husw]; exact hfree), ← hualarm, husw]
            refine congrArg (fun f => ({ u with sw := { s.sw with counters := Vector.ofFn f } } : State).apart) (funext fun x => ?_)
            refine if_congr Iff.rfl rfl ?_
            unfold State.gatedCounts
            rw [husw]
            split
            · exact hlost ‹_› _
            · exact (hkept ‹_› _).symm
          · intro w n append
            refine hends ?_
            have hin (x : Fin 13) : x ∈ ps.filter goes ↔ goes x = true := by
              rw [List.mem_filter]
              refine ⟨And.right, fun h => ⟨(hnames x).mp ?_, h⟩⟩
              unfold goes at h
              rw [Bool.and_eq_true, Bool.and_eq_true, Bool.and_eq_true] at h
              exact h.1.1.1
            have hcounts : u.decided i q b ps = w := by
              unfold State.decided
              rw [husw]
              refine congrArg (fun f => ({ s.sw with counters := Vector.ofFn f } : SwitchCore)) (funext fun x => ?_)
              refine if_congr Iff.rfl rfl ?_
              unfold State.lostCounts
              rw [husw]
              split
              · rename_i hx
                rw [hfull hx, hlost hx]
                cases hf : full x
                · rfl
                · have hopen : shut x = false ∧ gated x = false := by
                    unfold full at hf
                    revert hf
                    cases shut x <;> cases gated x <;> simp
                  unfold lost
                  rw [hopen.1, hopen.2, Bool.and_false]
                  rfl
              · rename_i hx
                have hf : full x = false := by
                  unfold full
                  rw [hno hx]
                  rfl
                rw [hf, hkept hx]
                rfl
            have hdrops : u.dropsMarked q b ps = { s.alarm with marks := { s.alarm.marks with
                queueDrop := Vector.ofFn (fun x : Fin 13 => full x || vget s.alarm.marks.queueDrop x) } } := by
              unfold State.dropsMarked
              rw [hualarm]
              refine congrArg (fun f => ({ s.alarm with marks := { s.alarm.marks with queueDrop := Vector.ofFn f } } : AlarmUnit))
                (funext fun x => congrArg (· || vget s.alarm.marks.queueDrop x) ?_)
              rw [Bool.eq_iff_iff, decide_eq_true_eq]
              refine ⟨fun ⟨hx, h⟩ => ?_, fun h => ?_⟩
              · rw [hfull hx] at h
                by_contra hf
                rw [if_neg hf] at h
                cases h
              · have hx : x ∈ ps := by
                  by_contra hx
                  unfold full at h
                  rw [hno hx] at h
                  cases h
                exact ⟨hx, by rw [hfull hx, h]; rfl⟩
            have hheld : w.holding q h g.payload (ps.filter goes) = { w with
                free := s.sw.free - b, stored := s.sw.stored ++ [frame n], nextId := s.sw.nextId + 1
                queue0 := if goes 0 then append s.sw.queue0 else s.sw.queue0
                queues := Vector.ofFn (fun j : Fin 12 => if goes (portOf j)
                  then (vget s.sw.queues j).set q (append (s.sw.queue j q)) else vget s.sw.queues j) } := by
              unfold SwitchCore.holding
              simp only [hin]
              rfl
            have hplaced := State.takeCardFrame_placed (s := u) (header := h) (payload := g.payload) hdec hnd hnot
              (hfree.imp (fun hb => by rw [husw]; exact hb) fun hall x hx hn => ?_)
              (List.filter_congr (q := goes) fun x hx => hgoes hx) (fun j hj y => by
                rw [(hlanes j y).1, (hlanes j y).2]
                exact hbusy j ((hin _).mp hj) y)
            · rw [hplaced]
              have hcounts' : u.decided i (hdrClass h) (blocksFor g.payload.length) ps = w := hcounts
              have hdrops' : u.dropsMarked (hdrClass h) (blocksFor g.payload.length) ps = _ := hdrops
              have hheld' : w.holding (hdrClass h) h g.payload (ps.filter goes) = _ := hheld
              rw [hcounts', hdrops', hheld']
            · obtain ⟨h1, h2⟩ := hgate.mp hn
              exact (hall x hx).elim (by rw [h1]; exact Bool.noConfusion) (by rw [h2]; exact Bool.noConfusion)

end Sys2Proof.Machine
end

section
/-! SUPPORT. Transfers of the command unit: the setup block (O31). -/

namespace Sys2Proof.Machine

open Sys2Proof

variable {s t u v : State} {i : Slot} {a : Addr} {w : Word} {b : Setup} {x y z : Zone} {m : LoadMode}

/-! ## Zones (R4, R29) -/

theorem Zone.not_overlaps (h : z.overlaps x.base x.len = false) (k : Nat) : ¬ (z.has k = true ∧ x.has k = true) := by
  unfold Zone.has Zone.overlaps at *
  simp only [Bool.and_eq_true, Bool.and_eq_false_iff, decide_eq_true_eq, decide_eq_false_iff_not] at *
  omega

/-- R29: the zones that pass the checks in order, after some others. -/
theorem zonesFail_none {before : List Zone} {l : List (Nat × Zone)} (h : zonesFail before l = none) :
    (∀ z ∈ l.map Prod.snd, z.base + z.len ≤ Config.memoryWords ∧ controlZone.overlaps z.base z.len = false ∧
      ∀ x ∈ before, x.overlaps z.base z.len = false) ∧
    (l.map Prod.snd).Pairwise fun x y => x.overlaps y.base y.len = false := by
  induction l generalizing before with
  | nil => exact ⟨nofun, List.Pairwise.nil⟩
  | cons c rest ih =>
    obtain ⟨n, z⟩ := c
    unfold zonesFail at h
    split at h
    · rename_i hc
      simp only [Bool.and_eq_true, Bool.not_eq_true', decide_eq_true_eq, List.any_eq_false, Bool.not_eq_true] at hc
      obtain ⟨⟨hend, hcontrol⟩, hbefore⟩ := hc
      obtain ⟨hall, hpair⟩ := ih h
      rw [List.map_cons]
      refine ⟨fun y hy => ?_, List.pairwise_cons.mpr ⟨fun y hy => (hall y hy).2.2 z (List.mem_cons_self ..), hpair⟩⟩
      obtain rfl | hy := List.mem_cons.mp hy
      · exact ⟨hend, hcontrol, hbefore⟩
      · obtain ⟨h1, h2, h3⟩ := hall y hy
        exact ⟨h1, h2, fun x hx => h3 x (List.mem_cons_of_mem _ hx)⟩
    · cases h

theorem Setup.zones_of_valid (h : b.fail = none) :
    (∀ z ∈ b.zones.toList, z.base + z.len ≤ 0x100000 ∧ controlZone.overlaps z.base z.len = false) ∧
      b.zones.toList.Pairwise fun x y => x.overlaps y.base y.len = false := by
  unfold Setup.fail at h
  split at h
  · cases h
  · obtain ⟨hall, hpair⟩ := zonesFail_none h
    exact ⟨fun z hz => ⟨(hall z hz).1, (hall z hz).2.1⟩, hpair⟩

theorem Zone.below_control (hend : z.base + z.len ≤ 0x100000) (hc : controlZone.overlaps z.base z.len = false) {k : Nat}
    (hk : z.has k = true) : k < 0xFFF00 := by
  have hb : controlZone.base = 0xFFF00 := rfl
  have hl : controlZone.len = 256 := rfl
  unfold Zone.has at hk
  unfold Zone.overlaps at hc
  rw [hb, hl] at hc
  simp only [Bool.and_eq_true, Bool.and_eq_false_iff, decide_eq_true_eq, decide_eq_false_iff_not] at *
  omega

/-! ## The end of LOAD_SETUP with an invalid setup (R29, R30) -/

/-- The hub state that LOAD_SETUP came from. -/
def LoadMode.back : LoadMode → HubState
  | .load => .unconfigured
  | .adopt => .carrying

theorem State.loadFails_apart (hs : ∀ i, (u.slot i).state ≠ .seated ∨ m.back.allowsPowering = false) (item : FailItem) :
    (u.loadFails m item).apart = ({ u with
      path := { u.path with zones := none }
      cmd := { u.cmd with setup := none, hub := m.back, collection := .idle, transfer := none
                          record := { u.cmd.record with lastCode := Command.loadSetup.code, result := .setupInvalid, fail := item, clamped := false,
                                                        done := u.cmd.record.accepted } }
      alarm := u.alarm.judged (m = .adopt) } : State).apart := by
  have hback : (u.loadFails m item) = (State.setHub (State.emptyZones { u with cmd := { u.cmd with setup := none } }) m.back).finish
      Command.loadSetup.code .setupInvalid item false := by
    unfold State.loadFails
    cases m <;> rfl
  have hhub := State.setHub_still (u := State.emptyZones { u with cmd := { u.cmd with setup := none } }) (h := m.back)
    fun i => (hs i).imp_right .inl
  rw [hback, State.finish_apart, hhub]
  cases m <;> rfl

/-! ## Words of a transfer -/

theorem State.complete_transfer_read (hh : s.path.holder = some (.word ⟨.command, .transfer, .read a⟩)) :
    s.complete = s.release.transferDone (Memory.readWord s.mem a) := State.complete_word hh

theorem State.complete_transfer_write (hh : s.path.holder = some (.word ⟨.command, .transfer, .write a w⟩)) :
    s.complete = ({ s.release with mem := Memory.writeWord s.mem a w allBytes } : State).transferDone 0 := State.complete_word hh

/-- Settles O31: the zone checks by `zonesFail_none`; the last word read by the verdict on the block. -/
theorem setupBlockRead : Obligations.SetupBlockRead := by
  unfold Obligations.SetupBlockRead
  refine ⟨fun b h => ?_, ?_⟩
  · obtain ⟨hall, hpair⟩ := Setup.zones_of_valid h
    exact ⟨fun z hz => ⟨(hall z hz).1, fun k hk => Zone.below_control (hall z hz).1 (hall z hz).2 hk⟩,
      hpair.imp fun hxy => Zone.not_overlaps hxy⟩
  · intro m addr got a s hq hh ht hlen hhub b
    have hlast : setupLast s ⟨.command, .transfer, .read a⟩ = true := by
      unfold setupLast
      rw [ht]
      dsimp only
      rw [hlen]
      rfl
    have row {x : State} (hx : (s.release.setupRead (got ++ [Memory.readWord s.mem a])).apart = x) :
        ∃ t, exec .setupBlockReadDone s = .next t ∧ t.apart = x := by
      refine awaited_apart hq hh hlast ?_
      have ht' : s.release.cmd.transfer = some (.setup addr got) := ht
      rw [State.complete_transfer_read hh]
      unfold State.transferDone
      rw [ht']
      dsimp only
      rw [if_neg (by omega)]
      exact hx
    have hhub' : s.release.cmd.hub = .loading m := hhub
    refine ⟨fun hb => row ?_, fun n hb hs => row ?_⟩
    · have hb' : (Setup.ofWords (got ++ [Memory.readWord s.mem a])).fail = none := hb
      unfold State.setupRead
      dsimp only
      rw [hb', hhub']
      dsimp only
      rw [← hhub]
      cases m <;> rfl
    · have hb' : (Setup.ofWords (got ++ [Memory.readWord s.mem a])).fail = some n := hb
      have hf : s.release.setupRead (got ++ [Memory.readWord s.mem a]) = s.release.loadFails m ⟨n, 0⟩ := by
        unfold State.setupRead
        dsimp only
        rw [hb', hhub']
      rw [hf, State.loadFails_apart (u := s.release) fun i => .inl (by exact hs i)]
      cases m <;> rfl

end Sys2Proof.Machine
end

section
/-! SUPPORT. Transfers of the command unit: the images of a LOAD (O34). -/

namespace Sys2Proof.Machine

open Sys2Proof

variable {s t u v : State} {i : Slot} {a : Addr} {w : Word} {n : Nat} {all done : List (List Word)} {got : List Word} {k : Table}

/-! ## Tables written entry by entry -/

theorem foldl_vset {α : Type} {n : Nat} (f : Fin n → α) (x : Vector α n) :
    (List.finRange n).foldl (fun v k => vset v k (f k)) x = Vector.ofFn f := by
  have hfold (l : List (Fin n)) (v : Vector α n) (j : Fin n) :
      vget (l.foldl (fun v k => vset v k (f k)) v) j = if j ∈ l then f j else vget v j := by
    induction l generalizing v with
    | nil => rfl
    | cons k l ih =>
      rw [List.foldl_cons, ih]
      by_cases hj : j = k
      · subst hj
        rw [vget_vset_self, if_pos (List.mem_cons_self ..), ite_self]
      · rw [vget_vset_ne _ _ (Ne.symm hj)]
        simp only [List.mem_cons, hj, false_or]
  refine Vector.ext fun k hk => ?_
  rw [Vector.getElem_ofFn]
  exact (hfold _ x ⟨k, hk⟩).trans (if_pos (List.mem_finRange _))

/-- The alarm points replaced one after another. -/
theorem State.putPoints_apart (f : Fin 64 → Point) (s : State) :
    ((List.finRange 64).foldl (fun s k => s.putPoint k (f k)) s).apart =
      ({ s with alarm := { s.alarm with points := Vector.ofFn f } } : State).apart := by
  have hfold (l : List (Fin 64)) (u : State) : (l.foldl (fun s k => s.putPoint k (f k)) u).apart =
      ({ u with alarm := { u.alarm with points := l.foldl (fun v k => vset v k (f k)) u.alarm.points } } : State).apart := by
    induction l generalizing u with
    | nil => rfl
    | cons k l ih =>
      rw [List.foldl_cons, ih]
      rfl
  rw [hfold, foldl_vset]

/-! ## The install of a LOAD (R30) -/

/-- R30: the four tables installed, no reference entry having been qualified. -/
theorem State.installTables_apart (hr : ∀ k, (s.ref k).qualified = false) (all : List (List Word)) :
    (s.installTables all).apart = ({ s with
      sm := { s.sm with
        slots := Vector.ofFn (fun i : Fin 12 => { s.slot i with cfg := PortCfg.ofWords (all.getD (i.val + 1) []) })
        q0Limit := field ((all.getD 0 []).getD 0 0) 0 10 }
      sw := { s.sw with groups := Vector.ofFn (fun k : Fin 64 => Group.ofWords (all.getD (13 + k.val) [])) }
      alarm := { s.alarm with points := Vector.ofFn (fun k : Fin 64 =>
        { Point.cold with cfg := PointCfg.ofWords (all.getD (77 + k.val) []) }) }
      time := { s.time with refs := Vector.ofFn (fun k : Fin 4 =>
        { RefEntry.cold with cfg := RefCfg.ofWords (all.getD (141 + k.val) []) }) } } : State).apart := by
  unfold State.installTables
  extract_lets w m s1 sw s2 pc s3 time
  have hports (j : Nat) : w .port j = all.getD j [] := congrArg (fun n => all.getD n []) (Nat.zero_add j)
  have h3 : s3.apart = ({ s2 with alarm := { s2.alarm with points := Vector.ofFn (fun k : Fin 64 =>
      { Point.cold with cfg := PointCfg.ofWords (all.getD (77 + k.val) []) }) } } : State).apart := State.putPoints_apart ..
  have htime : s3.time = s.time := (congrArg State.time h3 :)
  have hput {y : TimeBase} (hy : ∀ k, (vget y.refs k).qualified = false) (h1 : y.state = s3.time.state)
      (h2 : y.beyond = s3.time.beyond) : (s3.putTime (s3.time.rejudge y)).apart = ({ s3.apart with time := y } : State) := by
    rw [TimeBase.rejudge_same fun k => by rw [hy k, htime]; exact (hr k).symm, State.putTime_same h1 h2]
  refine Eq.trans (hput ?_ ?_ ?_) ?_
  · intro k
    simp [vget, RefEntry.fresh]
  · rfl
  · rfl
  rw [h3]
  have ht : time = s.time := htime
  rw [ht]
  have hslots : s2.sm = { s.sm with
      slots := Vector.ofFn (fun i : Fin 12 => { s.slot i with cfg := PortCfg.ofWords (all.getD (i.val + 1) []) })
      q0Limit := field ((all.getD 0 []).getD 0 0) 0 10 } := by
    change ({ s.sm with
      slots := Vector.ofFn (fun i : Fin 12 => { s.slot i with cfg := PortCfg.ofWords (w .port (i.val + 1)) })
      q0Limit := field ((w .port 0).getD 0 0) 0 10 } : SlotManager) = _
    simp only [hports]
  change ({ s2 with
    sm := s2.sm
    alarm := { s2.alarm with points := Vector.ofFn (fun k : Fin 64 =>
      { Point.cold with cfg := PointCfg.ofWords (all.getD (77 + k.val) []) }) }
    time := { s.time with refs := Vector.ofFn (fun k : Fin 4 =>
      { RefEntry.cold with cfg := RefCfg.ofWords (all.getD (141 + k.val) []) }) } } : State).apart = _
  rw [hslots]
  rfl

/-! ## O34 -/

/-- Settles O34: the words of an image entry by `State.imagesRead`; the install by `State.installTables_apart`. -/
theorem loadImagesRead : Obligations.LoadImagesRead := by
  unfold Obligations.LoadImagesRead
  intro done got a s hq hh ht hhub v all
  have row {k : Table} {i : Nat} {x : State} (he : loadEntries[done.length]? = some (k, i))
      (hlen : k.cfgWords i ≤ (got ++ [v]).length) (hend : (recordFail k i (got ++ [v])).isSome = true ∨ loadEntries.length ≤ done.length + 1)
      (hx : (s.release.imagesRead done (got ++ [v])).apart = x) : ∃ t, exec .loadImagesReadDone s = .next t ∧ t.apart = x := by
    have hlast : imagesLast s ⟨.command, .transfer, .read a⟩ = true := by
      unfold imagesLast
      rw [ht]
      dsimp only
      rw [he]
      dsimp only
      rw [decide_eq_true (show k.cfgWords i ≤ (got ++ [s.answer ⟨.command, .transfer, .read a⟩]).length from hlen), Bool.true_and]
      have hor : ((recordFail k i (got ++ [v])).isSome || decide (loadEntries.length ≤ done.length + 1)) = true := by
        rw [Bool.or_eq_true, decide_eq_true_eq]
        exact hend
      exact hor
    refine awaited_apart hq hh hlast ?_
    have ht' : s.release.cmd.transfer = some (.images done got) := ht
    rw [State.complete_transfer_read hh]
    unfold State.transferDone
    rw [ht']
    exact hx
  refine ⟨fun hdone hgot hrec hrefs => ?_, fun k i n he hlen hrec => ?_⟩
  · subst hgot
    have he : loadEntries[done.length]? = some (.reference, 3) := by
      rw [hdone]
      rfl
    have hlen : loadEntries.length = 145 := rfl
    refine row he (by exact Nat.le_refl 1) (.inr (by omega)) ?_
    have himages : s.release.imagesRead done [v] = (s.release.installTables all).startTransfer (.writeback 0) := by
      unfold State.imagesRead
      rw [he]
      dsimp only
      rw [if_neg (by exact Nat.lt_irrefl 1), hrec]
      dsimp only
      exact if_neg (by rw [List.length_append, hdone, hlen]; exact Nat.lt_irrefl 145)
    have hinst := State.installTables_apart (s := s.release) hrefs all
    rw [List.nil_append, himages, State.startTransfer_apart, hinst]
    rfl
  · refine row he (by rw [List.length_append]; exact hlen.ge) (.inl (by rw [hrec]; rfl)) ?_
    have himages : s.release.imagesRead done (got ++ [v]) = s.release.loadFails .load ⟨i, k.code⟩ := by
      unfold State.imagesRead
      rw [he]
      dsimp only
      rw [if_neg (by rw [List.length_append]; exact Nat.not_lt.mpr hlen.ge), hrec]
    rw [himages, State.loadFails_apart fun i => .inr rfl]
    rfl

end Sys2Proof.Machine
end

section
/-! SUPPORT. Transfers of the command unit: the ends of a snapshot and of an entry's rewrite (O36). -/

namespace Sys2Proof.Machine

open Sys2Proof

variable {s t u v : State} {a : Addr} {w d : Word} {h : Held}

/-- A guarded access behind a GH412 word is done with at once; the free waiting places are filled. -/
theorem State.busAccess_guarded_held {be : ByteEnables} (hq : s.busQuiet) (hh : s.path.holder = some (.word h))
    (hg : (s.classed (.write a d be)).cls = .guarded) : (s.busAccess (.write a d be)) = (s.guardHit a).fill.fill := by
  have hown : s.ownHolds = false := State.ownHolds_eq_false.mpr fun c hc => by rw [hh] at hc; cases hc
  unfold State.busAccess State.busAccesses
  rw [if_pos (by rw [hh]; rfl), hq.2]
  unfold State.settle
  have hb : ({ s with path := { s.path with line := [] ++ [.write a d be] } } : State).bringAccess = s.guardHit a := by
    rw [State.bringAccess_next (s := { s with path := { s.path with line := [] ++ [.write a d be] } }) hq.1 hown]
    obtain ⟨pending, mem, path, cmd, lanes, sm, sw, ring, time, cyc, alarm, osc, draws⟩ := s
    obtain ⟨zones, holder, po, ls, gc, lg, pc, waiting, line, cdata⟩ := path
    obtain ⟨h1, h2⟩ := hq
    simp only at h1 h2
    subst h1 h2
    exact State.nextAccess_guarded hg
  rw [hb, State.arbitrate_held (by rw [State.fill_path]; exact hh ▸ rfl)]

theorem State.fill_fill_path (s : State) : s.fill.fill.path = s.path := by rw [State.fill_path, State.fill_path]

/-- The bookkeeping of the waiting places leaves the transfer. -/
theorem State.fill_transfer (s : State) : s.fill.cmd.transfer = s.cmd.transfer :=
  (congrArg (fun x : State => x.cmd.transfer) s.fill_apart :)

/-- The last word of a snapshot performed, with the clear flag. -/
theorem State.complete_snapshot_clear {x : Nat} (hh : s.path.holder = some (.word ⟨.command, .transfer, .write a d⟩))
    (ht : s.cmd.transfer = some (.snapshot x true 191)) : s.complete =
      ({ s.release with mem := Memory.writeWord s.mem a d allBytes } : State).clearCounters.finishWith .counterSnapshot .done := by
  have ht' : s.release.cmd.transfer = some (.snapshot x true 191) := ht
  rw [State.complete_transfer_write hh]
  unfold State.transferDone
  rw [show ({ s.release with mem := Memory.writeWord s.mem a d allBytes } : State).cmd.transfer = _ from ht']
  rfl

theorem snapshotLast_of {op : DmaOp} {x : Nat} {c : Bool} (ht : s.cmd.transfer = some (.snapshot x c 191)) :
    snapshotLast s ⟨.command, .transfer, op⟩ = true := by
  unfold snapshotLast
  rw [ht]
  rfl

/-- Settles O36: the ends by `State.transferDone`; the two lost counts by following the access past the clear. -/
theorem transfersFinish : Obligations.TransfersFinish := by
  unfold Obligations.TransfersFinish
  refine ⟨fun a b d v be x s hq hp hh ht => ⟨fun hg => ?_, fun o ho hbe => ?_⟩, fun a d s hq hh => ?_⟩
  · have he := State.busAccess_guarded_held (d := v) hq hh hg
    have hpath : (s.busAccess (.write b v be)).path = (s.guardHit b).path := by rw [he, State.fill_fill_path]
    have htr : (s.busAccess (.write b v be)).cmd.transfer = some (.snapshot x true 191) := by
      rw [he, State.fill_transfer, State.fill_transfer]
      exact ht
    have hholder : (s.busAccess (.write b v be)).path.holder = some (.word ⟨.command, .transfer, .write a d⟩) := by
      rw [hpath]
      exact hh
    have hquiet : (s.busAccess (.write b v be)).busQuiet := by
      unfold State.busQuiet
      rw [hpath]
      exact hq
    obtain ⟨u, hu, hua⟩ := awaited_apart hquiet hholder (snapshotLast_of htr)
      (congrArg State.apart (State.complete_snapshot_clear hholder htr))
    exact ⟨_, u, rfl, hu, congrArg MemoryPath.guardedCount hpath, (congrArg (fun y : State => y.path.guardedCount) hua :)⟩
  · have hcls : (s.classed (.write (pageAddr o.toNat) v be)).cls = .partialControl := by
      rw [State.classed_write, State.classify_page (pageOffset_pageAddr o.isLt),
        show isControlOffset o.toNat = true from ho, if_pos rfl, if_neg (show be ≠ allBytes from hbe)]
    obtain ⟨hpath, -, hapart⟩ := State.busAccess_waits (acc := .write (pageAddr o.toNat) v be) hq hh
      (by rw [hcls]; exact fun h => nomatch h)
    generalize hty : s.busAccess (.write (pageAddr o.toNat) v be) = y at hpath hapart
    have htr : y.cmd.transfer = some (.snapshot x true 191) := ((congrArg (fun z : State => z.cmd.transfer) hapart :)).trans ht
    have hholder : y.path.holder = some (.word ⟨.command, .transfer, .write a d⟩) := by
      rw [hpath]
      exact hh
    have hc := State.complete_snapshot_clear hholder htr
    obtain ⟨h1, h2, h3⟩ := State.settle_serves (s := y.complete) (c := s.classed (.write (pageAddr o.toNat) v be))
      (by rw [hc]; exact congrArg MemoryPath.waiting hpath) (by rw [hc]; rfl)
      (by rw [hc]; exact (congrArg MemoryPath.passedOver hpath).trans_lt hp)
    have hu : exec .counterSnapshotDone y = .next y.portComplete :=
      congrArg Host.Outcome.next (State.awaitPort_held hholder (snapshotLast_of htr))
    have hup : y.portComplete.path.partialCount = 0 := by
      refine (congrArg (fun z : State => z.path.partialCount) h3 :).trans ?_
      rw [hc]
      rfl
    have hline : y.portComplete.path.line = [] := by
      refine (congrArg (fun z : State => z.path.line) h3 :).trans ?_
      rw [hc]
      exact (congrArg MemoryPath.line hpath).trans hq.2
    have hw : y.portComplete.portComplete.apart =
        ({ y.portComplete.release with mem := Memory.writeWord y.portComplete.mem (pageAddr o.toNat) v be } : State).apart := by
      have hport : y.portComplete.path.holder = _ := h1
      rw [State.portComplete_apart (s := y.portComplete) ⟨h2, hline⟩, State.complete_controller hport]
      unfold State.handOver
      rw [hcls]
      rfl
    exact ⟨y, _, _, congrArg Host.Outcome.next hty, hu, exec_portAccessComplete_held (by unfold State.portComplete; rw [h1]; rfl),
      by rw [hpath, hcls]; rfl, by rw [hpath]; rfl, hup, h2,
      ((congrArg (fun z : State => z.path.partialCount) hw :)).trans hup, (congrArg State.mem hw :)⟩
  · intro after
    refine ⟨fun x ht => awaited_apart hq hh (snapshotLast_of ht) ?_, fun x ht => awaited_apart hq hh (snapshotLast_of ht) ?_,
      fun k i n ht hn => awaited_apart hq hh ?_ ?_⟩
    · have ht' : s.release.cmd.transfer = some (.snapshot x false 191) := ht
      rw [State.complete_transfer_write hh]
      unfold State.transferDone
      rw [show ({ s.release with mem := Memory.writeWord s.mem a d allBytes } : State).cmd.transfer = _ from ht']
      rfl
    · rw [State.complete_snapshot_clear hh ht]
      rfl
    · unfold rewriteLast
      rw [ht]
      exact decide_eq_true hn.ge
    · have ht' : s.release.cmd.transfer = some (.entryRewrite k i n) := ht
      rw [State.complete_transfer_write hh]
      unfold State.transferDone
      rw [show ({ s.release with mem := Memory.writeWord s.mem a d allBytes } : State).cmd.transfer = _ from ht']
      dsimp only
      rw [if_neg (by omega)]
      rfl

end Sys2Proof.Machine
end

section
/-! SUPPORT. The entry of service (O35): every SEATED slot judged by R62, the log begun, the command finished. -/

namespace Sys2Proof.Machine

open Sys2Proof

variable {s t u v : State} {i : Slot} {a : Addr} {w d : Word} {h : Held}

/-! ## Every SEATED slot judged (R62) -/

/-- R62: is the slot SEATED, and may it be powered? -/
def State.powersSeated (s : State) (i : Slot) : Bool := (s.slot i).state == .seated && s.mayPower i

/-- R63: the entry of a slot without lanes entering POWERING. -/
def State.poweredEntry (s : State) (i : Slot) : SlotEntry :=
  { s.slot i with state := .powering, timer := some (s.osc + 20000000), pwren := true }

/-- All entries of the slot table replaced, with causes delivered. -/
def State.withSlots (s : State) (x : Vector SlotEntry 12) (causes : BitVec 12) : State :=
  State.withCauses { s with sm := { s.sm with slots := x } } causes

/-- Every slot of the list that R62 powers, powered. -/
def State.poweredSlots (s : State) (l : List Slot) : Vector SlotEntry 12 :=
  Vector.ofFn fun i : Fin 12 => if i ∈ l ∧ s.powersSeated i = true then s.poweredEntry i else s.slot i

theorem State.withSlots_slots (s : State) : s.withSlots s.sm.slots 0 = s := by
  unfold State.withSlots State.withCauses
  rw [show (0 : BitVec 12) &&& s.cmd.mask = 0 from BitVec.zero_and, show s.cmd.pending ||| (0 : BitVec 12) = s.cmd.pending from BitVec.or_zero]

theorem State.withSlots_becomes {e : SlotEntry} (hu : u.apart = (s.slotBecomes i e).apart) (x : Vector SlotEntry 12)
    (c : BitVec 12) : (u.withSlots x c).apart = (s.withSlots x (0x200 ||| c)).apart := by
  have he : (u.withSlots x c).apart = (u.apart.withSlots x c).apart := rfl
  rw [he, hu]
  unfold State.withSlots State.withCauses State.slotBecomes State.withCauses
  rw [BitVec.and_or_distrib_right, ← BitVec.or_assoc]
  rfl

theorem State.poweredSlots_nil (s : State) : s.poweredSlots [] = s.sm.slots := by
  refine Vector.ext fun k hk => ?_
  unfold State.poweredSlots
  rw [Vector.getElem_ofFn, if_neg fun hc => by cases hc.1]
  rfl

theorem State.judgeSeated_one (h : s.powersSeated i = true) (hd : s.slotDark i) (hp : (s.slot i).pgood = false) :
    s.judgeSeated i = s.putSlot i (s.poweredEntry i) := by
  unfold State.powersSeated at h
  rw [Bool.and_eq_true, beq_iff_eq] at h
  obtain ⟨hs, hm⟩ := h
  rw [State.judgeSeated_powers hs hm, State.enterPowering_dark (f := id) hd (by rw [hs]; exact ⟨by decide, by decide⟩)
    (SlotEntry.prepares_refl _) (by rw [hs]; rfl) hp, SlotEntry.enterDark_keeps rfl]
  rfl

theorem State.judgeSeated_none (h : s.powersSeated i = false) : s.judgeSeated i = s := by
  unfold State.judgeSeated
  rw [if_neg]
  rw [← beq_eq_decide]
  exact fun hc => Bool.noConfusion (h.symm.trans hc)

/-- A slot powered leaves the others to be judged as before. -/
theorem State.putSlot_powers {e : SlotEntry} {j : Slot} (h : i ≠ j) :
    (s.putSlot i e).powersSeated j = s.powersSeated j ∧ (s.putSlot i e).poweredEntry j = s.poweredEntry j := by
  unfold State.powersSeated State.poweredEntry State.mayPower
  rw [State.putSlot_slot_ne s e h, State.putSlot_hub, State.putSlot_osc]
  exact ⟨rfl, rfl⟩

/-- R62: the slots of a list judged one after another are powered all together. -/
theorem State.foldl_judgeSeated {l : List Slot} (hl : l.Nodup) (s : State)
    (hd : ∀ i ∈ l, s.powersSeated i = true → s.slotDark i ∧ (s.slot i).pgood = false) :
    (l.foldl State.judgeSeated s).apart =
      (s.withSlots (s.poweredSlots l) (if l.any s.powersSeated then 0x200 else 0)).apart := by
  induction l generalizing s with
  | nil =>
    rw [State.poweredSlots_nil, List.any_nil, if_neg Bool.false_ne_true, State.withSlots_slots]
    rfl
  | cons x l ih =>
    obtain ⟨hx, hl⟩ := List.nodup_cons.mp hl
    have hmem {j : Slot} (hj : j ∈ l) : x ≠ j := fun h => hx (h ▸ hj)
    rw [List.foldl_cons]
    cases hpx : s.powersSeated x with
    | false =>
      have hslots : s.poweredSlots l = s.poweredSlots (x :: l) := congrArg Vector.ofFn <| funext fun j => by
        by_cases hj : j = x
        · subst hj
          rw [if_neg fun hc => hx hc.1, if_neg fun hc => Bool.noConfusion (hpx.symm.trans hc.2)]
        · simp only [List.mem_cons, hj, false_or]
      rw [State.judgeSeated_none hpx, ih hl s fun i hi => hd i (List.mem_cons_of_mem _ hi), hslots, List.any_cons, hpx,
        Bool.false_or]
    | true =>
      obtain ⟨hdx, hgx⟩ := hd x (List.mem_cons_self ..) hpx
      have hslots : (s.putSlot x (s.poweredEntry x)).poweredSlots l = s.poweredSlots (x :: l) := congrArg Vector.ofFn <| funext fun j => by
        by_cases hj : x = j
        · subst hj
          rw [if_neg fun hc => hx hc.1, State.putSlot_slot_self, if_pos ⟨List.mem_cons_self .., hpx⟩]
        · obtain ⟨h1, h2⟩ := State.putSlot_powers (s := s) (e := s.poweredEntry x) hj
          rw [h1, h2, State.putSlot_slot_ne _ _ hj]
          simp only [List.mem_cons, Ne.symm hj, false_or]
      have hrest (j : Slot) (hj : j ∈ l) (hp : (s.putSlot x (s.poweredEntry x)).powersSeated j = true) :
          (s.putSlot x (s.poweredEntry x)).slotDark j ∧ ((s.putSlot x (s.poweredEntry x)).slot j).pgood = false := by
        have hne := hmem hj
        unfold State.slotDark State.lane
        rw [State.putSlot_slot_ne _ _ hne, State.putSlot_lanes]
        exact hd j (List.mem_cons_of_mem _ hj) ((State.putSlot_powers hne).1.symm.trans hp)
      have hst : (s.slot x).state = .seated := by
        unfold State.powersSeated at hpx
        rw [Bool.and_eq_true, beq_iff_eq] at hpx
        exact hpx.1
      have hmove := State.putSlot_moves (s := s) (i := x) (e := s.poweredEntry x) (by rw [hst]; exact SlotState.noConfusion)
      rw [State.judgeSeated_one hpx hdx hgx, ih hl _ hrest, State.withSlots_becomes hmove, hslots, List.any_cons, hpx,
        Bool.true_or, if_pos rfl]
      congr 2
      split <;> rfl

/-- R27: the hub takes a state in which SEATED slots may be powered, power-good still to come. -/
theorem State.setHub_powers (hub : HubState) (hd : ∀ i, (u.withHub hub).powersSeated i = true → u.slotDark i ∧ (u.slot i).pgood = false) :
    (u.setHub hub).apart = ((u.withHub hub).withSlots ((u.withHub hub).poweredSlots (List.finRange 12))
      (if (List.finRange 12).any (u.withHub hub).powersSeated then 0x200 else 0)).apart := by
  unfold State.setHub State.judgeAllSeated allSlots
  generalize hw : State.judgeRelays _ = w
  have hpow : w.powersSeated = (u.withHub hub).powersSeated := by rw [← hw]; rfl
  have hslots (l : List Slot) : w.poweredSlots l = (u.withHub hub).poweredSlots l := by rw [← hw]; rfl
  have hdark : w.slotDark = u.slotDark := by rw [← hw]; rfl
  have hslot : w.slot = u.slot := by rw [← hw]; rfl
  rw [State.foldl_judgeSeated (List.nodup_finRange 12) w fun i _ hp => by rw [hdark, hslot]; exact hd i (hpow ▸ hp), hpow, hslots,
    ← hw]
  rfl

/-! ## The log begins (R177) -/

/-- R177: the OVERFLOW entry of a count standing when the log begins. -/
def State.overflowEntry (s : State) (base : Nat) : LogEntry :=
  { addr := addrOf base, pos := 0, seq := s.alarm.seq, body := .overflow s.alarm.overflow, sec := s.time.sec, ns := s.time.ns
    stale := false }

/-- R177: the alarm unit as the log begins. -/
def State.logBegun (s : State) (base size : Nat) : AlarmUnit :=
  { s.alarm with
    logBase := base, logSize := size, producer := 0, consumer := 0
    writeIdx := if s.alarm.overflow = 0 then 0 else 1 % size
    seq := if s.alarm.overflow = 0 then s.alarm.seq else (s.alarm.seq + 1) % 65536
    overflow := 0
    queue := s.alarm.queue.map (fun e => { e with stale := true }) ++
      if s.alarm.overflow = 0 then [] else [s.overflowEntry base] }

theorem State.alarmEnters_apart (s : State) (base size : Nat) :
    (s.alarmEnters base size).apart = ({ s.apart with alarm := s.apart.logBegun base size } : State) := by
  unfold State.alarmEnters
  extract_lets a t
  have ht : t.alarm.overflow = s.alarm.overflow := rfl
  rw [ht]
  have hover : s.apart.alarm.overflow = s.alarm.overflow := rfl
  unfold State.logBegun
  rw [hover]
  by_cases h : s.alarm.overflow = 0
  · simp only [if_pos h, List.append_nil]
    have ht : t.apart = ({ t with alarm := { t.alarm with overflow := s.alarm.overflow } } : State).apart := rfl
    rw [ht, h]
    rfl
  · simp only [if_neg h]
    rfl

/-! ## The last words of the transfers (R30, R31) -/

theorem tableWords_length (k : Table) (first lo hi : Nat) :
    (tableWords k first lo hi).length = (k.entries - first) * (hi - lo) := by
  simp [tableWords, List.length_flatMap]

theorem writebackWords_length : writebackWords.length = 128 := by
  unfold writebackWords
  rw [List.length_append, List.length_append, tableWords_length, tableWords_length, tableWords_length]
  rfl

theorem writeoutWords_length : writeoutWords.length = 496 := by
  unfold writeoutWords
  rw [List.length_append, List.length_append, List.length_append, tableWords_length, tableWords_length, tableWords_length,
    tableWords_length]
  rfl

/-! ## O35 -/

/-- Settles O35: the slots are powered by `State.setHub_powers`, the log begins by `State.alarmEnters_apart`. -/
theorem serviceEntered : Obligations.ServiceEntered := by
  unfold Obligations.ServiceEntered
  intro b a d s hq hh hs powers hd n first after
  obtain ⟨u, hu⟩ : ∃ u, u = ({ s.release with mem := Memory.writeWord s.mem a d allBytes } : State) := ⟨_, rfl⟩
  obtain ⟨x, hx⟩ : ∃ x : State, x = { u with
    cmd := { u.cmd with mask := b.mask.extractLsb' 0 12, setup := none }
    ring := { u.ring with params := some b.rings, rxIdx := 0, txIdx := 0 }
    cyc := { u.cyc with timeoutUs := b.pollUs } } := ⟨_, rfl⟩
  have hpow : (x.withHub .inService).powersSeated = powers := by
    rw [hx, hu]
    funext i
    simp only [powers, Bool.and_assoc]
    rfl
  have hslot : x.slot = s.slot ∧ x.slotDark = s.slotDark := by
    rw [hx, hu]
    exact ⟨rfl, rfl⟩
  have hall : (x.withHub .inService).poweredSlots (List.finRange 12) =
      Vector.ofFn fun i : Fin 12 => if powers i then s.poweredEntry i else s.slot i := by
    unfold State.poweredSlots
    rw [hpow]
    simp only [List.mem_finRange, true_and]
    rw [hx, hu]
    rfl
  have hhub := State.setHub_powers (u := x) .inService (by rw [hpow, hslot.1, hslot.2]; exact hd)
  have enters : u.enterService.apart = after := by
    unfold State.enterService
    rw [show u.cmd.setup = some b by rw [hu]; exact hs]
    dsimp only
    rw [← hx]
    unfold State.finishWith
    rw [State.finish_apart, State.alarmEnters_apart]
    rw [hhub, hpow, hall, hx, hu]
    rfl
  have row {p : State → Held → Bool} (hp : p s ⟨.command, .transfer, .write a d⟩ = true)
      (hlast : u.transferDone 0 = u.enterService) : ∃ t, (Host.Outcome.next (s.awaitPort p) : Out) = .next t ∧ t.apart = after := by
    refine awaited_apart hq hh hp ?_
    rw [State.complete_transfer_write hh, ← hu, hlast, enters]
  refine ⟨fun _ ht => row (p := writebackLast) ?_ ?_, fun _ ht => row (p := writeoutLast) ?_ ?_⟩
  · unfold writebackLast
    rw [ht]
    dsimp only
    rw [writebackWords_length]
    rfl
  · have hu' : u.cmd.transfer = some (.writeback 127) := by rw [hu]; exact ht
    unfold State.transferDone
    rw [hu']
    exact if_neg (by rw [writebackWords_length]; decide)
  · unfold writeoutLast
    rw [ht]
    dsimp only
    rw [writeoutWords_length]
    rfl
  · have hu' : u.cmd.transfer = some (.writeout 495) := by rw [hu]; exact ht
    unfold State.transferDone
    rw [hu']
    exact if_neg (by rw [writeoutWords_length]; decide)

end Sys2Proof.Machine
end

section
/-! SUPPORT. SHUTDOWN (O24): the slots leave their states, the cycle engine stops, and the working tables are emptied. -/

namespace Sys2Proof.Machine

open Sys2Proof

variable {s t u v g : State} {i : Slot} {a : Addr} {w d : Word} {h : Held}

/-! ## The cycle engine stays stopped (R152) -/

theorem State.leaveUp_walk (s : State) (i : Slot) (p : Plane) (st : LaneState) : (s.leaveUp i p st).walk = s.walk := by
  unfold State.leaveUp
  dsimp only
  split
  · rfl
  · rfl
  · exact (State.kickLane_walk ..).trans (State.dropClaim_walk ..)

theorem State.entry_of_walk (h : t.walk = s.walk) (he : s.cyc.entry = none) : t.cyc = s.cyc := by
  refine CycleEngine.eq_of_unstamped (congrArg (·.1) h) fun a ws w hc => ?_
  rw [he] at hc
  cases hc

theorem State.laneOff_walk (he : s.cyc.entry = none) (p : Plane) : (State.laneOff i s p).walk = s.walk := by
  unfold State.laneOff
  dsimp only
  rw [State.reportUnsent_idle]
  · rw [State.putSlot_walk]
    split
    · exact State.leaveUp_walk ..
    · rfl
  · rw [State.putSlot_cyc]
    split
    · exact congrArg CycleEngine.entry (State.entry_of_walk (s.leaveUp_walk i p .off) he) |>.trans he
    · exact he

theorem State.followEnable_walk (he : s.cyc.entry = none) (i : Slot) (was : SlotState) : (s.followEnable i was).walk = s.walk := by
  have hoff : ∀ (l : List Plane) (u : State), u.cyc.entry = none → (l.foldl (State.laneOff i) u).walk = u.walk := by
    intro l
    induction l with
    | nil => exact fun _ _ => rfl
    | cons p l ih =>
      intro u hu
      have h1 := State.laneOff_walk (i := i) hu p
      exact (ih _ ((congrArg CycleEngine.entry (State.entry_of_walk h1 hu)).trans hu)).trans h1
  unfold State.followEnable
  dsimp only
  split
  · rfl
  · split
    · exact foldl_walk (fun s p => State.laneOn_walk i s p) _ _
    · exact hoff _ s he

/-- A slot enters a state while the cycle engine has no entry. -/
theorem State.enterSlot_cyc {st : SlotState} {f : SlotEntry → SlotEntry} (he : s.cyc.entry = none) :
    (s.enterSlot i st f).cyc = s.cyc := by
  have h1 := s.changeSlot_walk i ((f (s.slot i)).enter st s.osc)
  have h2 := State.entry_of_walk h1 he
  unfold State.enterSlot State.moveSlot
  generalize s.changeSlot i ((f (s.slot i)).enter st s.osc) = u at h1 h2
  have hu : u.cyc.entry = none := (congrArg CycleEngine.entry h2).trans he
  have hleaves : u.pollLeaves i = u := by
    unfold State.pollLeaves State.pollRun
    rw [hu]
  dsimp only
  rw [hleaves, ite_self]
  exact (State.entry_of_walk (State.followEnable_walk hu i _) hu).trans h2

/-! ## The slots leave their states (R76) -/

/-- R76: where a shutdown takes a slot. -/
def SlotState.atShutdown : SlotState → SlotState
  | .empty => .empty
  | .admitted | .draining => .draining
  | _ => .seated

theorem State.slotShutdown_spec (he : s.cyc.entry = none) (i : Slot) : (s.slotShutdown i).cyc = s.cyc ∧
    (s.slotShutdown i).frame = s.frame ∧
      ∀ j, ((s.slotShutdown i).slot j).state = if j = i then (s.slot i).state.atShutdown else (s.slot j).state := by
  have enters (st : SlotState) (f : SlotEntry → SlotEntry) (hst : (s.slot i).state.atShutdown = st) :
      (s.enterSlot i st f).cyc = s.cyc ∧ (s.enterSlot i st f).frame = s.frame ∧
        ∀ j, ((s.enterSlot i st f).slot j).state = if j = i then (s.slot i).state.atShutdown else (s.slot j).state :=
    ⟨State.enterSlot_cyc he, State.enterSlot_frame .., fun j => hst ▸ s.enterSlot_state i st f j⟩
  have stays (hst : (s.slot i).state.atShutdown = (s.slot i).state) (j : Slot) :
      (s.slot j).state = if j = i then (s.slot i).state.atShutdown else (s.slot j).state := by
    split
    · subst_vars
      exact hst.symm
    · rfl
  have seats {st : SlotState} (f : SlotEntry → SlotEntry) (hs : (s.slot i).state = st) (hst : st.atShutdown = .seated) :=
    enters .seated f (hs ▸ hst)
  unfold State.slotShutdown
  split
  case h_1 hs => exact enters .draining _ (by rw [hs]; rfl)
  case h_2 hs =>
    refine ⟨State.putSlot_cyc .., State.putSlot_frame .., fun j => ?_⟩
    by_cases hj : i = j
    · subst hj
      rw [State.putSlot_slot_self, if_pos rfl, hs]
      rfl
    · rw [State.putSlot_slot_ne _ _ hj, if_neg (Ne.symm hj)]
  case h_3 hs => exact seats _ hs rfl
  case h_4 hs => exact seats _ hs rfl
  case h_5 hs => exact seats _ hs rfl
  case h_6 hs => exact seats _ hs rfl
  case h_7 hs => exact seats _ hs rfl
  case h_8 hs => exact seats _ hs rfl
  case h_9 hs => exact seats _ hs rfl
  case h_10 => exact ⟨rfl, rfl, stays (by
    cases hs : (s.slot i).state with
    | empty => rfl
    | seated => rfl
    | _ => exact absurd hs ‹_›)⟩

theorem State.foldl_slotShutdown {l : List Slot} (hl : l.Nodup) (s : State) (he : s.cyc.entry = none) :
    (l.foldl State.slotShutdown s).cyc = s.cyc ∧ (l.foldl State.slotShutdown s).frame = s.frame ∧
      ∀ j, ((l.foldl State.slotShutdown s).slot j).state =
        if j ∈ l then (s.slot j).state.atShutdown else (s.slot j).state := by
  induction l generalizing s with
  | nil => exact ⟨rfl, rfl, fun _ => rfl⟩
  | cons x l ih =>
    obtain ⟨hx, hl⟩ := List.nodup_cons.mp hl
    obtain ⟨h1, h2, h3⟩ := State.slotShutdown_spec he x
    obtain ⟨k1, k2, k3⟩ := ih hl (s.slotShutdown x) (by rw [h1]; exact he)
    refine ⟨k1.trans h1, k2.trans h2, fun j => ?_⟩
    rw [List.foldl_cons, k3, h3]
    by_cases hj : j = x
    · subst hj
      rw [if_neg hx, if_pos rfl, if_pos (List.mem_cons_self ..)]
    · simp only [List.mem_cons, hj, false_or, if_false]

/-! ## The rings halt (R99) -/

/-- R99: a halt leaves the slots, the cycle engine and the hub state, and no engine running. -/
theorem State.ringHalt_spec (s : State) : s.ringHalt.sm = s.sm ∧ s.ringHalt.cyc = s.cyc ∧ s.ringHalt.cmd.hub = s.cmd.hub ∧
    s.ringHalt.ring.state ≠ .running := by
  have hleave (u : State) (id : Nat) (f : PortCounters → PortCounters) : (u.leaveQueue0 id f).sm = u.sm ∧
      (u.leaveQueue0 id f).cyc = u.cyc ∧ (u.leaveQueue0 id f).cmd.hub = u.cmd.hub ∧
        (u.leaveQueue0 id f).ring.state = u.ring.state := by
    unfold State.leaveQueue0 State.dropClaim
    dsimp only
    split
    · exact ⟨rfl, rfl, rfl, rfl⟩
    · split <;> exact ⟨rfl, rfl, rfl, rfl⟩
  have hmiss (u : State) (m : RxMove) : (u.rxMiss m).sm = u.sm ∧ (u.rxMiss m).cyc = u.cyc ∧
      (u.rxMiss m).cmd.hub = u.cmd.hub ∧ (u.rxMiss m).ring.state = u.ring.state := hleave ..
  have hwith (u : State) (x : RingSide) : (u.withdrawRing x).sm = u.sm ∧ (u.withdrawRing x).cyc = u.cyc ∧
      (u.withdrawRing x).cmd.hub = u.cmd.hub ∧ (u.withdrawRing x).ring.state = u.ring.state := by
    have h := u.withdrawRing_apart x
    exact ⟨(congrArg State.sm h :), (congrArg State.cyc h :), (congrArg (fun y : State => y.cmd.hub) h :),
      (congrArg (fun y : State => y.ring.state) h :)⟩
  have hrx (u : State) : u.rxHoldEnds.sm = u.sm ∧ u.rxHoldEnds.cyc = u.cyc ∧ u.rxHoldEnds.cmd.hub = u.cmd.hub ∧
      u.rxHoldEnds.ring.state = u.ring.state := by
    unfold State.rxHoldEnds
    split
    · exact ⟨rfl, rfl, rfl, rfl⟩
    · rename_i m _
      split
      · exact hmiss u m
      · obtain ⟨h1, h2, h3, h4⟩ := hmiss (u.withdrawRing .rx) m
        obtain ⟨k1, k2, k3, k4⟩ := hwith u .rx
        exact ⟨h1.trans k1, h2.trans k2, h3.trans k3, h4.trans k4⟩
      · exact ⟨rfl, rfl, rfl, rfl⟩
  have htx (u : State) : u.txHalt.sm = u.sm ∧ u.txHalt.cyc = u.cyc ∧ u.txHalt.cmd.hub = u.cmd.hub ∧
      u.txHalt.ring.state = u.ring.state := by
    have h := u.txHalt_apart
    exact ⟨(congrArg State.sm h :), (congrArg State.cyc h :), (congrArg (fun y : State => y.cmd.hub) h :),
      (congrArg (fun y : State => y.ring.state) h :)⟩
  unfold State.ringHalt
  split
  · obtain ⟨h1, h2, h3, h4⟩ := htx (s.setRing { s.ring with state := .halting }).rxHoldEnds
    obtain ⟨k1, k2, k3, k4⟩ := hrx (s.setRing { s.ring with state := .halting })
    exact ⟨h1.trans k1, h2.trans k2, h3.trans k3, fun hc => RingState.noConfusion ((h4.trans k4).symm.trans hc)⟩
  · rename_i hne
    exact ⟨rfl, rfl, rfl, hne⟩

/-! ## O24: SHUTDOWN (R32) -/

theorem exec_shutdown {unread : BitVec 20} (h : s.takesCommand) (hh : s.cmd.hub = .inService) :
    ∃ t g : State, exec (.shutdown 0 unread []) s = .next t ∧
      g.Shadows (s.begun ⟨.shutdown, 0, []⟩ (commandMem s.mem 0x02 0 unread [])) ∧ t.apart = g.shutdownOp.apart := by
  obtain ⟨g, hg, he⟩ := State.writeCommand_runs (code := 0x02) (count := 0) (unread := unread) (params := []) (c := .shutdown) h rfl rfl rfl
    (by decide) (by rw [hh]; rfl)
  exact ⟨_, g, exec_commandOf (c := .shutdown 0 unread []) rfl s, hg, he⟩

/-- R177: leaving service with no log entry waiting. -/
theorem State.alarmLeaves_empty (h : s.alarm.queue = []) : s.alarmLeaves.apart = ({ s.apart with
    alarm := { s.apart.alarm with writeIdx := s.alarm.producer } } : State) := by
  unfold State.alarmLeaves
  extract_lets a kept dropped a1
  have hk : kept = [] ∧ dropped = [] := by
    unfold kept dropped a
    rw [h]
    exact ⟨ite_self _, ite_self _⟩
  have ha : a1 = { s.alarm with writeIdx := s.alarm.producer } := by
    unfold a1
    rw [hk.1, hk.2]
    unfold a
    change _ = { s.alarm with writeIdx := s.alarm.producer, queue := s.alarm.queue }
    rw [h]
    rfl
  rw [ha]
  rfl

/-- R152: the cycle engine leaves its entry. -/
theorem State.cycleLeaves_apart (s : State) : s.cycleLeaves.apart = ({ s.apart with cyc := s.cyc.idle } : State) := by
  have h := s.dropHeld_apart (· == .cycle)
  unfold State.cycleLeaves
  dsimp only
  have hc : (s.dropHeld (· == .cycle)).cyc = s.cyc := (congrArg State.cyc h :)
  rw [hc]
  refine Eq.trans (b := ({ (s.dropHeld (· == .cycle)).apart with cyc := s.cyc.idle } : State)) rfl ?_
  rw [h]

/-- R32: the hub in SHUTTING_DOWN with the cycle engine idle, before the slots move. -/
theorem State.shutdown_begins (s : State) : ((s.setHub .shuttingDown).alarmLeaves).cycleLeaves.sm = s.sm ∧
    ((s.setHub .shuttingDown).alarmLeaves).cycleLeaves.cyc = s.cyc.idle ∧
      ((s.setHub .shuttingDown).alarmLeaves).cycleLeaves.cmd.hub = .shuttingDown := by
  have h1 := State.setHub_still (u := s) (h := .shuttingDown) fun i => .inr (.inl rfl)
  generalize s.setHub .shuttingDown = u at h1
  have h2 := u.alarmLeaves.cycleLeaves_apart
  generalize u.alarmLeaves.cycleLeaves = v at h2
  refine ⟨?_, ?_, ?_⟩
  · exact (congrArg State.sm h2 :).trans (congrArg State.sm h1 :)
  · exact (congrArg State.cyc h2 :).trans (congrArg (fun x : State => x.cyc.idle) h1 :)
  · exact (congrArg (fun x : State => x.cmd.hub) h2 :).trans (congrArg (fun x : State => x.cmd.hub) h1 :)

/-! ## The tables emptied (R33, R165) -/

/-- A point whose emptying is not reported. -/
def Point.quiet (p : Point) : Prop := p.cfg.masked = true ∨ p.state.standing = false

/-- A quiet point that leaves for another. -/
theorem State.replacePoint_apart {k : Fin 64} (h : (u.point k).quiet) (x : Point) :
    ∃ m n, ((u.movePoint k (u.point k).cleared).putPoint k x).apart = ({ u with
      alarm := { u.alarm with points := vset u.alarm.points k x, major := m, minor := n } } : State).apart := by
  have hput (y : State) (a : Vector Point 64) (m n : Bool)
      (hy : y.apart = ({ u with alarm := { u.alarm with points := vset a k (u.point k).cleared, major := m, minor := n } } : State).apart)
      (ha : a = u.alarm.points) : (y.putPoint k x).apart = ({ u with
        alarm := { u.alarm with points := vset u.alarm.points k x, major := m, minor := n } } : State).apart := by
    refine Eq.trans (b := (y.apart.putPoint k x).apart) rfl ?_
    rw [hy, ha, ← vset_vset u.alarm.points k (u.point k).cleared x]
    rfl
  unfold State.movePoint
  dsimp only
  split
  · exact ⟨u.alarm.major, u.alarm.minor, hput _ _ _ _ rfl rfl⟩
  · rename_i hm
    have hs : (u.point k).state.standing = false := h.resolve_left hm
    have hr : ((!false) && ((u.point k).cleared.state == .raised)) = false := rfl
    rw [hs, hr, if_neg Bool.false_ne_true, Bool.false_and, if_neg Bool.false_ne_true]
    let y := (u.putPoint k (u.point k).cleared).judgeRelays
    exact ⟨y.alarm.major, y.alarm.minor, hput y u.alarm.points _ _ rfl rfl⟩

theorem State.emptyPoints_apart (h : ∀ k, (s.point k).quiet) : ∃ m n, s.emptyPoints.apart = ({ s with
    alarm := { s.alarm with points := Vector.replicate 64 Point.cold, major := m, minor := n } } : State).apart := by
  have hfold (l : List (Fin 64)) (u : State) (hu : ∀ k, (u.point k).quiet) : ∃ m n,
      (l.foldl (fun s k => (s.movePoint k (s.point k).cleared).putPoint k Point.cold) u).apart = ({ u with
        alarm := { u.alarm with points := l.foldl (fun v k => vset v k Point.cold) u.alarm.points, major := m, minor := n } } : State).apart := by
    induction l generalizing u with
    | nil => exact ⟨_, _, rfl⟩
    | cons k l ih =>
      obtain ⟨m, n, hk⟩ := State.replacePoint_apart (hu k) Point.cold
      rw [List.foldl_cons]
      generalize (u.movePoint k (u.point k).cleared).putPoint k Point.cold = v at hk
      have hv (j : Fin 64) : (v.point j).quiet := by
        have hj : v.point j = vget (vset u.alarm.points k Point.cold) j := (congrArg (fun x : State => x.point j) hk :)
        rw [hj]
        by_cases h : k = j
        · subst h
          rw [vget_vset_self]
          exact .inr rfl
        · rw [vget_vset_ne _ _ h]
          exact hu j
      obtain ⟨m', n', hl⟩ := ih v hv
      refine ⟨m', n', hl.trans ?_⟩
      refine Eq.trans (b := ({ v.apart with alarm := { v.apart.alarm with
        points := l.foldl (fun v k => vset v k Point.cold) v.apart.alarm.points, major := m', minor := n' } } : State)) rfl ?_
      rw [hk]
      rfl
  obtain ⟨m, n, hp⟩ := hfold (List.finRange 64) s h
  refine ⟨m, n, hp.trans ?_⟩
  have hcold : Vector.ofFn (fun _ : Fin 64 => Point.cold) = Vector.replicate 64 Point.cold :=
    Vector.ext fun k hk => by rw [Vector.getElem_ofFn, Vector.getElem_replicate]
  rw [foldl_vset (fun _ => Point.cold), hcold]

/-- Reference entries replaced while none is qualified. -/
theorem State.putTime_unqualified {y : TimeBase} (h : ∀ k, (s.ref k).qualified = false)
    (hy : ∀ k, (vget y.refs k).qualified = false) (h1 : y.state = s.time.state) (h2 : y.beyond = s.time.beyond) :
    (s.putTime (s.time.rejudge y)).apart = ({ s.apart with time := y } : State) := by
  rw [TimeBase.rejudge_same fun k => (hy k).trans (h k).symm, State.putTime_same h1 h2]

/-- R33, R58, R93, R118, R165: the working tables emptied, nothing being reported. -/
theorem State.emptyTables_apart (hp : ∀ k, (s.point k).quiet) (hr : ∀ k, (s.ref k).qualified = false) :
    ∃ m n, s.emptyTables.apart = ({ s with
      sm := { s.sm with slots := s.sm.slots.map (fun e => { e with cfg := PortCfg.cold }), q0Limit := 128 }
      sw := { s.sw with groups := Vector.replicate 64 Group.none }
      time := { s.time with refs := Vector.replicate 4 RefEntry.cold }
      alarm := { s.alarm with points := Vector.replicate 64 Point.cold, major := m, minor := n } } : State).apart := by
  unfold State.emptyTables
  extract_lets x s1 y s2 s3
  obtain ⟨m, n, h3⟩ : ∃ m n, s3.apart = ({ s2 with
    alarm := { s2.alarm with points := Vector.replicate 64 Point.cold, major := m, minor := n } } : State).apart :=
    State.emptyPoints_apart (s := s2) hp
  clear_value s3
  have htime : s3.time = s.time := (congrArg State.time h3 :)
  refine ⟨m, n, Eq.trans (State.putTime_unqualified ?_ ?_ ?_ ?_) ?_⟩
  · intro k
    change (vget s3.time.refs k).qualified = false
    rw [htime]
    exact hr k
  · intro k
    change (vget (Vector.replicate 4 RefEntry.cold) k).qualified = false
    rw [vget_replicate]
    rfl
  · rfl
  · rfl
  · change ({ s3.apart with time := { s3.time with refs := Vector.replicate 4 RefEntry.cold } } : State) = _
    rw [h3, htime]
    have hslots : Vector.ofFn (fun i : Fin 12 => { s.slot i with cfg := PortCfg.cold }) =
        s.sm.slots.map (fun e => { e with cfg := PortCfg.cold }) :=
      Vector.ext fun k hk => by
        rw [Vector.getElem_ofFn, Vector.getElem_map]
        rfl
    unfold s2 y s1 x
    rw [hslots]
    rfl

/-! ## O24 -/

/-- Settles O24: the slots by `State.foldl_slotShutdown`, the rings by `State.ringHalt_spec`, the tables emptied by
`State.emptyTables_apart`. -/
theorem shutdownTaken : Obligations.ShutdownTaken := by
  unfold Obligations.ShutdownTaken
  refine ⟨fun unread s h hh => ⟨fun hs hr hq _ => ?_, ?_⟩, fun o s hq hh hs hr hc ho hk hp href => ?_⟩
  · obtain ⟨t, g, he, hg, ht⟩ := exec_shutdown (unread := unread) h hh
    refine ⟨t, he, ht.trans ?_⟩
    have hstill (i : Slot) (u : State) (hu : u.sm = s.sm) : u.slotShutdown i = u := by
      have hslot : u.slot i = s.slot i := by
        unfold State.slot
        rw [hu]
      unfold State.slotShutdown
      rw [hslot]
      obtain h | h := hs i <;> rw [h]
    obtain ⟨b1, -, -⟩ := g.shutdown_begins
    have hhub := State.setHub_still (u := g) (h := .shuttingDown) fun i => .inr (.inl rfl)
    unfold State.shutdownOp allSlots
    generalize hx : g.setHub .shuttingDown = x at b1 hhub
    have hqueue : x.alarm.queue = [] := (congrArg (fun x : State => x.alarm.queue) hhub :).trans
      ((congrArg (fun x : State => x.alarm.queue) hg.begun_apart :).trans hq)
    have hcyc : x.alarmLeaves.cyc = x.cyc := rfl
    have hleft := x.alarmLeaves.cycleLeaves_apart
    rw [hcyc, State.alarmLeaves_empty hqueue] at hleft
    generalize x.alarmLeaves.cycleLeaves = y at b1 hleft
    rw [foldl_still fun i => hstill i y (b1.trans hg.sm)]
    have hrun : y.ringHalt = y := by
      unfold State.ringHalt
      refine if_neg fun hc => ?_
      have : y.ring.state = s.ring.state := (congrArg (fun x : State => x.ring.state) hleft :).trans
        ((congrArg (fun x : State => x.ring.state) hhub :).trans (congrArg (fun x : State => x.ring.state) hg.begun_apart :))
      rw [this, hr] at hc
      cases hc
    rw [hrun, hleft]
    refine Eq.trans (b := ({ x.apart with
      alarm := { x.apart.alarm with writeIdx := x.apart.alarm.producer }
      cyc := x.apart.cyc.idle } : State)) rfl ?_
    rw [hhub, hg.begun_apart]
    rfl
  · obtain ⟨t, g, he, hg, ht⟩ := exec_shutdown (unread := unread) h hh
    obtain ⟨b1, b2, b3⟩ := g.shutdown_begins
    unfold State.shutdownOp at ht
    generalize ((g.setHub .shuttingDown).alarmLeaves).cycleLeaves = u at ht b1 b2 b3
    obtain ⟨f1, f2, f3⟩ := State.foldl_slotShutdown (List.nodup_finRange 12) u (by rw [b2]; rfl)
    unfold allSlots at ht
    generalize (List.finRange 12).foldl State.slotShutdown u = v at ht f1 f2 f3
    obtain ⟨r1, r2, r3, r4⟩ := v.ringHalt_spec
    refine ⟨t, he, ?_, ?_, ?_, fun i => ?_⟩
    · exact (congrArg (fun x : State => x.cmd.hub) ht :).trans (r3.trans ((congrArg (fun x => x.2.1.hub) f2 :).trans b3))
    · exact (congrArg (fun x : State => x.cyc.state) ht :).trans (by
        change v.ringHalt.cyc.state = _
        rw [r2, f1, b2]
        rfl)
    · exact fun hc => r4 ((congrArg (fun x : State => x.ring.state) ht :).symm.trans hc)
    · have hi : (t.slot i).state = (s.slot i).state.atShutdown := by
        refine (congrArg (fun x : State => (x.slot i).state) ht :).trans ?_
        change (vget v.ringHalt.sm.slots i).state = _
        rw [r1]
        refine (f3 i).trans ?_
        rw [if_pos (List.mem_finRange i)]
        change (vget u.sm.slots i).state.atShutdown = _
        rw [b1]
        exact congrArg (fun e : SlotEntry => e.state.atShutdown) (hg.begun_slot i)
      rw [hi]
      cases (s.slot i).state <;> rfl
  · have hready : s.shutdownReady = true := by
      unfold State.shutdownReady
      rw [hh, hr, hc]
      have hall : allSlots.all (fun i => (s.slot i).state == .empty || (s.slot i).state == .seated) = true :=
        List.all_eq_true.mpr fun i _ => by rw [Bool.or_eq_true, beq_iff_eq, beq_iff_eq]; exact hs i
      rw [hall]
      rfl
    change ∃ t, settled (if s.shutdownReady then s.completeShutdown else s) = .next t ∧ _
    rw [hready, if_pos rfl]
    refine work_apart hq (State.completeShutdown_outside s) ?_
    unfold State.completeShutdown
    obtain ⟨m, n, ht⟩ := State.emptyTables_apart (s := s) (fun k => by
      obtain h | h | h := hp k
      · exact .inl h
      · exact .inr (by rw [h]; rfl)
      · exact .inr (by rw [h]; rfl)) href
    generalize s.emptyTables = u at ht
    have hhub := State.setHub_still (u := u.emptyZones) (h := .unconfigured) fun i => .inr (.inl rfl)
    generalize u.emptyZones.setHub .unconfigured = v at hhub
    have hcoll : v.cmd.collection = .executing o := (congrArg (fun x : State => x.cmd.collection) hhub :).trans
      ((congrArg (fun x : State => x.cmd.collection) ht :).trans ho)
    rw [State.finishIf_executing hcoll, if_pos hk]
    refine Eq.trans (b := (({ v.apart with cmd := { v.apart.cmd with
      collection := .idle, transfer := none, record := v.apart.cmd.record.finished .shutdown .done 0 false } } : State))) rfl ?_
    rw [hhub]
    refine Eq.trans (b := (({ u.apart.emptyZones.withHub .unconfigured with
      cmd := { (u.apart.emptyZones.withHub .unconfigured).cmd with
        collection := .idle, transfer := none
        record := (u.apart.emptyZones.withHub .unconfigured).cmd.record.finished .shutdown .done 0 false } } : State).apart)) rfl ?_
    rw [ht]
    rfl

end Sys2Proof.Machine
end

section
/-! SUPPORT. Queues that stay empty through the moves of slots, for staging records (O37). -/

namespace Sys2Proof.Machine

open Sys2Proof

variable {s t u v : State} {i : Slot} {d : Cls} {a : Addr}

/-! ## A queue that is empty stays empty (R90) -/

theorem State.submit_nilAt (j : Slot) (p : Plane) (f : CtlFrame) (h : s.nilAt i d) : (s.submit j p f).1.nilAt i d :=
  State.nilAt_of_queues (s.submit_queues j p f) h

theorem State.takePoll_nilAt (j : Slot) (log : List AttemptRec) (final : AttemptOutcome) (h : s.nilAt i d) :
    (s.takePoll j log final).1.nilAt i d := State.changeSlot_nilAt (.inl h)

theorem State.observeCard_sw (s : State) (j : Slot) (flags : BitVec 4) (codes : List Byte) :
    (s.observeCard j flags codes).sw = s.sw := by
  unfold State.observeCard
  refine List.foldlRecOn (motive := fun t : State => t.sw = s.sw) _ _ rfl fun u hu k _ => ?_
  dsimp only
  split
  · exact (State.movePoint_sm ..).2.2.2.trans hu
  · exact hu

theorem State.pollFinish_nilAt (a : Addr) (ws : List Word) (w : PollWork) (final : AttemptOutcome) (h : s.nilAt i d) :
    (s.pollFinish a ws w final).nilAt i d := by
  have ht := State.takePoll_nilAt (s := s) w.slot w.log final h
  have hresult (u : State) (r : Option Nat) (hu : u.nilAt i d) : (u.pollResult a ws w final r).nilAt i d := hu
  unfold State.pollFinish
  dsimp only
  refine hresult _ _ ?_
  split
  · exact State.nilAt_of_queues (congrArg SwitchCore.queues (State.observeCard_sw ..)) ht
  · exact ht

theorem State.pollGo_nilAt (fuel : Nat) (s : State) (a : Addr) (ws : List Word) (w : PollWork) (h : s.nilAt i d) :
    (State.pollGo fuel s a ws w).nilAt i d := by
  induction fuel generalizing s w with
  | zero => exact h
  | succ k ih =>
    unfold State.pollGo
    extract_lets p n tag w1 c s0 s1 r w2
    have hr : r.1.nilAt i d := State.submit_nilAt _ _ _ h
    split
    · exact h
    · split
      · exact hr
      · split
        · exact ih _ _ hr
        · exact State.pollFinish_nilAt _ _ _ _ hr

theorem State.attemptEnds_nilAt (o : AttemptOutcome) (h : s.nilAt i d) : (s.attemptEnds o).nilAt i d := by
  unfold State.attemptEnds
  split
  · split
    · dsimp only
      split
      · exact State.pollGo_nilAt _ _ _ _ _ h
      · exact State.pollFinish_nilAt _ _ _ _ h
    · exact h
  · exact h

theorem State.reportControl_nilAt (sent : Bool) (f : CtlFrame) (h : s.nilAt i d) : (s.reportControl sent f).nilAt i d := by
  have hjudge (u : State) (a : Addr) (ws : List Word) (w : TimeWork) (hu : u.nilAt i d) : (u.timeJudge a ws w).nilAt i d := by
    unfold State.timeJudge
    split <;> exact hu
  unfold State.reportControl
  split
  · exact h
  · split
    · split
      · split
        · split
          · exact h
          · exact State.attemptEnds_nilAt .noResponse h
        · exact h
      · exact h
    · split
      · refine hjudge _ _ _ _ ?_
        split <;> exact h
      · exact h
    · exact h

theorem State.reportUnsent_nilAt (fs : List CtlFrame) (h : s.nilAt i d) : (s.reportUnsent fs).nilAt i d :=
  List.foldlRecOn (motive := fun t : State => t.nilAt i d) _ _ h fun _ hu f _ => State.reportControl_nilAt false f hu

theorem State.laneOff_nilAt (j : Slot) (p : Plane) (h : s.nilAt i d) : (State.laneOff j s p).nilAt i d := by
  have hleave (st : LaneState) : (s.leaveUp j p st).nilAt i d := by
    unfold State.leaveUp
    dsimp only
    split
    · exact h
    · exact h
    · exact State.nilAt_of_queues ((State.kickLane_queues ..).trans (State.dropClaim_queues ..)) h
  unfold State.laneOff
  dsimp only
  refine State.reportUnsent_nilAt _ ?_
  unfold State.nilAt
  rw [State.putSlot_sw]
  split
  · exact hleave .off
  · exact h

theorem State.laneOn_nilAt (j : Slot) (p : Plane) (h : s.nilAt i d) : (State.laneOn j s p).nilAt i d := by
  unfold State.laneOn
  dsimp only
  split
  · unfold State.nilAt
    rw [State.putSlot_sw]
    exact h
  · exact h

theorem State.enterSlot_nilAt (j : Slot) (st : SlotState) (f : SlotEntry → SlotEntry) (h : s.nilAt i d) :
    (s.enterSlot j st f).nilAt i d := by
  have hleaves (u : State) : (u.pollLeaves j).sw = u.sw := by
    unfold State.pollLeaves
    split
    · split <;> rfl
    · rfl
  have hfollow (u : State) (was : SlotState) (hu : u.nilAt i d) : (u.followEnable j was).nilAt i d := by
    unfold State.followEnable
    dsimp only
    split
    · exact hu
    · split
      · exact List.foldlRecOn (motive := fun t : State => t.nilAt i d) _ _ hu fun _ hv p _ => State.laneOn_nilAt j p hv
      · exact List.foldlRecOn (motive := fun t : State => t.nilAt i d) _ _ hu fun _ hv p _ => State.laneOff_nilAt j p hv
  have hchange := State.changeSlot_nilAt (new := (f (s.slot j)).enter st s.osc) (j := j) (.inl h)
  unfold State.enterSlot State.moveSlot
  dsimp only
  refine hfollow _ _ ?_
  split
  · exact State.nilAt_of_queues (congrArg SwitchCore.queues (hleaves _)) hchange
  · exact hchange

theorem State.judgeSeated_nilAt (j : Slot) (h : s.nilAt i d) : (s.judgeSeated j).nilAt i d := by
  unfold State.judgeSeated State.enterPowering State.enterTraining
  dsimp only
  have h1 := State.enterSlot_nilAt j .powering id h
  split
  · split
    · exact State.enterSlot_nilAt j .training id h1
    · exact h1
  · exact h

theorem State.provisionChanged_nilAt (j : Slot) (was now : Bool) (h : s.nilAt i d) : (s.provisionChanged j was now).nilAt i d := by
  have hseated := State.judgeSeated_nilAt j (State.enterSlot_nilAt j .seated id h)
  have hdrain := State.enterSlot_nilAt j .draining (fun e => { e with drainCause := .unprovision }) h
  unfold State.provisionChanged
  split
  · split
    · exact hseated
    · exact hseated
    · exact hseated
    · exact hdrain
    · exact h
  · exact h

/-! ## The controller-set fields stay (R182) -/

theorem State.enterSlot_cfg (s : State) (i : Slot) (st : SlotState) {f : SlotEntry → SlotEntry} (hf : (f (s.slot i)).cfg = (s.slot i).cfg) :
    ((s.enterSlot i st f).slot i).cfg = (s.slot i).cfg := by
  have h := (congrArg SlotEntry.cfg (State.enterSlot_held s i st f) :)
  exact (h : ((s.enterSlot i st f).slot i).cfg = ((f (s.slot i)).enter st s.osc).cfg).trans ((SlotEntry.enter_cfg _ st s.osc).trans hf)

theorem State.judgeSeated_cfg (s : State) (i : Slot) : ((s.judgeSeated i).slot i).cfg = (s.slot i).cfg := by
  have h1 := State.enterSlot_cfg s i .powering (f := id) rfl
  unfold State.judgeSeated State.enterPowering State.enterTraining
  dsimp only
  split
  · split
    · exact (State.enterSlot_cfg _ i .training (f := id) rfl).trans h1
    · exact h1
  · rfl

theorem State.provisionChanged_cfg (s : State) (i : Slot) (was now : Bool) :
    ((s.provisionChanged i was now).slot i).cfg = (s.slot i).cfg := by
  have hseated := (State.judgeSeated_cfg _ i).trans (State.enterSlot_cfg s i .seated (f := id) rfl)
  have hdrain := State.enterSlot_cfg s i .draining (f := fun e => { e with drainCause := .unprovision }) rfl
  unfold State.provisionChanged
  split
  · split
    · exact hseated
    · exact hseated
    · exact hseated
    · exact hdrain
    · rfl
  · rfl

/-! ## PORT records (R182) -/

/-- The entry of a slot with new controller-set fields. -/
def SlotEntry.withCfg (e : SlotEntry) (c : PortCfg) : SlotEntry := { e with cfg := c }

/-- The ring engine told of limits that have risen (R88, R182). -/
def State.limitsTold (s : State) (j : Slot) (c : PortCfg) : State :=
  if (s.slot j).cfg.timedLimit < c.timedLimit ∨ (s.slot j).cfg.bulkLimit < c.bulkLimit then s.roomReport else s

/-- R182: does a record shut the slot's time gate? -/
def State.shuts (s : State) (j : Slot) (c : PortCfg) : Prop := c.gate ≠ (s.slot j).cfg.gate ∧ c.gate < s.sw.quality

theorem SlotEntry.repolicy_same {e : SlotEntry} {old : PlanePolicy} (h : old = e.cfg.policy) : e.repolicy old = e := if_pos h

/-- R182: a PORT record of a slot applied, up to what a change of provisioning does. -/
def State.portTaken (s : State) (j : Slot) (c : PortCfg) : State :=
  let old := (s.slot j).cfg
  let s0 := s.putSlot j ((s.slot j).withCfg c)
  let shut : Bool := old.gate ≠ c.gate && c.gate < s.sw.quality
  let s1 := if shut then State.emptyQueue j s0 .timed else s0
  let sp := s1.changeSlot j ((s1.slot j).repolicy old.policy)
  let s2 := if shut then sp.kickSlot j else sp
  if old.timedLimit < c.timedLimit || old.bulkLimit < c.bulkLimit then s2.roomReport else s2

theorem State.applyPort_eq (s : State) (j : Slot) (c : PortCfg) : s.applyPort j c =
    ((s.portTaken j c).provisionChanged j (s.slot j).cfg.provisioned c.provisioned).judgeSeated j := rfl

/-- R182: a record that leaves the time gate open: the entry is `e`. -/
theorem State.portTaken_open {j : Slot} {c : PortCfg} {e : SlotEntry} (hs : ¬ s.shuts j c)
    (h : ((s.putSlot j ((s.slot j).withCfg c)).changeSlot j (((s.slot j).withCfg c).repolicy (s.slot j).cfg.policy)).apart =
      (s.becomes j e).apart) : (s.portTaken j c).apart = ((s.limitsTold j c).becomes j e).apart := by
  have hshut : (decide ((s.slot j).cfg.gate ≠ c.gate) && decide (c.gate < s.sw.quality)) = false := by
    rw [Bool.and_eq_false_iff, decide_eq_false_iff_not, decide_eq_false_iff_not]
    by_cases hg : (s.slot j).cfg.gate = c.gate
    · exact .inl (not_not.mpr hg)
    · exact .inr fun hq => hs ⟨Ne.symm hg, hq⟩
  unfold State.portTaken
  extract_lets old s0 shut s1 sp s2
  have hsp : sp = (s.putSlot j ((s.slot j).withCfg c)).changeSlot j (((s.slot j).withCfg c).repolicy (s.slot j).cfg.policy) := by
    unfold sp s1 shut old s0
    rw [hshut, if_neg Bool.false_ne_true, State.putSlot_slot_self]
  have h2 : s2.apart = (s.becomes j e).apart := by
    rw [← h, ← hsp]
    unfold s2 shut old
    rw [hshut, if_neg Bool.false_ne_true]
  have hroom : s2.roomReport.apart = (s.roomReport.becomes j e).apart := by
    refine Eq.trans (b := s2.apart.roomReport.apart) rfl ?_
    rw [h2]
    unfold State.becomes
    have hslot : s.roomReport.slot j = s.slot j := rfl
    rw [hslot]
    split <;> rfl
  unfold State.limitsTold old
  by_cases hr : (s.slot j).cfg.timedLimit < c.timedLimit ∨ (s.slot j).cfg.bulkLimit < c.bulkLimit
  · rw [if_pos hr, if_pos (by rw [Bool.or_eq_true, decide_eq_true_eq, decide_eq_true_eq]; exact hr), hroom]
  · rw [if_neg hr, if_neg (by rw [Bool.or_eq_true, decide_eq_true_eq, decide_eq_true_eq]; exact hr), h2]

theorem State.limitsTold_slot (s : State) (j : Slot) (c : PortCfg) (i : Slot) : (s.limitsTold j c).slot i = s.slot i := by
  unfold State.limitsTold
  split <;> rfl

/-- An entry replaced twice, the first time with the same summary. -/
theorem State.putSlot_putSlot_same {j : Slot} {e f : SlotEntry} (h : e.summary = (s.slot j).summary) :
    ((s.putSlot j e).putSlot j f).apart = (s.becomes j f).apart := by
  rw [State.putSlot_congr (s.putSlot_apart j e), State.becomes_same (s := s) (e := e) h.symm]
  unfold State.becomes State.slotBecomes
  rw [State.slot_setSlot_self, State.setSlot_setSlot, h]

/-- R182: a record that changes neither policy nor gate. -/
theorem State.portTaken_same {j : Slot} {c : PortCfg} (hs : ¬ s.shuts j c) (hp : c.policy = (s.slot j).cfg.policy) :
    (s.portTaken j c).apart = ((s.limitsTold j c).setSlot j ((s.slot j).withCfg c)).apart := by
  have hslot := s.putSlot_slot_self j ((s.slot j).withCfg c)
  have hbreaks (e : SlotEntry) : e.breaksRef e = false := by
    unfold SlotEntry.breaksRef
    simp
  refine (State.portTaken_open (e := (s.slot j).withCfg c) hs ?_).trans ?_
  · rw [SlotEntry.repolicy_same (show (s.slot j).cfg.policy = ((s.slot j).withCfg c).cfg.policy from hp.symm),
      State.changeSlot_alike (by rw [hslot]) (by rw [hslot]) (by rw [hslot]) (.inl (by rw [hslot]; exact hbreaks _)),
      State.putSlot_putSlot_same (e := (s.slot j).withCfg c) rfl]
  · rw [State.becomes_same]
    rw [State.limitsTold_slot]
    rfl

/-- R159, R161, R182: a record that changes the policy, the gate left open, nothing in the slot being waited for. -/
theorem State.portTaken_policy {j : Slot} {c : PortCfg} (hs : ¬ s.shuts j c) (hstill : s.slotStill j) {e : SlotEntry}
    (he : ((s.slot j).withCfg c).repolicy (s.slot j).cfg.policy = e) (hst : e.state = (s.slot j).state)
    (hf : e.fenced = (s.slot j).fenced) : (s.portTaken j c).apart = ((s.limitsTold j c).becomes j e).apart := by
  have hslot := s.putSlot_slot_self j ((s.slot j).withCfg c)
  obtain ⟨hlanes, hq, hentry, htx, hrefs, hcards⟩ := hstill
  refine State.portTaken_open hs ?_
  rw [he, State.changeSlot_still, State.putSlot_putSlot_same (e := (s.slot j).withCfg c) rfl]
  constructor
  · intro p _ _
    unfold State.lane
    rw [State.putSlot_lanes, State.putSlot_sw]
    exact ⟨hlanes p, fun _ => hq⟩
  · right
    rw [State.putSlot_ring]
    exact htx
  · right
    rw [State.putSlot_sw]
    exact hq
  · intro ha hn
    rw [hslot] at ha
    exact absurd (hst.trans ha) hn
  · right
    intro k
    unfold State.ref
    rw [State.putSlot_time]
    exact hrefs k

end Sys2Proof.Machine
end

section
/-! SUPPORT. PORT records of a slot, case by case (O37). -/

namespace Sys2Proof.Machine

open Sys2Proof

variable {s t u v x y : State} {i j : Slot} {c : PortCfg} {e : SlotEntry} {was : Bool}

/-! ## What a change of provisioning does (R72, R182) -/

/-- The slot states that a card no longer provisioned leaves (R72, R182). -/
def SlotState.withdraws (st : SlotState) : Bool :=
  st == .powering || st == .training || st == .identifying || st == .admitted

theorem State.provisionChanged_none {now : Bool} (h : (was && !now) = false ∨ (x.slot j).state.withdraws = false) :
    x.provisionChanged j was now = x := by
  unfold State.provisionChanged
  split
  · rename_i hw
    have hs := h.resolve_left (by rw [hw]; exact Bool.noConfusion)
    have leaves {st : SlotState} (hst : (x.slot j).state = st) (hw : st.withdraws = true) : False := by
      rw [hst, hw] at hs
      cases hs
    split
    case h_1 hst => exact (leaves hst rfl).elim
    case h_2 hst => exact (leaves hst rfl).elim
    case h_3 hst => exact (leaves hst rfl).elim
    case h_4 hst => exact (leaves hst rfl).elim
    case h_5 => rfl
  · rfl

/-- Two states alike apart from the port's bookkeeping have the same slots. -/
theorem State.slot_of_apart (h : x.apart = y.apart) (i : Slot) : x.slot i = y.slot i := (congrArg (fun z : State => z.slot i) h :)

theorem State.mayPower_of_apart (h : x.apart = y.apart) (i : Slot) : x.mayPower i = y.mayPower i :=
  (congrArg (fun z : State => z.mayPower i) h :)

theorem State.slotDark_of_apart (h : x.apart = y.apart) (hd : y.slotDark i) : x.slotDark i := by
  change x.apart.slotDark i
  rw [h]
  exact hd

theorem State.slotStill_of_apart (h : x.apart = y.apart) (hd : y.slotStill i) : x.slotStill i := by
  change x.apart.slotStill i
  rw [h]
  exact hd

theorem State.osc_of_apart (h : x.apart = y.apart) : x.osc = y.osc := (congrArg State.osc h :)

theorem State.slotBecomes_congr (h : x.apart = y.apart) (i : Slot) (e : SlotEntry) :
    (x.slotBecomes i e).apart = (y.slotBecomes i e).apart := by
  rw [State.slotBecomes_apart, h, ← State.slotBecomes_apart]

theorem State.slotBecomes_slot (s : State) (j : Slot) (e : SlotEntry) : (s.slotBecomes j e).slot j = e :=
  State.slot_setSlot_self (s := s) j e

theorem State.mayPower_unprovisioned (h : (x.slot j).cfg.provisioned = false) : x.mayPower j = false := by
  unfold State.mayPower
  rw [h, Bool.and_false, Bool.false_and]

/-- R72: an unprovisioned card in POWERING. -/
theorem State.withdraw_powering (h : x.apart = (y.setSlot j e).apart) (hst : e.state = .powering) (hw : was = true)
    (hp : e.cfg.provisioned = false) (hd : (y.setSlot j e).slotDark j) :
    ((x.provisionChanged j was false).judgeSeated j).apart = (y.slotBecomes j { e with
      state := .seated, timer := none, pwren := false, override := false }).apart := by
  have hslot : x.slot j = e := (State.slot_of_apart h j).trans (State.slot_setSlot_self ..)
  have hmove := State.enterSeated_stays (s := x) (i := j) (f := id) (State.slotDark_of_apart h hd)
    (by rw [hslot, hst]; exact ⟨by decide, by decide⟩) (by rw [hslot, hst]; decide) (SlotEntry.prepares_refl _)
    (by rw [hslot, hst]; rfl) (State.mayPower_unprovisioned (by rw [hslot]; exact hp))
  rw [id, hslot, SlotEntry.enterDark_clears rfl] at hmove
  have hchange : x.provisionChanged j was false = x.enterSeated j id := by
    unfold State.provisionChanged
    rw [hw, hslot, hst]
    rfl
  rw [hchange, State.judgeSeated_still (.inr (State.mayPower_unprovisioned ?_)), hmove, State.slotBecomes_congr h,
    State.setSlot_slotBecomes]
  · rfl
  · rw [State.slot_of_apart hmove, State.slotBecomes_slot]
    exact hp

/-- R72: an unprovisioned card in TRAINING or IDENTIFYING, its lanes not UP. -/
theorem State.withdraw_training (h : x.apart = (y.setSlot j e).apart) (hst : e.state = .training ∨ e.state = .identifying)
    (hw : was = true) (hp : e.cfg.provisioned = false) (hd : (y.setSlot j e).slotDark j) :
    ((x.provisionChanged j was false).judgeSeated j).apart =
      (State.slotBecomes { y with lanes := vset y.lanes j (vget y.lanes j).disabled } j { e with
        state := .seated, timer := none, pwren := false, override := false, laneA := .off, laneB := .off }).apart := by
  have hslot : x.slot j = e := (State.slot_of_apart h j).trans (State.slot_setSlot_self ..)
  have hmove := State.enterSlot_darkens (s := x) (i := j) (f := id) .seated (State.slotDark_of_apart h hd)
    (by rw [hslot]; obtain hst | hst := hst <;> rw [hst] <;> exact ⟨by decide, by decide⟩) (by decide) (SlotEntry.prepares_refl _)
    (by rw [hslot]; obtain hst | hst := hst <;> rw [hst] <;> rfl) rfl
  rw [id, hslot, SlotEntry.enterDark_clears rfl] at hmove
  have hstays (z : State) (hz : z.apart = (x.enterSlot j .seated id).apart) : z.judgeSeated j = z :=
    State.judgeSeated_still (.inr (State.mayPower_unprovisioned (by
      rw [State.slot_of_apart (hz.trans hmove), State.slotBecomes_slot]
      exact hp)))
  have hchange : x.provisionChanged j was false = x.enterSeated j id := by
    unfold State.provisionChanged
    rw [hw, hslot]
    obtain hst | hst := hst <;> rw [hst] <;> rfl
  rw [hchange, State.enterSeated, hstays _ rfl, hstays _ rfl, hmove]
  refine Eq.trans (b := (State.slotBecomes { x.apart with lanes := vset x.apart.lanes j (vget x.apart.lanes j).disabled } j
    { e with state := .seated, timer := none, pwren := false, override := false, laneA := .off, laneB := .off }).apart) rfl ?_
  rw [h]
  refine Eq.trans (b := (State.slotBecomes (State.setSlot { y with lanes := vset y.lanes j (vget y.lanes j).disabled } j e) j
    { e with state := .seated, timer := none, pwren := false, override := false, laneA := .off, laneB := .off }).apart) rfl ?_
  rw [State.setSlot_slotBecomes]

/-- R71, R72: an unprovisioned card in ADMITTED, nothing in the slot being waited for. -/
theorem State.withdraw_admitted (h : x.apart = (y.setSlot j e).apart) (hst : e.state = .admitted) (hw : was = true)
    (hd : (y.setSlot j e).slotStill j) :
    ((x.provisionChanged j was false).judgeSeated j).apart = (y.slotBecomes j { e with
      state := .draining, drainCause := .unprovision, timer := some (y.osc + 10000000), pwren := true }).apart := by
  have hslot : x.slot j = e := (State.slot_of_apart h j).trans (State.slot_setSlot_self ..)
  have hosc : x.osc = y.osc := State.osc_of_apart (y := y.setSlot j e) h
  have hmove := State.enterDraining_still (s := x) (i := j) .unprovision (State.slotStill_of_apart h hd) (by rw [hslot]; exact hst)
  rw [hslot, hosc] at hmove
  have hchange : x.provisionChanged j was false = x.enterDraining j .unprovision := by
    unfold State.provisionChanged
    rw [hw, hslot, hst]
    rfl
  rw [hchange, State.judgeSeated_still (.inl ?_), hmove, State.putSlot_moves ?_, State.slotBecomes_congr h, State.setSlot_slotBecomes]
  · rw [hslot, hst]
    exact SlotState.noConfusion
  · rw [hmove, State.putSlot_slot_self]
    exact SlotState.noConfusion

/-- R62, R182: a SEATED slot that is now provisioned is powered. -/
theorem State.provisioned_powers (h : x.apart = (y.setSlot j e).apart) (hst : e.state = .seated) (hp : e.cfg.provisioned = true)
    (hl : e.latch = true) (hh : y.cmd.hub.allowsPowering = true) (hg : e.pgood = false) (hd : (y.setSlot j e).slotDark j) :
    ((x.provisionChanged j was true).judgeSeated j).apart = (y.slotBecomes j { e with
      state := .powering, timer := some (y.osc + 20000000), pwren := true }).apart := by
  have hslot : x.slot j = e := (State.slot_of_apart h j).trans (State.slot_setSlot_self ..)
  have hosc : x.osc = y.osc := State.osc_of_apart (y := y.setSlot j e) h
  have hhub : x.cmd.hub = y.cmd.hub := (congrArg (fun z : State => z.cmd.hub) h :)
  have hpow : x.powersSeated j = true := by
    unfold State.powersSeated State.mayPower
    rw [hslot, hst, hp, hl, hhub, hh]
    rfl
  have hone := State.judgeSeated_one hpow (State.slotDark_of_apart h hd) (by rw [hslot]; exact hg)
  unfold State.poweredEntry at hone
  rw [hslot, hosc] at hone
  rw [State.provisionChanged_none (.inl (Bool.and_false _)), hone, State.putSlot_moves ?_, State.slotBecomes_congr h,
    State.setSlot_slotBecomes]
  rw [hslot, hst]
  exact SlotState.noConfusion

/-- R182: nothing further to do. -/
theorem State.provision_stays {now : Bool} (h : x.apart = y.apart) (hw : ¬ (was = true ∧ now = false ∧ (y.slot j).state.withdraws = true))
    (hp : ¬ ((y.slot j).state = .seated ∧ y.mayPower j = true)) :
    ((x.provisionChanged j was now).judgeSeated j).apart = y.apart := by
  have hslot := State.slot_of_apart h j
  rw [State.provisionChanged_none, State.judgeSeated_still, h]
  · rw [hslot, State.mayPower_of_apart h]
    by_cases hs : (y.slot j).state = .seated
    · exact .inr (Bool.eq_false_iff.mpr fun hm => hp ⟨hs, hm⟩)
    · exact .inl hs
  · rw [hslot]
    cases was with
    | false => exact .inl rfl
    | true =>
      cases now with
      | true => exact .inl rfl
      | false => exact .inr (Bool.eq_false_iff.mpr fun hm => hw ⟨rfl, rfl, hm⟩)

end Sys2Proof.Machine
end

section
/-! SUPPORT. PORT records that shut the time gate, and the settling of O37. -/

namespace Sys2Proof.Machine

open Sys2Proof

variable {s t u v x y : State} {i j : Slot} {c : PortCfg} {e : SlotEntry} {was : Bool} {a : Addr} {k : Table} {n : Nat} {ws : List Word}

/-! ## Records that shut the time gate (R92, R182) -/

theorem State.shuts_iff (s : State) (j : Slot) (c : PortCfg) :
    (decide ((s.slot j).cfg.gate ≠ c.gate) && decide (c.gate < s.sw.quality)) = true ↔ s.shuts j c := by
  rw [Bool.and_eq_true, decide_eq_true_eq, decide_eq_true_eq]
  exact and_congr_left' ne_comm

theorem SlotEntry.repolicy_cfg (e : SlotEntry) (old : PlanePolicy) : (e.repolicy old).cfg = e.cfg := by
  unfold SlotEntry.repolicy SlotEntry.choosePlane
  split
  · rfl
  · dsimp only
    split
    · split <;> rfl
    · rfl

/-- R182: a record that shuts the gate, its TIMED queue emptied. -/
theorem State.portTaken_shut (h : s.shuts j c) (hu : u = State.emptyQueue j (s.putSlot j ((s.slot j).withCfg c)) .timed) :
    s.portTaken j c = if (s.slot j).cfg.timedLimit < c.timedLimit || (s.slot j).cfg.bulkLimit < c.bulkLimit
      then ((u.changeSlot j ((u.slot j).repolicy (s.slot j).cfg.policy)).kickSlot j).roomReport
      else (u.changeSlot j ((u.slot j).repolicy (s.slot j).cfg.policy)).kickSlot j := by
  unfold State.portTaken
  dsimp only
  rw [(State.shuts_iff s j c).mpr h, if_pos rfl, if_pos rfl, hu]

/-- R92, R182: what a record that shuts the gate leaves of the TIMED queue and of the controller-set fields. -/
theorem State.portTaken_shuts (h : s.shuts j c) : (s.portTaken j c).nilAt j .timed ∧ ((s.portTaken j c).slot j).cfg = c := by
  obtain ⟨s0, hs0⟩ : ∃ s0, s0 = s.putSlot j ((s.slot j).withCfg c) := ⟨_, rfl⟩
  obtain ⟨u, hu⟩ : ∃ u, u = State.emptyQueue j s0 .timed := ⟨_, rfl⟩
  have hnil : u.nilAt j .timed := by
    rw [hu]
    exact State.emptyQueue_queue j s0 .timed
  have hcfg : (u.slot j).cfg = c := by
    unfold State.slot
    rw [hu, State.emptyQueue_sm]
    change (s0.slot j).cfg = c
    rw [hs0, State.putSlot_slot_self]
    rfl
  have hkick (v : State) (hv : v.nilAt j .timed ∧ (v.slot j).cfg = c) : (v.kickSlot j).nilAt j .timed ∧ ((v.kickSlot j).slot j).cfg = c := by
    refine ⟨State.nilAt_of_queues (v.kickSlot_queues j) hv.1, ?_⟩
    unfold State.slot
    rw [State.kickSlot_sm]
    exact hv.2
  have hchange := State.changeSlot_nilAt (new := (u.slot j).repolicy (s.slot j).cfg.policy) (j := j) (.inl hnil)
  have hslot := u.changeSlot_slot j ((u.slot j).repolicy (s.slot j).cfg.policy)
  rw [State.portTaken_shut h (hs0 ▸ hu)]
  generalize u.changeSlot j ((u.slot j).repolicy (s.slot j).cfg.policy) = v at hchange hslot
  have hv := hkick v ⟨hchange, by rw [hslot, SlotEntry.repolicy_cfg, hcfg]⟩
  generalize v.kickSlot j = w at hv
  split
  · exact hv
  · exact hv

theorem State.applyPort_shuts (h : s.shuts j c) : (s.applyPort j c).nilAt j .timed ∧ ((s.applyPort j c).slot j).cfg = c := by
  obtain ⟨h1, h2⟩ := State.portTaken_shuts h
  rw [State.applyPort_eq]
  exact ⟨State.judgeSeated_nilAt j (State.provisionChanged_nilAt j _ _ h1),
    (State.judgeSeated_cfg ..).trans ((State.provisionChanged_cfg ..).trans h2)⟩

theorem TxMove.roomSeen_roomSeen (m : TxMove) : m.roomSeen.roomSeen = m.roomSeen := by
  obtain ⟨d, p⟩ := m
  cases p <;> rfl

/-- The queues of a slot once its single TIMED frame has been flushed (R90). -/
def State.timedFlushed (s : State) (j : Slot) (f : Stored) : SwitchCore :=
  { s.sw.setQueue j .timed EgressQueue.nil with
    free := s.sw.free + f.blocks, stored := s.sw.stored.filter (·.id ≠ f.id)
    counters := vset s.sw.counters (portOf j) { vget s.sw.counters (portOf j) with
      flushed := min ((vget s.sw.counters (portOf j)).flushed + 1) 4294967295 } }

/-- R90: a TIMED queue with one frame in it, its last reference, is emptied while the slot's lanes transmit nothing. -/
theorem State.emptyQueue_one {f : Stored} (hq : s.sw.queue j .timed = ⟨[f.id], []⟩) (hf : s.sw.find f.id = some f)
    (hr : f.refs = 1) (hl : ∀ p, (s.lane j p).tx = .none) :
    (State.emptyQueue j s .timed).apart = ({ s with
      sw := s.timedFlushed j f, ring := { s.ring with tx := s.ring.tx.map TxMove.roomSeen } } : State).apart := by
  have habandon (p : Plane) : State.abandonTx j .timed s p = s := by
    unfold State.abandonTx
    dsimp only
    rw [hl p]
  have hlast := SwitchCore.dropRef_last (w := (s.sw.setQueue j .timed EgressQueue.nil).bump (portOf j) (·.countFlushed 1)) (f := f)
    hf (by omega)
  unfold State.emptyQueue
  rw [hq]
  dsimp only
  rw [List.foldl_cons, List.foldl_cons, List.foldl_nil, habandon, habandon, if_neg (by exact Bool.false_ne_true)]
  unfold SwitchCore.dropRefs
  rw [List.append_nil, List.foldl_cons, List.foldl_nil, List.length_singleton, hlast]
  rfl

/-- R90, R92, R182: a record that shuts the gate with one frame in the TIMED queue. -/
theorem State.portTaken_flushes {f : Stored} (h : s.shuts j c) (hp : c.policy = (s.slot j).cfg.policy)
    (hq : s.sw.queue j .timed = ⟨[f.id], []⟩) (hf : s.sw.find f.id = some f) (hr : f.refs = 1)
    (hb : s.sw.queue j .bulk = EgressQueue.nil) (hl : ∀ p, (s.lane j p).tx = .none ∧ (s.lane j p).queue = []) :
    (s.portTaken j c).apart = (State.setSlot { s with
      sw := s.timedFlushed j f, ring := { s.ring with tx := s.ring.tx.map TxMove.roomSeen } } j ((s.slot j).withCfg c)).apart := by
  have hshut := (State.shuts_iff s j c).mpr h
  obtain ⟨s0, hs0⟩ : ∃ s0, s0 = s.putSlot j ((s.slot j).withCfg c) := ⟨_, rfl⟩
  have hslot : s0.slot j = (s.slot j).withCfg c := by
    rw [hs0, State.putSlot_slot_self]
  have hsw : s0.sw = s.sw := by rw [hs0, State.putSlot_sw]
  have hlanes : s0.lanes = s.lanes := by rw [hs0, State.putSlot_lanes]
  have h0 : s0.apart = (s.setSlot j ((s.slot j).withCfg c)).apart := by
    rw [hs0, State.putSlot_apart, State.becomes_same (e := (s.slot j).withCfg c) rfl]
  have h1 := State.emptyQueue_one (s := s0) (j := j) (by rw [hsw]; exact hq) (by rw [hsw]; exact hf) hr fun p => by
    unfold State.lane
    rw [hlanes]
    exact (hl p).1
  obtain ⟨s1, hs1⟩ : ∃ s1, s1 = State.emptyQueue j s0 .timed := ⟨_, rfl⟩
  rw [← hs1] at h1
  obtain ⟨z, hz⟩ : ∃ z : State, z = State.setSlot { s with
    sw := s.timedFlushed j f
    ring := { s.ring with tx := s.ring.tx.map TxMove.roomSeen } } j ((s.slot j).withCfg c) := ⟨_, rfl⟩
  have h1' : s1.apart = z.apart := by
    rw [h1, hz]
    refine Eq.trans (b := ({ s0.apart with
      sw := State.timedFlushed s0.apart j f
      ring := { s0.apart.ring with tx := s0.apart.ring.tx.map TxMove.roomSeen } } : State)) rfl ?_
    rw [h0]
    rfl
  rw [← hz]
  have hslot1 : s1.slot j = (s.slot j).withCfg c := by
    rw [State.slot_of_apart h1', hz, State.slot_setSlot_self]
  have hbreaks (e : SlotEntry) : e.breaksRef e = false := by
    unfold SlotEntry.breaksRef
    simp
  have hchange : (s1.changeSlot j ((s1.slot j).repolicy (s.slot j).cfg.policy)).apart = z.apart := by
    rw [hslot1, SlotEntry.repolicy_same (show (s.slot j).cfg.policy = ((s.slot j).withCfg c).cfg.policy from hp.symm),
      State.changeSlot_alike (by rw [hslot1]) (by rw [hslot1]) (by rw [hslot1]) (.inl (by rw [hslot1]; exact hbreaks _)),
      State.putSlot_congr h1', State.becomes_same (by rw [hz, State.slot_setSlot_self]), hz, State.setSlot_setSlot]
  rw [State.portTaken_shut h (hs0 ▸ hs1)]
  generalize s1.changeSlot j ((s1.slot j).repolicy (s.slot j).cfg.policy) = v at hchange
  have hqueues (d : Cls) : v.sw.queue j d = EgressQueue.nil := by
    have hv : v.sw = State.timedFlushed s j f := (congrArg State.sw hchange :).trans (by rw [hz]; rfl)
    rw [hv]
    cases d with
    | timed => exact SwitchCore.queue_setQueue_self ..
    | bulk => exact (SwitchCore.queue_setQueue_ne s.sw (c := .timed) (d := .bulk) EgressQueue.nil (.inr nofun)).trans hb
  have hkick : v.kickSlot j = v := State.kickSlot_still fun p _ _ => by
    have hv : v.lane j p = s.lane j p := (congrArg (fun y : State => y.lane j p) hchange :).trans (by rw [hz]; rfl)
    rw [hv]
    exact ⟨(hl p).2, fun _ => hqueues⟩
  have hroom : v.roomReport.apart = z.apart := by
    refine Eq.trans (b := (v.apart.roomReport).apart) rfl ?_
    have htx : (s.ring.tx.map TxMove.roomSeen).map TxMove.roomSeen = s.ring.tx.map TxMove.roomSeen := by
      cases s.ring.tx with
      | none => rfl
      | some m => exact congrArg some m.roomSeen_roomSeen
    rw [hchange, hz]
    exact congrArg (fun x => (State.setSlot { s with
      sw := s.timedFlushed j f
      ring := { s.ring with tx := x } } j ((s.slot j).withCfg c)).apart) htx
  rw [hkick]
  split
  · exact hroom
  · exact hchange

/-! ## Records that change the policy (R159, R161, R182) -/

/-- R159, R161: the plane that an entry should move to. -/
theorem SlotEntry.wantsPlane_iff (e : SlotEntry) (q : Plane) : e.wantsPlane = some q ↔ q ≠ e.active ∧ e.laneState q = .up ∧
    (e.cfg.policy = .auto ∧ e.laneState e.active ≠ .up ∨ e.cfg.policy = .pinA ∧ q = .a ∨ e.cfg.policy = .pinB ∧ q = .b) := by
  unfold SlotEntry.wantsPlane SlotEntry.laneState
  generalize e.active = p
  generalize e.laneA = x
  generalize e.laneB = y
  simp only [Bool.and_eq_true, decide_eq_true_eq]
  cases e.cfg.policy with
  | auto => cases p <;> cases q <;> simp [Plane.other, and_comm]
  | pinA => cases p <;> cases q <;> simp
  | pinB => cases p <;> cases q <;> simp

/-- R159, R161: an entry that stays on its plane. -/
theorem SlotEntry.choosePlane_stays (h : ¬ (e.state = .admitted ∨ e.state = .draining) ∨ e.wantsPlane = none) : e.choosePlane = e := by
  unfold SlotEntry.choosePlane
  split
  · rename_i hs
    rw [Bool.or_eq_true, decide_eq_true_eq, decide_eq_true_eq] at hs
    rw [h.resolve_left (not_not.mpr hs)]
  · rfl

theorem SlotEntry.choosePlane_moves {q : Plane} (h : e.state = .admitted ∨ e.state = .draining) (hq : e.wantsPlane = some q) :
    e.choosePlane = { e with active := q, alt := 0 } := by
  unfold SlotEntry.choosePlane
  rw [if_pos (by rw [Bool.or_eq_true, decide_eq_true_eq, decide_eq_true_eq]; exact h), hq]
  rfl

/-! ## PORT records, case by case (R182) -/

theorem State.limitsTold_eq (s : State) (j : Slot) (c : PortCfg) : s.limitsTold j c = { s with
    ring := if (s.slot j).cfg.timedLimit < c.timedLimit ∨ (s.slot j).cfg.bulkLimit < c.bulkLimit
      then { s.ring with tx := s.ring.tx.map TxMove.roomSeen } else s.ring } := by
  unfold State.limitsTold
  split <;> rfl

theorem State.limitsTold_still (h : s.slotStill j) : (s.limitsTold j c).slotStill j := by
  unfold State.limitsTold
  split
  · rw [State.roomReport_still h.2.2.2.1]
    exact h
  · exact h

theorem State.limitsTold_dark (h : s.slotDark j) : (s.limitsTold j c).slotDark j := by
  unfold State.limitsTold
  split <;> exact h

theorem State.limitsTold_rest (s : State) (j : Slot) (c : PortCfg) : (s.limitsTold j c).cmd = s.cmd ∧ (s.limitsTold j c).osc = s.osc := by
  unfold State.limitsTold
  split <;> exact ⟨rfl, rfl⟩

/-- What is known of a record that changes neither policy nor gate. -/
def State.plainRecord (s : State) (j : Slot) (c : PortCfg) : Prop := ¬ s.shuts j c ∧ c.policy = (s.slot j).cfg.policy

/-- Is the card of the slot withdrawn by the record (R72)? -/
def State.withdrawn (s : State) (j : Slot) (c : PortCfg) : Prop := (s.slot j).cfg.provisioned = true ∧ c.provisioned = false

theorem State.setCfg_dark (h : s.slotDark j) : ((s.limitsTold j c).setSlot j ((s.slot j).withCfg c)).slotDark j :=
  State.slotDark_setSlot (State.limitsTold_dark h) (by rw [State.limitsTold_slot]; rfl) (by rw [State.limitsTold_slot]; rfl)

theorem State.applyPort_stays (h : s.plainRecord j c) (hw : ¬ (s.withdrawn j c ∧ (s.slot j).state.withdraws = true))
    (hn : ¬ ((s.slot j).state = .seated ∧ s.cmd.hub.allowsPowering = true ∧ c.provisioned = true ∧ (s.slot j).latch = true)) :
    (s.applyPort j c).apart = ((s.limitsTold j c).setSlot j ((s.slot j).withCfg c)).apart := by
  rw [State.applyPort_eq]
  refine State.provision_stays (State.portTaken_same h.1 h.2) ?_ ?_
  · rintro ⟨h1, h2, h3⟩
    rw [State.slot_setSlot_self] at h3
    exact hw ⟨⟨h1, h2⟩, h3⟩
  · rintro ⟨h1, h2⟩
    unfold State.mayPower at h2
    rw [State.slot_setSlot_self] at h1 h2
    rw [Bool.and_eq_true, Bool.and_eq_true] at h2
    obtain ⟨⟨h2, h3⟩, h4⟩ := h2
    exact hn ⟨h1, by rw [← (s.limitsTold_rest j c).1]; exact h2, h3, h4⟩

theorem State.applyPort_unpowers (h : s.plainRecord j c) (hw : s.withdrawn j c) (hst : (s.slot j).state = .powering)
    (hd : s.slotDark j) : (s.applyPort j c).apart = ((s.limitsTold j c).slotBecomes j { (s.slot j).withCfg c with
      state := .seated, timer := none, pwren := false, override := false }).apart := by
  rw [State.applyPort_eq, hw.2]
  exact State.withdraw_powering (State.portTaken_same h.1 h.2) hst hw.1 hw.2 (State.setCfg_dark hd)

theorem State.applyPort_untrains (h : s.plainRecord j c) (hw : s.withdrawn j c)
    (hst : (s.slot j).state = .training ∨ (s.slot j).state = .identifying) (hd : s.slotDark j) : (s.applyPort j c).apart =
      (State.slotBecomes { s.limitsTold j c with
        lanes := vset (s.limitsTold j c).lanes j (vget (s.limitsTold j c).lanes j).disabled } j { (s.slot j).withCfg c with
          state := .seated, timer := none, pwren := false, override := false, laneA := .off, laneB := .off }).apart := by
  rw [State.applyPort_eq, hw.2]
  exact State.withdraw_training (State.portTaken_same h.1 h.2) hst hw.1 hw.2 (State.setCfg_dark hd)

theorem State.applyPort_drains (h : s.plainRecord j c) (hw : s.withdrawn j c) (hst : (s.slot j).state = .admitted)
    (hd : s.slotStill j) : (s.applyPort j c).apart = ((s.limitsTold j c).slotBecomes j { (s.slot j).withCfg c with
      state := .draining, drainCause := .unprovision, timer := some (s.osc + 10000000), pwren := true }).apart := by
  rw [State.applyPort_eq, hw.2, ← (s.limitsTold_rest j c).2]
  exact State.withdraw_admitted (State.portTaken_same h.1 h.2) hst hw.1 (State.slotStill_setSlot _ (State.limitsTold_still hd))

theorem State.applyPort_powers (h : s.plainRecord j c) (hst : (s.slot j).state = .seated) (hh : s.cmd.hub.allowsPowering = true)
    (hp : c.provisioned = true) (hl : (s.slot j).latch = true) (hg : (s.slot j).pgood = false) (hd : s.slotDark j) :
    (s.applyPort j c).apart = ((s.limitsTold j c).slotBecomes j { (s.slot j).withCfg c with
      state := .powering, timer := some (s.osc + 20000000), pwren := true }).apart := by
  rw [State.applyPort_eq, hp, ← (s.limitsTold_rest j c).2]
  exact State.provisioned_powers (State.portTaken_same h.1 h.2) hst hp hl (by rw [(s.limitsTold_rest j c).1]; exact hh) hg
    (State.setCfg_dark hd)

theorem State.becomes_slot (s : State) (j : Slot) (e : SlotEntry) : (s.becomes j e).slot j = e := by
  unfold State.becomes
  split
  · exact State.slot_setSlot_self ..
  · exact State.slotBecomes_slot ..

/-- R159, R161, R182: a new policy, with the plane that it asks for. -/
theorem State.applyPort_policy (hs : ¬ s.shuts j c) (hd : s.slotStill j) (hw : ¬ s.withdrawn j c) (hst : (s.slot j).state ≠ .seated)
    (he : ((s.slot j).withCfg c).repolicy (s.slot j).cfg.policy = e) (hstate : e.state = (s.slot j).state)
    (hf : e.fenced = (s.slot j).fenced) : (s.applyPort j c).apart = ((s.limitsTold j c).becomes j e).apart := by
  rw [State.applyPort_eq]
  refine State.provision_stays (State.portTaken_policy hs hd he hstate hf) (fun h => hw ⟨h.1, h.2.1⟩) fun h => hst ?_
  rw [State.becomes_slot, hstate] at h
  exact h.1

theorem State.applyPort_flushes {f : Stored} (h : s.shuts j c) (hp : c.policy = (s.slot j).cfg.policy) (hw : ¬ s.withdrawn j c)
    (hst : (s.slot j).state ≠ .seated) (hq : s.sw.queue j .timed = ⟨[f.id], []⟩) (hf : s.sw.find f.id = some f) (hr : f.refs = 1)
    (hb : s.sw.queue j .bulk = EgressQueue.nil) (hl : ∀ p, (s.lane j p).tx = .none ∧ (s.lane j p).queue = []) :
    (s.applyPort j c).apart = (State.setSlot { s with
      sw := s.timedFlushed j f, ring := { s.ring with tx := s.ring.tx.map TxMove.roomSeen } } j ((s.slot j).withCfg c)).apart := by
  rw [State.applyPort_eq]
  refine State.provision_stays (State.portTaken_flushes h hp hq hf hr hb hl) (fun h => hw ⟨h.1, h.2.1⟩) fun h => hst ?_
  rw [State.slot_setSlot_self] at h
  exact h.1

end Sys2Proof.Machine
end

section
/-! SUPPORT. ALARM_POINT records, and the settling of O37. -/

namespace Sys2Proof.Machine

open Sys2Proof

variable {s t u v x y : State} {i j : Slot} {c : PortCfg} {e : SlotEntry} {a : Addr} {k : Table} {n : Nat} {ws got : List Word}

/-! ## ALARM_POINT records (R183) -/

/-- R183: the same source, in the words of the record's fields. -/
theorem sameSource_iff (p c : PointCfg) : sameSource p c = true ↔ p.enabled = true ∧ c.enabled = true ∧ c.kind = p.kind ∧
    c.selector = p.selector ∧ (p.kind = .contact → c.whenOpen = p.whenOpen) := by
  unfold sameSource
  simp only [Bool.and_eq_true, Bool.or_eq_true, beq_iff_eq, bne_iff_ne, ne_eq]
  constructor
  · rintro ⟨⟨⟨⟨h1, h2⟩, h3⟩, h4⟩, h5⟩
    exact ⟨h1, h2, h3.symm, h4.symm, fun h => (h5.resolve_left (not_not.mpr h)).symm⟩
  · rintro ⟨h1, h2, h3, h4, h5⟩
    refine ⟨⟨⟨⟨h1, h2⟩, h3.symm⟩, h4.symm⟩, ?_⟩
    by_cases h : p.kind = .contact
    · exact .inr (h5 h).symm
    · exact .inl h

theorem State.judgeRelays_apart {m : AlarmUnit} (h : x.apart = ({ y with alarm := m } : State).apart) :
    x.judgeRelays.apart = ({ y with alarm := m.judged y.cmd.hub.relaysOn } : State).apart := by
  refine Eq.trans (b := x.apart.judgeRelays) rfl ?_
  rw [h]
  rfl

theorem State.applyPoint_same {k : Fin 64} {c : PointCfg} (h : sameSource (s.point k).cfg c = true) :
    (s.applyPoint k c).apart = ({ s with
      alarm := AlarmUnit.judged { s.alarm with points := vset s.alarm.points k ((s.point k).keepSource c) } s.cmd.hub.relaysOn } : State).apart := by
  unfold State.applyPoint
  dsimp only
  rw [if_pos h]
  exact State.judgeRelays_apart rfl

theorem State.applyPoint_quiet {k : Fin 64} {c : PointCfg} (h : sameSource (s.point k).cfg c = false) (hq : (s.point k).quiet) :
    (s.applyPoint k c).apart = ({ s with
      alarm := AlarmUnit.judged { s.alarm with points := vset s.alarm.points k { Point.cold with cfg := c } } s.cmd.hub.relaysOn } : State).apart := by
  obtain ⟨m, n, hx⟩ := State.replacePoint_apart hq { Point.cold with cfg := c }
  unfold State.applyPoint
  dsimp only
  rw [if_neg (by rw [h]; exact Bool.false_ne_true), State.judgeRelays_apart hx]
  rfl

theorem State.applyPoint_logged {k : Fin 64} {c : PointCfg} (h : sameSource (s.point k).cfg c = false)
    (hst : (s.point k).state.standing = true) (hm : (s.point k).cfg.masked = false) (hh : s.cmd.hub = .inService)
    (ho : s.alarm.overflow = 0) (hf : 1 ≤ s.alarm.freePositions) : (s.applyPoint k c).apart = ({ s with
      alarm := (AlarmUnit.withEntry { s.alarm with points := vset s.alarm.points k { Point.cold with cfg := c } }
        (.change k.val false (s.point k).cfg.severity (s.point k).cfg.logSlot) s.time.sec s.time.ns).judged s.cmd.hub.relaysOn } : State).apart := by
  have hmove := State.movePoint_clears (u := s) (k := k) (p := (s.point k).cleared) hm hst rfl hh ho hf
  unfold State.applyPoint
  dsimp only
  rw [if_neg (by rw [h]; exact Bool.false_ne_true)]
  refine Eq.trans (b := ((s.movePoint k (s.point k).cleared).apart.putPoint k { Point.cold with cfg := c }).judgeRelays.apart) rfl ?_
  rw [hmove, ← vset_vset s.alarm.points k (s.point k).cleared { Point.cold with cfg := c }]
  rfl

/-- R182: a PORT record for port 0. -/
theorem State.applyPort0_eq (s : State) (limit : Nat) : s.applyPort0 limit = { s with
    sm := { s.sm with q0Limit := limit }
    ring := if s.sm.q0Limit < limit then { s.ring with tx := s.ring.tx.map TxMove.roomSeen } else s.ring } := by
  unfold State.applyPort0
  split <;> rfl

/-! ## O37 -/

/-- A staging record with all its words read. -/
theorem exec_stagingRead {got : List Word} {addr i : Nat} {x : State} (hq : s.busQuiet)
    (hh : s.path.holder = some (.word ⟨.command, .transfer, .read a⟩)) (ht : s.cmd.transfer = some (.staging k i addr got))
    (hlen : got.length + 1 = k.cfgWords i) (hx : (s.release.stagingRead k i addr (got ++ [Memory.readWord s.mem a])).apart = x) :
    ∃ t, exec .stagingRecordReadDone s = .next t ∧ t.apart = x := by
  have hlast : stagingLast s ⟨.command, .transfer, .read a⟩ = true := by
    unfold stagingLast
    rw [ht]
    exact decide_eq_true hlen.ge
  refine awaited_apart hq hh hlast ?_
  have ht' : s.release.cmd.transfer = some (.staging k i addr got) := ht
  rw [State.complete_transfer_read hh]
  unfold State.transferDone
  rw [ht']
  exact hx

/-- R181: a staging record with all its words read, and valid. -/
theorem State.stagingRead_valid {addr i : Nat} (hlen : ws.length = k.cfgWords i) (hrec : recordFail k i ws = none)
    (hy : (s.applyRecord k i ws).apart = y.apart) : (s.stagingRead k i addr ws).apart =
      ({ y with cmd := { y.cmd with transfer := some (.entryRewrite k i 0) } } : State).apart := by
  unfold State.stagingRead
  rw [if_neg (Nat.not_lt.mpr hlen.ge), hrec]
  refine Eq.trans (b := ({ (s.applyRecord k i ws).apart with
    cmd := { (s.applyRecord k i ws).apart.cmd with transfer := some (.entryRewrite k i 0) } } : State)) rfl ?_
  rw [hy]
  rfl

/-- Settles O37: the record read by `exec_stagingRead`, then what each table's owner does with it. -/
theorem stagingRecordRead : Obligations.StagingRecordRead := by
  unfold Obligations.StagingRecordRead
  intro k i addr got a s hq hh ht hlen ws rewriting
  have hall : ws.length = k.cfgWords i := by
    unfold ws
    rw [List.length_append]
    exact hlen
  refine ⟨fun n hn => exec_stagingRead hq hh ht hlen ?_, fun hrec => ?_⟩
  · unfold State.stagingRead
    rw [if_neg (Nat.not_lt.mpr hall.ge), hn]
    rfl
  have applied {y : State} (hy : (s.release.applyRecord k i ws).apart = y.apart) :
      ∃ t, exec .stagingRecordReadDone s = .next t ∧
        t.apart = ({ y with cmd := { y.cmd with transfer := some (.entryRewrite k i 0) } } : State).apart :=
    exec_stagingRead hq hh ht hlen (State.stagingRead_valid hall hrec hy)
  refine ⟨fun h hk => ?_, fun h hk href => ?_, fun j hk hi => ?_, fun hk hi => ?_, fun h hk => ?_⟩
  · subst hk
    exact applied (y := s.release.applyGroup ⟨i, h⟩ (Group.ofWords ws)) (congrArg State.apart (dif_pos h))
  · subst hk
    have happly : s.release.applyRecord .reference i ws = s.release.applyRef ⟨i, h⟩ (RefCfg.ofWords ws) := dif_pos h
    refine applied (y := { s.release with time := { s.time with
      refs := vset s.time.refs ⟨i, h⟩ { RefEntry.cold with cfg := RefCfg.ofWords ws } } }) ?_
    rw [happly]
    unfold State.applyRef
    rw [TimeBase.rejudge_same]
    · exact Eq.trans (State.putTime_same rfl rfl) rfl
    · intro m
      by_cases hm : ⟨i, h⟩ = m
      · subst hm
        refine Eq.trans ?_ href.symm
        exact congrArg RefEntry.qualified (vget_vset_self ..)
      · exact congrArg RefEntry.qualified (vget_vset_ne _ _ hm)
  · intro e c e1 room u ends shut withdrawn mayPower
    have happly : s.release.applyRecord k i ws = s.release.applyPort j c := by
      subst hk
      unfold State.applyRecord
      rw [hi, show slotOf (j.val + 1) = some j from slotOf_portOf j]
    have port {y z : State} (hy : (s.release.applyPort j c).apart = y.apart)
        (hz : z.apart = ({ y with cmd := { y.cmd with transfer := some (.entryRewrite k i 0) } } : State).apart) : ends z := by
      obtain ⟨t, h1, h2⟩ := applied (y := y) (by rw [happly]; exact hy)
      exact ⟨t, h1, h2.trans hz.symm⟩
    have hL := s.release.limitsTold_eq j c
    refine ⟨fun hs hp hw hn => port (State.applyPort_stays ⟨hs, hp⟩ (fun h => hw ⟨h.1, ?_⟩) hn) (by rw [hL]; rfl),
      fun hs hp hw => ⟨fun hst hd => port (State.applyPort_unpowers ⟨hs, hp⟩ hw hst hd) (by rw [hL]; rfl),
        fun hst hd => port (State.applyPort_untrains ⟨hs, hp⟩ hw hst hd) (by rw [hL]; rfl),
        fun hst hd => port (State.applyPort_drains ⟨hs, hp⟩ hw hst hd) (by rw [hL]; rfl)⟩,
      fun hs hp hst hm hg hd => port (State.applyPort_powers ⟨hs, hp⟩ hst hm.1 hm.2.1 hm.2.2 hg hd) (by rw [hL]; rfl),
      fun hs hp hw hst hd => ?_, fun hs => ⟨?_, fun f hp hw hst hq1 hf hr hb hl =>
        port (State.applyPort_flushes hs hp hw hst hq1 hf hr hb hl) rfl⟩⟩
    · have hst : e.state.withdraws = true := h.2
      unfold SlotState.withdraws at hst
      simpa [or_assoc] using hst
    · intro e2 asks
      have hre : (e.withCfg c).repolicy e.cfg.policy = e2.choosePlane := if_neg (Ne.symm hp)
      refine ⟨fun q hq => ?_, fun hno => ?_⟩
      · obtain ⟨h1, h2⟩ := hq
        have he := hre.trans (SlotEntry.choosePlane_moves h1 ((SlotEntry.wantsPlane_iff e2 q).mpr h2))
        have hbecomes : (s.release.limitsTold j c).becomes j { e2 with active := q, alt := 0 } =
            (s.release.limitsTold j c).slotBecomes j { e2 with active := q, alt := 0 } := by
          refine if_neg fun hsum => h2.1 ?_
          rw [State.limitsTold_slot] at hsum
          exact (congrArg (·.2.2) hsum :).symm
        refine port (State.applyPort_policy hs hd hw hst he rfl rfl) ?_
        rw [hbecomes, hL]
        rfl
      · have he := hre.trans (SlotEntry.choosePlane_stays (e := e2) ?_)
        · refine port (State.applyPort_policy hs hd hw hst he rfl rfl) ?_
          rw [State.becomes_same (e := e2) (by rw [State.limitsTold_slot]; rfl), hL]
          rfl
        · by_cases hstate : e2.state = .admitted ∨ e2.state = .draining
          · exact .inr (Option.eq_none_iff_forall_ne_some.mpr fun q hq => hno q ⟨hstate, (SlotEntry.wantsPlane_iff e2 q).mp hq⟩)
          · exact .inl hstate
    · obtain ⟨h1, h2⟩ := State.applyPort_shuts (s := s.release) (j := j) (c := c) hs
      rw [← happly] at h1 h2
      obtain ⟨t, ht, ha⟩ := applied rfl
      exact ⟨t, ht, (congrArg (fun y : State => (y.slot j).cfg) ha :).trans h2, (congrArg (fun y : State => y.sw.queue j .timed) ha :).trans h1⟩
  · subst hk
    subst hi
    refine applied (y := { s.release with
      sm := { s.sm with q0Limit := field (ws.getD 0 0) 0 10 }
      ring := if s.sm.q0Limit < field (ws.getD 0 0) 0 10 then { s.ring with tx := s.ring.tx.map TxMove.roomSeen } else s.ring }) ?_
    exact congrArg State.apart (s.release.applyPort0_eq (field (ws.getD 0 0) 0 10))
  · subst hk
    intro p c same standing al ends kept fresh
    have happly : s.release.applyRecord .alarmPoint i ws = s.release.applyPoint ⟨i, h⟩ c := dif_pos h
    have point {m : AlarmUnit} (hy : (s.release.applyPoint ⟨i, h⟩ c).apart =
        ({ s.release with alarm := m.judged s.cmd.hub.relaysOn } : State).apart) : ends m :=
      applied (y := { s.release with alarm := m.judged s.cmd.hub.relaysOn }) (by rw [happly]; exact hy)
    have hstanding : standing ↔ p.state.standing = true := by
      unfold standing
      cases p.state <;> simp [PointState.standing]
    have hnot (hs : ¬ same) : sameSource p.cfg c = false := Bool.eq_false_iff.mpr fun h => hs ((sameSource_iff _ _).mp h)
    refine ⟨fun hs => point ?_, fun hs hq => point (State.applyPoint_quiet (hnot hs) ?_), fun hs hst hm hhub ho hf => point ?_⟩
    · have hkept : kept = p.keepSource c := by
        unfold kept Point.keepSource
        simp
      rw [hkept]
      exact State.applyPoint_same ((sameSource_iff _ _).mpr hs)
    · obtain hq | hq := hq
      · exact .inr (Bool.eq_false_iff.mpr fun h => hq (hstanding.mpr h))
      · exact .inl hq
    · exact State.applyPoint_logged (s := s.release) (hnot hs) (hstanding.mp hst) hm hhub ho hf

end Sys2Proof.Machine
end

section
/-! SUPPORT. A status word whose value a change moves joins the rewrite set (R34), change by change of the blocks' work. -/

namespace Sys2Proof.Machine

open Sys2Proof

variable {s t u v : State} {F G : Prop}

/-! ## Which fields a status word shows (12.2) -/

theorem State.statusWord_eq {o : Nat}
    (hrec : o ∈ [0x20, 0x21, 0x22, 0x23, 0x24, 0x25] → t.cmd.record = s.cmd.record := by intros; rfl)
    (hhub : o ∈ [0x31] → t.cmd.hub = s.cmd.hub := by intros; rfl)
    (hring : o ∈ [0x31] → t.ring.state = s.ring.state := by intros; rfl)
    (hcyc : o ∈ [0x31, 0x32, 0x33] → t.cyc.shown = s.cyc.shown := by intros; rfl)
    (htime : o ∈ [0x34, 0x35, 0x36, 0x37] → t.time.shown = s.time.shown := by intros; rfl)
    (hsnap : o ∈ [0x38, 0x39] → (t.cmd.snapSec, t.cmd.snapNs) = (s.cmd.snapSec, s.cmd.snapNs) := by intros; rfl)
    (hpend : o ∈ [0x3A] → t.cmd.pending = s.cmd.pending := by intros; rfl)
    (halarm : o ∈ [0x3B] → (t.alarm.producer, t.alarm.overflow) = (s.alarm.producer, s.alarm.overflow) := by intros; rfl)
    (hfree : o ∈ [0x3C] → t.sw.free = s.sw.free := by intros; rfl)
    (hguard : o ∈ [0x3D, 0x3E] → o ≠ 0x3E → t.path.guardedCount = s.path.guardedCount := by intros; rfl)
    (hlast : o ∈ [0x3D, 0x3E] → o ≠ 0x3D → t.path.lastGuarded = s.path.lastGuarded := by intros; rfl)
    (hslot : ∀ i : Slot, o ∈ [0x50 + i.val] → (t.slot i).summary = (s.slot i).summary := by intros; rfl) :
    t.statusWord o = s.statusWord o := by
  have hquality (ho : o ∈ [0x34, 0x35, 0x36, 0x37]) : t.time.quality = s.time.quality := by
    have h := htime ho
    simp only [TimeBase.shown, Prod.mk.injEq] at h
    simp only [TimeBase.quality, h]
  unfold State.statusWord
  dsimp only
  split
  case h_22 hne =>
    split
    · rename_i h
      have he := hslot ⟨o - 0x50, by omega⟩ (List.mem_singleton.mpr (show o = 0x50 + (o - 0x50) by omega))
      simp only [SlotEntry.summary, Prod.mk.injEq] at he
      simp only [he]
    · rfl
  all_goals
    simp only [List.mem_cons, List.not_mem_nil, or_false, or_true, forall_const,
      Nat.reduceEqDiff, ne_eq, not_true_eq_false, not_false_eq_true, Prod.mk.injEq, CycleEngine.shown, TimeBase.shown,
      false_imp_iff]
      at hrec hhub hring hcyc htime hsnap hpend halarm hfree hguard hlast hquality
    simp only [*]

/-! ## The rewrite set (R34) -/

theorem mem_insertOrd {x o : Nat} {l : List Nat} : o ∈ insertOrd x l ↔ o = x ∨ o ∈ l := by
  induction l with
  | nil => simp [insertOrd]
  | cons y l ih =>
    unfold insertOrd
    split
    · simp
    · split
      · rename_i h
        simp [h]
      · simp only [List.mem_cons, ih]
        tauto

/-- Every status word of 20h to 5Bh whose value has changed has joined the rewrite set, and none of these has left it. -/
structure State.Marked (s t : State) : Prop where
  mark : ∀ o, 0x20 ≤ o → o ≤ 0x5B → (o ∈ s.cmd.rewrite ∨ t.statusWord o ≠ s.statusWord o) → o ∈ t.cmd.rewrite

theorem State.Marked.refl (s : State) : s.Marked s := ⟨fun _ _ _ h => h.resolve_right fun h => h rfl⟩

theorem State.Marked.trans (h : s.Marked t) (k : t.Marked u) : s.Marked u := ⟨fun o hl hu ho => by
  by_cases heq : t.statusWord o = s.statusWord o
  · exact k.mark o hl hu (ho.imp (fun h1 => h.mark o hl hu (.inl h1)) fun h1 => heq ▸ h1)
  · exact k.mark o hl hu (.inl (h.mark o hl hu (.inr heq)))⟩

/-- A change that no status word shows. -/
theorem State.Marked.of_eq (h : ∀ o, t.statusWord o = s.statusWord o := by intro o; exact State.statusWord_eq)
    (hr : t.cmd.rewrite = s.cmd.rewrite := by rfl) : s.Marked t := ⟨fun o _ _ ho => by
  rw [hr]
  exact ho.resolve_right fun hne => hne (h o)⟩

theorem foldl_retouch (l : List Nat) (o : Nat) (offs : List Nat) :
    o ∈ offs.foldl (fun l o => if s.statusWord o = t.statusWord o then l else insertOrd o l) l ↔
      o ∈ l ∨ (o ∈ offs ∧ s.statusWord o ≠ t.statusWord o) := by
  induction offs generalizing l with
  | nil => simp
  | cons x offs ih =>
    rw [List.foldl_cons, ih]
    by_cases hx : s.statusWord x = t.statusWord x
    · rw [if_pos hx]
      refine or_congr_right ⟨fun h => ⟨List.mem_cons_of_mem x h.1, h.2⟩, fun h => ⟨?_, h.2⟩⟩
      exact (List.mem_cons.mp h.1).resolve_left fun e => h.2 (e ▸ hx)
    · rw [if_neg hx, mem_insertOrd, List.mem_cons]
      by_cases e : o = x
      · subst e
        simp [hx]
      · simp [e]

/-- The words named join the rewrite set when they change, and no other word changes. -/
theorem State.Marked.retouched (offs : List Nat) (h : ∀ o, o ∉ offs → t.statusWord o = s.statusWord o)
    (hr : t.cmd.rewrite = s.cmd.rewrite := by rfl) : s.Marked (retouch offs s t) := ⟨fun o _ _ ho => by
  have hw : (retouch offs s t).statusWord o = t.statusWord o := State.statusWord_eq
  rw [hw] at ho
  refine (foldl_retouch ..).mpr ?_
  rw [hr]
  refine ho.imp_right fun hne => ⟨?_, Ne.symm hne⟩
  by_contra hn
  exact hne (h o hn)⟩

theorem reimage_marked (ws : List ImgWord) (s t : State) : t.Marked (reimage ws s t) := .of_eq

theorem State.setPending_marked (s : State) (p : BitVec 12) : s.Marked (s.setPending p) :=
  .retouched [0x3A] fun _ h => State.statusWord_eq (hpend := fun ho => absurd ho h)

theorem State.setSlot_statusWord {i : Slot} {e : SlotEntry} {o : Nat} (h : o = 0x50 + i.val → (s.slot i).summary = e.summary) :
    (s.setSlot i e).statusWord o = s.statusWord o := by
  refine State.statusWord_eq (hslot := fun j hj => ?_)
  by_cases hij : i = j
  · subst hij
    rw [State.slot_setSlot_self, h (List.mem_singleton.mp hj)]
  · rw [State.slot_setSlot_ne s e hij]

theorem State.putSlot_marked (s : State) (i : Slot) (e : SlotEntry) : s.Marked (s.putSlot i e) := by
  have h1 : s.Marked (retouch [0x50 + i.val] s (s.setSlot i e)) :=
    .retouched _ fun o h => State.setSlot_statusWord fun ho => absurd (List.mem_singleton.mpr ho) h
  have h2 := h1.trans (reimage_marked (slotImageWords i) s _)
  unfold State.putSlot
  dsimp only
  split
  · exact h2
  · exact h2.trans (State.setPending_marked ..)

theorem State.dropHeld_marked (s : State) (p : Purpose → Bool) : s.Marked (s.dropHeld p) := by
  unfold State.dropHeld
  split
  · split
    · exact .of_eq
    · exact .refl s
  · exact .refl s

theorem Calm.marked (h : Calm s t) : s.Marked t := by
  cases h with
  | pending p => exact s.setPending_marked p
  | record r => exact .retouched _ fun _ h => State.statusWord_eq (hrec := fun ho => absurd ho h)
  | snapshot sec ns => exact .retouched _ fun _ h => State.statusWord_eq (hsnap := fun ho => absurd ho h)
  | command c h _ =>
    simp only [CommandUnit.still, Prod.mk.injEq] at h
    obtain ⟨⟨hhub, -⟩, hrec, hpend, hrewrite, hsec, hns⟩ := h
    exact .of_eq (fun o => State.statusWord_eq (hrec := fun _ => hrec) (hhub := fun _ => hhub)
      (hsnap := fun _ => Prod.ext hsec hns) (hpend := fun _ => hpend)) hrewrite
  | lanes l => exact .of_eq
  | entry i e _ => exact s.putSlot_marked i e
  | pins i e h ha =>
    simp only [SlotEntry.service, Prod.mk.injEq] at h
    obtain ⟨hstate, hfenced, -⟩ := h
    exact .of_eq fun o => State.setSlot_statusWord fun _ => by simp only [SlotEntry.summary, hstate, hfenced, ha]
  | manager q d => exact .of_eq
  | sw w _ => exact .retouched _ fun _ h => State.statusWord_eq (hfree := fun ho => absurd ho h)
  | ring r => exact .retouched _ fun _ h => State.statusWord_eq (hring := fun ho => absurd ho h)
  | cyc c _ => exact .retouched _ fun _ h => State.statusWord_eq (hcyc := fun ho => absurd ho h)
  | draws n => exact .of_eq
  | glide o x d _ hs =>
    exact .of_eq fun o => State.statusWord_eq (htime := fun _ => hs) (hcyc := fun _ => CycleEngine.shift_shown ..)
  | clock x _ hs => exact .of_eq fun o => State.statusWord_eq (htime := fun _ => hs)
  | time x _ =>
    exact (State.Marked.retouched [0x34, 0x35, 0x36, 0x37]
      fun _ h => State.statusWord_eq (htime := fun ho => absurd ho h)).trans (reimage_marked ..)
  | alarm a _ => exact .retouched _ fun _ h => State.statusWord_eq (halarm := fun ho => absurd ho h)
  | guarded n a =>
    exact .retouched _ fun _ h =>
      State.statusWord_eq (hguard := fun ho => absurd ho h) (hlast := fun ho => absurd ho h)
  | uncounted =>
    exact .retouched _ fun o h => State.statusWord_eq (hguard := fun ho he => by simp_all)
  | zones z => exact .of_eq
  | dropHeld p => exact s.dropHeld_marked p

theorem Bare.marked (h : Bare s t) : s.Marked t := by
  cases h with
  | calm h => exact h.marked
  | slot i e => exact s.putSlot_marked i e
  | point k p => exact State.Marked.trans .of_eq (reimage_marked ..)
  | quality q => exact .of_eq
  | cyc c => exact .retouched _ fun _ h => State.statusWord_eq (hcyc := fun ho => absurd ho h)

theorem SlotManager.withCfgs_summary (s : State) (c : Slot → PortCfg) (q : Nat) (i : Slot) :
    (({ s with sm := s.sm.withCfgs c q } : State).slot i).summary = (s.slot i).summary := by
  simp [State.slot, SlotManager.withCfgs, vget, SlotEntry.summary]

theorem mem_allStatusWords {o : Nat} (hl : 0x20 ≤ o) (hu : o ≤ 0x5B) : o ∈ allStatusWords :=
  List.mem_range'_1.mpr ⟨hl, by omega⟩

/-- Chains of changes that mark. -/
theorem State.Marked.chain {r : State → State → Prop} (hr : ∀ {s t}, r s t → s.Marked t)
    (h : Relation.ReflTransGen r s t) : s.Marked t := by
  induction h with
  | refl => exact .refl s
  | tail _ hc ih => exact ih.trans (hr hc)

theorem Run.marked (h : Run F G s t) : s.Marked t := by
  cases h with
  | change h => exact .chain Bare.marked h.bares
  | stage c x => exact .of_eq
  | hub h _ => exact .retouched _ fun _ hn => State.statusWord_eq (hhub := fun ho => absurd ho hn)
  | install c q _ => exact .of_eq fun o => State.statusWord_eq (hslot := fun i _ => SlotManager.withCfgs_summary ..)
  | reset => exact ⟨fun o hl hu _ => mem_allStatusWords hl hu⟩

theorem Runs.marked (h : Runs F G s t) : s.Marked t := .chain Run.marked h

theorem Works.marked (h : Works s t) : s.Marked t := .chain (fun h => Runs.marked h.1) h

end Sys2Proof.Machine
end

section
/-! SUPPORT. The word that holds the port after a row held it before, or has been granted with its value at the row's end
(R34, R35, R185). -/

namespace Sys2Proof.Machine

open Sys2Proof

variable {s t u v : State} {F G : Prop} {h : Held} {P : ImgWord → Prop}

/-! ## The holder of the port through the blocks' work -/

/-- A word that holds the port held it before, or belongs to abandoned work. -/
structure State.Holds (s t : State) : Prop where
  held : ∀ h : Held, t.path.holder = some (.word h) → h.purpose = .dropped ∨ s.path.holder = some (.word h)

theorem State.Holds.of_eq (h : t.path.holder = s.path.holder := by rfl) : s.Holds t := ⟨fun _ ht => .inr (h ▸ ht)⟩

theorem State.Holds.refl (s : State) : s.Holds s := .of_eq

theorem State.Holds.trans (h : s.Holds t) (k : t.Holds u) : s.Holds u :=
  ⟨fun w hw => (k.held w hw).elim .inl (h.held w)⟩

/-- With no word at the port there is nothing to follow. -/
theorem State.Holds.of_none (h : t.path.holder = none) : s.Holds t := ⟨fun w hw => by rw [h] at hw; cases hw⟩

theorem State.Holds.chain {r : State → State → Prop} (hr : ∀ {s t}, r s t → s.Holds t)
    (h : Relation.ReflTransGen r s t) : s.Holds t := by
  induction h with
  | refl => exact .refl s
  | tail _ hc ih => exact ih.trans (hr hc)

theorem State.putSlot_holds (s : State) (i : Slot) (e : SlotEntry) : s.Holds (s.putSlot i e) := by
  unfold State.putSlot
  dsimp only
  split <;> exact .of_eq

theorem State.dropHeld_holds (s : State) (p : Purpose → Bool) : s.Holds (s.dropHeld p) := by
  unfold State.dropHeld
  split
  · split
    · exact ⟨fun w hw => by
        obtain rfl := (PortHolder.word.inj (Option.some.inj hw)).symm
        exact .inl rfl⟩
    · exact .refl s
  · exact .refl s

theorem Calm.holds (h : Calm s t) : s.Holds t := by
  cases h with
  | entry i e _ => exact s.putSlot_holds i e
  | dropHeld p => exact s.dropHeld_holds p
  | _ => exact .of_eq

theorem Bare.holds (h : Bare s t) : s.Holds t := by
  cases h with
  | calm h => exact h.holds
  | slot i e => exact s.putSlot_holds i e
  | _ => exact .of_eq

theorem Run.holds (h : Run F G s t) : s.Holds t := by
  cases h with
  | change h => exact .chain Bare.holds h.bares
  | _ => exact .of_eq

theorem Runs.holds (h : Runs F G s t) : s.Holds t := .chain Run.holds h

theorem Works.holds (h : Works s t) : s.Holds t := .chain (fun h => Runs.holds h.1) h

theorem State.release_free (s : State) : s.release.path.holder = none := rfl

/-- When an access has completed, none holds the port (R11). -/
theorem State.complete_free (s : State) : s.complete.path.holder = none := by
  unfold State.complete
  split
  · assumption
  · rename_i c _
    refine outside_none (State.handOver_outside ..) ?_
    cases c.acc <;> rfl
  · rename_i h _
    refine outside_none (State.completed_outside ..) ?_
    cases h.op <;> rfl

theorem State.controllerResets_holds (s : State) : s.Holds s.controllerResets := by
  have h1 : s.Holds s.resetPort := .of_none (State.complete_free _)
  exact h1.trans (Runs.holds (F := True) (G := True) (State.resetBlocks_runs _))

/-! ## How rows end -/

theorem State.serve_ends (fuel : Nat) (s : State) :
    s.serve fuel = s ∨ ∃ v, Rows s v ∧ s.serve fuel = v.portComplete := by
  induction fuel generalizing s with
  | zero => exact .inl rfl
  | succ k ih =>
    unfold State.serve
    split
    · refine .inr ?_
      rcases ih s.portComplete with he | ⟨v, hr, he⟩
      · exact ⟨s, .refl, he⟩
      · exact ⟨v, s.portComplete_rows.trans hr, he⟩
    · exact .inl rfl

theorem State.runPort_ends {p : State → Held → Bool} (fuel : Nat) (h : State.runPort p fuel s = some t) :
    ∃ v, Rows s v ∧ t = v.portComplete := by
  induction fuel generalizing s with
  | zero => exact nomatch h
  | succ k ih =>
    have hnext (h : State.runPort p k s.portComplete = some t) : ∃ v, Rows s v ∧ t = v.portComplete :=
      (ih h).imp fun v hv => ⟨s.portComplete_rows.trans hv.1, hv.2⟩
    unfold State.runPort at h
    split at h
    · exact nomatch h
    · exact hnext h
    · split at h
      · exact ⟨s, .refl, (Option.some.inj h).symm⟩
      · exact hnext h

/-- The state as a row leaves it: a decision of the arbiter comes last, on a state whose word at the port held it before. -/
def State.Ends (s t : State) : Prop := t = s ∨ ∃ v, Rows s v ∧ s.Holds v ∧ t = v.settle

theorem State.Ends.portComplete (h : Rows s v) : s.Ends v.portComplete :=
  .inr ⟨_, h.trans v.complete_rows, .of_none v.complete_free, rfl⟩

theorem State.Ends.settle (h : Rows s v) (hh : s.Holds v) : s.Ends v.settle := .inr ⟨v, h, hh, rfl⟩

theorem State.engaged_ends (s : State) : s.Ends s.engaged := by
  unfold State.engaged
  split
  · exact .inl rfl
  · exact .settle .refl (.refl s)

theorem State.busAccesses_ends (s : State) (accs : List BusAccess) : s.Ends (s.busAccesses accs) := by
  have hline : Rows s { s with path := { s.path with line := s.path.line ++ accs } } :=
    PortStep.rows (.path _ rfl rfl rfl (.inl rfl))
  have hsettle := State.Ends.settle hline .of_eq
  unfold State.busAccesses
  dsimp only
  split
  · exact hsettle
  · rcases State.serve_ends (s.path.line.length + accs.length + 1)
      ({ s with path := { s.path with line := s.path.line ++ accs } } : State).settle with he | ⟨v, hr, he⟩
    · rw [he]
      exact hsettle
    · rw [he]
      exact .portComplete ((hline.trans (State.settle_rows _)).trans hr)

theorem State.awaitPort_ends (s : State) (p : State → Held → Bool) : s.Ends (s.awaitPort p) := by
  unfold State.awaitPort
  split
  · obtain ⟨v, hr, rfl⟩ := State.runPort_ends _ ‹_›
    exact .portComplete (s.engaged_rows.trans hr)
  · exact s.engaged_ends

theorem exec_ends {c : Instr} (hc : c ≠ .coldReset) (e : exec c s = .next t) : s.Ends t := by
  cases exec_rowKind hc e with
  | bus accs => exact s.busAccesses_ends accs
  | await p _ => exact s.awaitPort_ends p
  | work h => exact .settle h.rows h.holds
  | complete => exact .portComplete s.engaged_rows
  | reset => exact .settle s.controllerResets_rows s.controllerResets_holds

/-! ## What a grant carries (R34, R185) -/

/-- A status word, a transfer's word or an image word with its value in the state, the image word being one of those named. -/
structure State.Offers (s : State) (P : ImgWord → Prop) (h : Held) : Prop where
  status : ∀ o fin, h.purpose = .status o fin → h.op = .write (pageAddr o) (s.statusWord o)
  transfer : h.purpose = .transfer → ∃ x, s.cmd.transfer = some x ∧ h.op = s.transferOp x
  image : h.purpose = .image → ∃ w, P w ∧ h.op = .write (s.imageAddr w) (s.imageValue w)

theorem State.Offers.of_apart (ha : t.apart = s.apart) (h' : s.Offers P h) : t.Offers P h where
  status o fin hp := (h'.status o fin hp).trans
    (congrArg (fun x : State => DmaOp.write (pageAddr o) (x.statusWord o)) ha.symm :)
  transfer hp := by
    obtain ⟨x, hx, hop⟩ := h'.transfer hp
    exact ⟨x, ((congrArg (fun x : State => x.cmd.transfer) ha :)).trans hx,
      hop.trans (congrArg (fun y : State => y.transferOp x) ha.symm :)⟩
  image hp := by
    obtain ⟨w, hw, hop⟩ := h'.image hp
    exact ⟨w, hw, hop.trans (congrArg (fun y : State => DmaOp.write (y.imageAddr w) (y.imageValue w)) ha.symm :)⟩

/-- A word of another purpose. -/
theorem State.Offers.other (hs : ∀ o fin, h.purpose ≠ .status o fin) (ht : h.purpose ≠ .transfer) (hi : h.purpose ≠ .image) :
    s.Offers P h := ⟨fun o fin hp => absurd hp (hs o fin), fun hp => absurd hp ht, fun hp => absurd hp hi⟩

/-- The word that the command unit has waiting is granted with its value. -/
theorem State.grant_offers {who : Requester} (hP : ∀ w, s.cmd.place = some (.image w) → P w)
    (hh : (s.grant who).path.holder = some (.word h)) : s.path.holder = some (.word h) ∨ s.Offers P h := by
  have hheld {who : Requester} {p : Purpose} {op : DmaOp} (u : State)
      (hh : (u.hold who p op).path.holder = some (.word h)) : h = ⟨who, p, op⟩ :=
    (PortHolder.word.inj (Option.some.inj hh)).symm
  unfold State.grant at hh
  cases who with
  | command =>
    dsimp only at hh
    unfold State.grantCommand at hh
    split at hh
    · exact .inl hh
    · obtain rfl := hheld _ hh
      exact .inr ⟨fun o fin hp => by cases hp; rfl, fun hp => (nomatch hp), fun hp => (nomatch hp)⟩
    · rename_i w hw
      obtain rfl := hheld _ hh
      exact .inr ⟨fun o fin hp => (nomatch hp), fun hp => (nomatch hp), fun _ => ⟨w, hP w hw, rfl⟩⟩
    · split at hh
      · exact .inl hh
      · rename_i x hx
        obtain rfl := hheld _ hh
        exact .inr ⟨fun o fin hp => (nomatch hp), fun _ => ⟨x, hx, rfl⟩, fun hp => (nomatch hp)⟩
  | ring =>
    dsimp only at hh
    unfold State.grantRing at hh
    split at hh
    · exact .inl hh
    · split at hh
      · exact .inl hh
      · obtain rfl := hheld _ hh
        split <;> exact .inr (.other (fun _ _ => nofun) nofun nofun)
  | cycle =>
    dsimp only at hh
    split at hh
    · obtain rfl := hheld _ hh
      exact .inr (.other (fun _ _ => nofun) nofun nofun)
    · exact .inl hh
  | alarm =>
    dsimp only at hh
    split at hh
    · obtain rfl := hheld _ hh
      exact .inr (.other (fun _ _ => nofun) nofun nofun)
    · exact .inl hh

/-- An image word comes into the waiting place out of its rewrite set, and stays there only while it is in the set (R35). -/
theorem State.fill_place_image {w : ImgWord} (hw : s.fill.cmd.place = some (.image w)) : w ∈ s.cmd.images := by
  have hc : s.fill.cmd = s.fillCommand.cmd := by
    unfold State.fill
    generalize s.fillCommand = u
    unfold State.fillRing
    split
    · rfl
    · split <;> rfl
  rw [hc] at hw
  unfold State.fillCommand at hw
  split at hw
  · rename_i x hx
    obtain ⟨hx, hstands⟩ := Option.filter_eq_some_iff.mp hx
    rw [hw] at hx
    obtain rfl := Option.some.inj hx
    simpa [State.placeStands] using hstands
  · split at hw
    · rename_i x _
      cases x with
      | status => cases h : pickStatus s.cmd.rewrite <;> simp [State.supply, h] at hw
      | image =>
        simp only [State.supply, Option.map_eq_some_iff, CmdWord.image.injEq, exists_eq_right] at hw
        exact s.pickImage_mem w hw
      | transfer =>
        simp only [State.supply] at hw
        split at hw <;> cases hw
    · cases hw

theorem State.bringAccess_holder (s : State) : s.bringAccess.path.holder = s.path.holder := by
  unfold State.bringAccess
  split
  · rfl
  · exact State.nextAccess_holder ..

theorem State.fill_images (s : State) : s.fill.cmd.images = s.cmd.images := by
  obtain ⟨p, l, rp, rl, h⟩ := s.fill_eq
  rw [h]

/-- A word that holds the port when the arbiter has decided held it before, or has been granted with its value. -/
theorem State.settle_offers (hP : ∀ w ∈ v.bringAccess.cmd.images, P w)
    (hh : v.settle.path.holder = some (.word h)) : v.path.holder = some (.word h) ∨ v.settle.Offers P h := by
  unfold State.settle at hh ⊢
  rw [State.fill_path] at hh
  rw [← v.bringAccess_holder, ← State.fill_path v.bringAccess]
  have hP' (w : ImgWord) (hw : v.bringAccess.fill.cmd.place = some (.image w)) : P w := hP w (State.fill_place_image hw)
  generalize v.bringAccess.fill = f at hh hP' ⊢
  have hgrant (who : Requester) (hh : (f.grant who).path.holder = some (.word h)) :
      f.path.holder = some (.word h) ∨ (f.grant who).fill.Offers P h :=
    (State.grant_offers hP' hh).imp_right fun ho =>
      ho.of_apart ((State.fill_apart _).trans (State.grant_apart ..))
  unfold State.arbitrate at hh ⊢
  split at hh
  · exact .inl hh
  · rename_i hfree
    rw [if_neg hfree]
    split at hh
    · exact .inl hh
    · exact hgrant _ hh
    · cases hh
    · split at hh
      · cases hh
      · rename_i hfull
        rw [if_neg hfull]
        exact hgrant _ hh

/-- R34, R35, R185: the word that holds the port after a row held it before, belongs to abandoned work, or carries its value of
that moment. -/
theorem exec_offers {c : Instr} (hP : ∀ v, Rows s v → ∀ w ∈ v.cmd.images, P w) (e : exec c s = .next t)
    (hh : t.path.holder = some (.word h)) :
    s.path.holder = some (.word h) ∨ h.purpose = .dropped ∨ t.Offers P h := by
  by_cases hc : c = .coldReset
  · subst hc
    rw [← Host.Outcome.next.inj e] at hh
    cases hh
  · rcases exec_ends hc e with rfl | ⟨v, hrows, hholds, rfl⟩
    · exact .inl hh
    · rcases State.settle_offers (hP _ (hrows.trans v.bringAccess_rows)) hh with hv | ho
      · exact (hholds.held h hv).elim (fun h => .inr (.inl h)) .inl
      · exact .inr (.inr ho)

end Sys2Proof.Machine
end

section
/-! SUPPORT. A status word whose value a row has changed is in the rewrite set, or at the port with its new value (R34). -/

namespace Sys2Proof.Machine

open Sys2Proof

variable {s t u v : State} {F G : Prop}

/-- Is the status word at the port with its present value? -/
def State.atPort (t : State) (o : Nat) : Prop :=
  ∃ fin, t.path.holder = some (.word ⟨.command, .status o fin, .write (pageAddr o) (t.statusWord o)⟩)

/-- Every status word of 20h to 5Bh that was in the rewrite set, or whose value has changed, is in the rewrite set or at the
port with its new value. -/
structure State.Shown (s t : State) : Prop where
  shown : ∀ o, 0x20 ≤ o → o ≤ 0x5B → (o ∈ s.cmd.rewrite ∨ t.statusWord o ≠ s.statusWord o) → o ∈ t.cmd.rewrite ∨ t.atPort o

theorem State.Marked.shown (h : s.Marked t) : s.Shown t := ⟨fun o hl hu ho => .inl (h.mark o hl hu ho)⟩

/-- The decision of the arbiter leaves a word in the rewrite set, or takes it to the port. -/
theorem State.grant_rewrite (s : State) (who : Requester) {o : Nat} (h : o ∈ s.cmd.rewrite) :
    o ∈ (s.grant who).cmd.rewrite ∨ (s.grant who).atPort o := by
  unfold State.grant
  cases who with
  | command =>
    dsimp only
    unfold State.grantCommand
    split
    · exact .inl h
    · rename_i x _
      by_cases hx : o = x
      · subst hx
        exact .inr ⟨_, rfl⟩
      · exact .inl (List.mem_filter.mpr ⟨h, by simpa using hx⟩)
    · exact .inl h
    · split <;> exact .inl h
  | ring =>
    dsimp only
    unfold State.grantRing
    split
    · exact .inl h
    · split <;> exact .inl h
  | cycle =>
    dsimp only
    split <;> exact .inl h
  | alarm =>
    dsimp only
    split <;> exact .inl h

theorem State.grant_statusWord (s : State) (who : Requester) (o : Nat) : (s.grant who).statusWord o = s.statusWord o :=
  (congrArg (fun x : State => x.statusWord o) (State.grant_apart s who) :)

theorem State.fill_statusWord (s : State) (o : Nat) : s.fill.statusWord o = s.statusWord o :=
  (congrArg (fun x : State => x.statusWord o) (State.fill_apart s) :)

theorem State.fill_marked (s : State) : s.Marked s.fill := .chain Calm.marked s.fill_calm

theorem State.fill_rewrite (s : State) : s.fill.cmd.rewrite = s.cmd.rewrite := by
  obtain ⟨p, l, rp, rl, h⟩ := s.fill_eq
  rw [h]

theorem State.Shown.fill (h : s.Shown t) : s.Shown t.fill := ⟨fun o hl hu ho => by
  rw [State.fill_statusWord] at ho
  rw [State.atPort, State.fill_rewrite, State.fill_path, State.fill_statusWord]
  exact h.shown o hl hu ho⟩

theorem State.Marked.grant (h : s.Marked t) (who : Requester) : s.Shown (t.grant who) := ⟨fun o hl hu ho => by
  rw [State.grant_statusWord] at ho
  exact t.grant_rewrite who (h.mark o hl hu ho)⟩

theorem State.nextAccess_marked (l : List BusAccess) (s : State) : s.Marked (State.nextAccess l s) := by
  induction l generalizing s with
  | nil => exact .of_eq
  | cons acc rest ih =>
    by_cases hg : (s.classed acc).cls = .guarded
    · cases acc with
      | read a => cases hg
      | write a d be =>
        rw [State.nextAccess_guarded hg]
        exact (State.Marked.chain Calm.marked (s.guardHit_calm a)).trans (ih _)
    · obtain ⟨m, hm⟩ := s.arrived_eq (s.classed acc)
      rw [State.nextAccess_cons hg, hm]
      exact .of_eq

theorem State.bringAccess_marked (s : State) : s.Marked s.bringAccess := by
  unfold State.bringAccess
  split
  · exact .refl s
  · exact State.nextAccess_marked ..

/-- The word that a grant gives the port is of a GH412 requester. -/
theorem State.grant_no_controller (hn : s.path.holder.isSome = false) (who : Requester) (c : Classed) :
    (s.grant who).path.holder ≠ some (.controller c) := by
  rcases s.grant_holder who with h | ⟨w, h⟩
  · rw [h]
    intro hc
    rw [hc] at hn
    cases hn
  · rw [h]
    exact nofun

/-- After the arbiter's decision the words marked are in the rewrite set, but for one that has been granted; with an access
of the controller at the port none has been. -/
theorem State.Marked.settle (h : s.Marked v) :
    s.Shown v.settle ∧ ∀ c, v.settle.path.holder = some (.controller c) → s.Marked v.settle := by
  have hf : s.Marked v.bringAccess.fill := (h.trans v.bringAccess_marked).trans (State.fill_marked _)
  unfold State.settle
  generalize v.bringAccess.fill = f at hf
  rw [State.fill_path]
  have hfill {g : State} (hg : s.Marked g) :
      s.Shown g.fill ∧ ∀ c, g.path.holder = some (.controller c) → s.Marked g.fill :=
    ⟨(hg.trans g.fill_marked).shown, fun _ _ => hg.trans g.fill_marked⟩
  have hcontroller (c : Classed) (n : Nat) : s.Marked (f.grantController c n) := hf.trans .of_eq
  unfold State.arbitrate
  split
  · exact hfill hf
  · rename_i hfree
    have hgrant (who : Requester) : s.Shown (f.grant who).fill ∧
        ∀ c, (f.grant who).path.holder = some (.controller c) → s.Marked (f.grant who).fill :=
      ⟨(hf.grant who).fill, fun c hc => absurd hc (State.grant_no_controller (Bool.eq_false_iff.mpr hfree) who c)⟩
    split
    · exact hfill hf
    · exact hgrant _
    · exact hfill (hcontroller ..)
    · split
      · exact hfill (hcontroller ..)
      · exact hgrant _

theorem State.complete_marked (s : State) : s.Marked s.complete := by
  have hrelease : s.Marked s.release := .of_eq
  unfold State.complete
  split
  · exact .refl s
  · rename_i c _
    have hperform : s.release.Marked (s.release.perform c.acc) := by cases c.acc <;> exact .of_eq
    exact (hrelease.trans hperform).trans (Runs.marked (F := True) (G := True) (State.handOver_runs ..))
  · rename_i h _
    have hperform : s.release.Marked (s.release.performDma h.op).1 := by cases h.op <;> exact .of_eq
    exact (hrelease.trans hperform).trans (Runs.marked (G := (s.release.performDma h.op).1.pollsFollow) (State.completed_runs id))

theorem State.serve_shown (fuel : Nat) (h : s.Shown u) (hc : ∀ c, u.path.holder = some (.controller c) → s.Marked u) :
    s.Shown (u.serve fuel) := by
  induction fuel generalizing u with
  | zero => exact h
  | succ k ih =>
    unfold State.serve
    split
    · rename_i c hu
      obtain ⟨hshown, hmarked⟩ := ((hc c hu).trans u.complete_marked).settle
      exact ih hshown hmarked
    · exact h

theorem State.busAccesses_shown (s : State) (accs : List BusAccess) : s.Shown (s.busAccesses accs) := by
  have hline : s.Marked { s with path := { s.path with line := s.path.line ++ accs } } := .of_eq
  obtain ⟨hshown, hmarked⟩ := hline.settle
  unfold State.busAccesses
  dsimp only
  split
  · exact hshown
  · exact State.serve_shown _ hshown hmarked

/-- With no access of the controller in its line the decision at a free port leaves the status words as they are. -/
theorem State.engaged_statusWord (hl : s.path.holder = none → s.path.line = []) (o : Nat) :
    s.engaged.statusWord o = s.statusWord o := by
  have hbring (h : s.path.line = []) : s.bringAccess.statusWord o = s.statusWord o := by
    unfold State.bringAccess
    split
    · rfl
    · rw [h]
      exact State.statusWord_eq
  have harb (f : State) : f.arbitrate.statusWord o = f.statusWord o := by
    unfold State.arbitrate
    (repeat' split) <;> first | rfl | exact State.grant_statusWord ..
  unfold State.engaged
  split
  · rfl
  · rename_i hh
    rw [Bool.not_eq_true, Option.isSome_eq_false_iff, Option.isNone_iff_eq_none] at hh
    rw [State.settle, State.fill_statusWord, harb, State.fill_statusWord, hbring (hl hh)]

theorem State.controllerResets_marked (s : State) : s.Marked s.controllerResets := by
  have hport : s.Marked s.resetPort := ((s.dropHeld_marked _).trans (State.complete_marked _)).trans .of_eq
  exact hport.trans (Runs.marked (F := True) (G := True) (State.resetBlocks_runs _))

/-- R34: a status word whose value a row has changed is in the rewrite set, or at the port with its new value. -/
theorem exec_shows {c : Instr} {o : Nat} (hc : rowAwaits c = false) (hl : s.path.holder = none → s.path.line = [])
    (e : exec c s = .next t) (hlo : 0x20 ≤ o) (hhi : o ≤ 0x5B) (hne : t.statusWord o ≠ s.statusWord o) :
    o ∈ t.cmd.rewrite ∨ t.atPort o := by
  by_cases hcold : c = .coldReset
  · subst hcold
    rw [← Host.Outcome.next.inj e]
    exact .inl (mem_allStatusWords hlo hhi)
  · cases exec_rowKind hcold e with
    | bus accs => exact (s.busAccesses_shown accs).shown o hlo hhi (.inr hne)
    | await p h => rw [hc] at h; cases h
    | work h => exact h.marked.settle.1.shown o hlo hhi (.inr hne)
    | complete =>
      refine s.engaged.complete_marked.settle.1.shown o hlo hhi (.inr ?_)
      rw [State.engaged_statusWord hl]
      exact hne
    | reset => exact s.controllerResets_marked.settle.1.shown o hlo hhi (.inr hne)

end Sys2Proof.Machine
end

section
/-! SUPPORT. The layout of the status words (12.2), and the status words as the control page shows them (O17). -/

namespace Sys2Proof.Machine

open Sys2Proof

variable {s t : State}

/-! ## Fields of a word put together from its fields -/

theorem field_wordOf {n lo len : Nat} (h : lo + len ≤ 32) : field (wordOf n) lo len = n / 2 ^ lo % 2 ^ len := by
  unfold field wordOf
  rw [BitVec.toNat_ofNat, show (32 : Nat) = lo + (32 - lo) by omega, pow_add, Nat.mod_mul_right_div_self]
  exact Nat.mod_mod_of_dvd _ (pow_dvd_pow 2 (by omega))

theorem getLsbD_wordOf {n k : Nat} {b : Bool} (hk : k < 32) (h : n / 2 ^ k % 2 = flag b) : (wordOf n).getLsbD k = b := by
  unfold wordOf
  rw [BitVec.getLsbD_ofNat, Nat.testBit_eq_decide_div_mod_eq, h]
  cases b <;> simp [flag, hk]

theorem flag_le (b : Bool) : flag b ≤ 1 := by cases b <;> decide

theorem planeCode_eq_flag (p : Plane) : planeCode p = flag (p == .b) := by cases p <;> rfl

theorem CmdResult.code_lt (r : CmdResult) : r.code < 16 := by cases r <;> decide
theorem RefusalReason.code_lt (r : RefusalReason) : r.code < 4 := by cases r <;> decide
theorem HubState.code_lt (h : HubState) : h.code < 8 := by cases h <;> simp [HubState.code]
theorem RingState.code_lt (r : RingState) : r.code < 4 := by cases r <;> decide
theorem CycleState.code_lt (c : CycleState) : c.code < 4 := by cases c <;> decide
theorem CycleFaultKind.code_lt (f : CycleFaultKind) : f.code < 8 := by cases f <;> decide
theorem TimeState.code_lt (t : TimeState) : t.code < 4 := by cases t <;> decide
theorem SlotState.code_lt (t : SlotState) : t.code < 16 := by cases t <;> decide

theorem TimeBase.quality_lt (t : TimeBase) : t.quality < 8 := by
  unfold TimeBase.quality
  (repeat' split) <;> decide

/-! ## The status words (12.2) -/

theorem State.word22_layout (h : s.cmd.record.lastCode < 256) :
    field (s.statusWord 0x22) 0 8 = s.cmd.record.lastCode ∧ field (s.statusWord 0x22) 8 8 = s.cmd.record.result.code ∧
      (s.statusWord 0x22).getLsbD 16 = s.cmd.record.clamped := by
  have hw : s.statusWord 0x22 =
    wordOf (s.cmd.record.lastCode + 2 ^ 8 * s.cmd.record.result.code + 2 ^ 16 * flag s.cmd.record.clamped) := rfl
  have hr := s.cmd.record.result.code_lt
  have hc := flag_le s.cmd.record.clamped
  rw [hw, field_wordOf (by decide), field_wordOf (by decide)]
  exact ⟨by omega, by omega, getLsbD_wordOf (by decide) (by omega)⟩

theorem State.word23_layout (hn : s.cmd.record.fail.number < 256) (ht : s.cmd.record.fail.table < 8) :
    field (s.statusWord 0x23) 0 8 = s.cmd.record.fail.number ∧ field (s.statusWord 0x23) 8 3 = s.cmd.record.fail.table := by
  have hw : s.statusWord 0x23 = wordOf (s.cmd.record.fail.number + 2 ^ 8 * s.cmd.record.fail.table) := rfl
  rw [hw, field_wordOf (by decide), field_wordOf (by decide)]
  exact ⟨by omega, by omega⟩

theorem State.word24_layout (hr : s.cmd.record.refusals < 65536) (ho : s.cmd.record.lastOffset < 16) :
    field (s.statusWord 0x24) 0 16 = s.cmd.record.refusals ∧
      field (s.statusWord 0x24) 16 2 = s.cmd.record.lastReason.code ∧
      field (s.statusWord 0x24) 24 4 = s.cmd.record.lastOffset := by
  have hw : s.statusWord 0x24 = wordOf (s.cmd.record.refusals + 2 ^ 16 * s.cmd.record.lastReason.code
      + 2 ^ 24 * s.cmd.record.lastOffset) := rfl
  have hc := s.cmd.record.lastReason.code_lt
  rw [hw, field_wordOf (by decide), field_wordOf (by decide), field_wordOf (by decide)]
  exact ⟨by omega, by omega, by omega⟩

theorem State.word3B_layout (hp : s.alarm.producer < 256) (ho : s.alarm.overflow < 65536) :
    field (s.statusWord 0x3B) 0 8 = s.alarm.producer ∧ field (s.statusWord 0x3B) 16 16 = s.alarm.overflow := by
  have hw : s.statusWord 0x3B = wordOf (s.alarm.producer + 2 ^ 16 * s.alarm.overflow) := rfl
  rw [hw, field_wordOf (by decide), field_wordOf (by decide)]
  exact ⟨by omega, by omega⟩

theorem State.word31_layout (s : State) :
    field (s.statusWord 0x31) 0 3 = s.cmd.hub.code ∧ field (s.statusWord 0x31) 4 2 = s.ring.state.code ∧
      field (s.statusWord 0x31) 8 2 = s.cyc.state.code ∧
      field (s.statusWord 0x31) 12 3 = (if s.cyc.state = .faulted then s.cyc.fault.code else 0) := by
  have hw : s.statusWord 0x31 = wordOf (s.cmd.hub.code + 2 ^ 4 * s.ring.state.code + 2 ^ 8 * s.cyc.state.code
      + 2 ^ 12 * (if s.cyc.state = .faulted then s.cyc.fault.code else 0)) := rfl
  have hf : (if s.cyc.state = .faulted then s.cyc.fault.code else 0) < 8 := by
    split
    · exact s.cyc.fault.code_lt
    · decide
  have hh := s.cmd.hub.code_lt
  have hr := s.ring.state.code_lt
  have hc := s.cyc.state.code_lt
  rw [hw]
  generalize (if s.cyc.state = .faulted then s.cyc.fault.code else 0) = f at hf ⊢
  rw [field_wordOf (by decide), field_wordOf (by decide), field_wordOf (by decide), field_wordOf (by decide)]
  exact ⟨by omega, by omega, by omega, by omega⟩

/-- 12.2: the number of the selected reference entry, 7 when there is none. -/
def TimeBase.selectedCode (t : TimeBase) : Nat := t.selected.elim 7 (·.val)

theorem TimeBase.selectedCode_lt (t : TimeBase) : t.selectedCode < 8 := by
  unfold TimeBase.selectedCode
  cases t.selected with
  | none => decide
  | some k => exact Nat.lt_of_lt_of_le k.isLt (by decide)

theorem State.word34_layout (s : State) :
    field (s.statusWord 0x34) 0 2 = s.time.state.code ∧ field (s.statusWord 0x34) 4 3 = s.time.quality ∧
      (s.statusWord 0x34).getLsbD 8 = s.time.beyond ∧ field (s.statusWord 0x34) 12 3 = s.time.selectedCode := by
  have hw : s.statusWord 0x34 = wordOf (s.time.state.code + 2 ^ 4 * s.time.quality + 2 ^ 8 * flag s.time.beyond
      + 2 ^ 12 * s.time.selectedCode) := by
    unfold TimeBase.selectedCode
    cases h : s.time.selected <;> simp only [State.statusWord, h] <;> rfl
  have hs := s.time.state.code_lt
  have hq := s.time.quality_lt
  have hb := flag_le s.time.beyond
  have hk := s.time.selectedCode_lt
  rw [hw, field_wordOf (by decide), field_wordOf (by decide), field_wordOf (by decide)]
  exact ⟨by omega, by omega, getLsbD_wordOf (by decide) (by omega), by omega⟩

theorem State.slotWord_layout (s : State) (i : Slot) :
    field (s.statusWord (0x50 + i.val)) 0 4 = (s.slot i).state.code ∧
      (s.statusWord (0x50 + i.val)).getLsbD 4 = (s.slot i).fenced ∧
      (s.statusWord (0x50 + i.val)).getLsbD 5 = ((s.slot i).active == .b) := by
  have hw : s.statusWord (0x50 + i.val) =
      wordOf ((s.slot i).state.code + 2 ^ 4 * flag (s.slot i).fenced + 2 ^ 5 * planeCode (s.slot i).active) := by
    unfold State.statusWord
    dsimp only
    split
    case h_22 =>
      have hi : (⟨0x50 + i.val - 0x50, by omega⟩ : Slot) = i := Fin.ext (Nat.add_sub_cancel_left ..)
      rw [dif_pos ⟨Nat.le_add_right .., by omega⟩, hi]
    all_goals omega
  have hs := (s.slot i).state.code_lt
  have hf := flag_le (s.slot i).fenced
  have hp := flag_le ((s.slot i).active == .b)
  rw [hw, planeCode_eq_flag, field_wordOf (by decide)]
  exact ⟨by omega, getLsbD_wordOf (by decide) (by omega), getLsbD_wordOf (by decide) (by omega)⟩

theorem toInt_ofInt {n : Int} (hl : -500000000 ≤ n) (hu : n < 500000000) : (BitVec.ofInt 32 n).toInt = n :=
  BitVec.toInt_ofInt_eq_self (by decide) (by norm_num; omega) (by norm_num; omega)

theorem State.statusWord_zero {o : Nat} (h : (0x26 ≤ o ∧ o ≤ 0x2F) ∨ (0x3F ≤ o ∧ o ≤ 0x4F)) : s.statusWord o = 0 := by
  have hn : ¬ (0x50 ≤ o ∧ o ≤ 0x5B) := by omega
  unfold State.statusWord
  dsimp only
  split
  case h_22 => exact dif_neg hn
  all_goals omega

/-- Settles O17: every change of a word marks it for rewriting (`exec_shows`), a word at the port has been granted with its
value (`exec_offers`), and each word is laid out as 12.2 says. -/
theorem statusWordsRewritten : Obligations.StatusWordsRewritten := by
  unfold Obligations.StatusWordsRewritten
  refine ⟨fun c s t o hc hl e hlo hhi hne => exec_shows hc hl e hlo hhi hne, fun c s t w o fin op e hh => ?_, fun s => ?_⟩
  · rcases exec_offers (P := fun _ => True) (fun _ _ _ _ => trivial) e hh with hs | hd | ho
    · exact .inl hs
    · cases hd
    · exact .inr (ho.status o fin rfl)
  · dsimp only
    obtain ⟨h31a, h31b, h31c, h31d⟩ := s.word31_layout
    obtain ⟨h34a, h34b, h34c, h34d⟩ := s.word34_layout
    refine ⟨State.word22_layout, State.word23_layout, State.word24_layout, State.word3B_layout, fun x hx => ?_,
      fun hl hu => toInt_ofInt hl hu, h31a, h31b, h31c, h31d, ?_, rfl, h34a, h34b, h34c, ?_, ?_, rfl, fun hr => ?_,
      s.slotWord_layout, fun o ho => State.statusWord_zero ho⟩
    · simp only [List.mem_cons, List.not_mem_nil, or_false] at hx
      rcases hx with rfl | rfl | rfl | rfl | rfl | rfl | rfl | rfl | rfl <;> rfl
    · exact BitVec.ofNat_toNat ..
    · rw [h34d]
      unfold TimeBase.selectedCode
      cases s.time.selected <;> rfl
    · exact BitVec.ofNat_toNat ..
    · have htrim := hr.2.2.1
      exact toInt_ofInt (by omega) (by omega)

end Sys2Proof.Machine
end

section
/-! SUPPORT. A transfer that is the only work for the port goes from word to word (O32). -/

namespace Sys2Proof.Machine

open Sys2Proof

variable {s t u : State} {x : Transfer}

/-! ## The next word of a transfer takes the port -/

theorem State.withRingPlace (h : u.ring.place = none) : ({ u with ring := { u.ring with place := none } } : State) = u :=
  congrArg (fun p => ({ u with ring := { u.ring with place := p } } : State)) h.symm

theorem State.withCmdPlace (h : u.cmd.place = none) : ({ u with cmd := { u.cmd with place := none } } : State) = u :=
  congrArg (fun p => ({ u with cmd := { u.cmd with place := p } } : State)) h.symm

theorem State.fillRing_idle (hp : u.ring.place = none) (hw : ∀ x, u.ringWord x = none) : u.fillRing = u := by
  unfold State.fillRing
  rw [hp]
  simp only [Option.filter_none, List.find?_cons, hw, Option.isSome_none, List.find?_nil]
  exact State.withRingPlace hp

/-- With nothing to rewrite the command unit's place is filled with the next word of its transfer. -/
theorem State.fillCommand_transfer (hp : u.cmd.place = none) (hr : u.cmd.rewrite = []) (hi : u.cmd.images = [])
    (ht : (u.supply .transfer).isSome) :
    u.fillCommand = { u with cmd := { u.cmd with place := some .transfer, lastSource := .transfer } } := by
  have hs : u.supply .status = none := by simp [State.supply, hr, pickStatus]
  have hm : u.supply .image = none := by simp [State.supply, State.pickImage, hi]
  have hsupply : u.supply .transfer = some .transfer := by
    unfold State.supply at ht ⊢
    dsimp only at ht ⊢
    split at ht
    · exact if_pos ‹_›
    · cases ht
  have hfind : u.cmd.lastSource.after.find? (fun x => (u.supply x).isSome) = some .transfer := by
    cases u.cmd.lastSource <;> simp [Source.after, hs, hm, hsupply]
  unfold State.fillCommand
  rw [hp, Option.filter_none]
  dsimp only
  rw [hfind]
  dsimp only
  rw [hsupply]

theorem State.fillCommand_idle (hp : u.cmd.place = none) (hr : u.cmd.rewrite = []) (hi : u.cmd.images = [])
    (ht : u.supply .transfer = none) : u.fillCommand = u := by
  have hs : u.supply .status = none := by simp [State.supply, hr, pickStatus]
  have hm : u.supply .image = none := by simp [State.supply, State.pickImage, hi]
  have hfind : u.cmd.lastSource.after.find? (fun x => (u.supply x).isSome) = none := by
    cases u.cmd.lastSource <;> simp [Source.after, hs, hm, ht]
  unfold State.fillCommand
  rw [hp, Option.filter_none]
  dsimp only
  rw [hfind]
  exact State.withCmdPlace hp

theorem State.grantCommand_transfer (hp : u.cmd.place = some .transfer) (hi : u.cmd.images = [])
    (ht : u.cmd.transfer = some x) : u.grantCommand =
      { u with path := { u.path with holder := some (.word ⟨.command, .transfer, u.transferOp x⟩), passedOver := 0
                                     lastServed := .command }
               cmd := { u.cmd with place := none } } := by
  unfold State.grantCommand
  rw [hp, ht]
  dsimp only
  have himages : u.cmd.images = (match x.image? with | some w => u.cmd.images.filter (· ≠ w) | none => u.cmd.images) := by
    rw [hi]
    cases x.image? <;> rfl
  exact congrArg (fun l => ({ u with
    path := { u.path with holder := some (.word ⟨.command, .transfer, u.transferOp x⟩), passedOver := 0
                          lastServed := .command }
    cmd := { u.cmd with place := none, images := l } } : State)) himages.symm

/-- The state when the next word of the transfer has been granted. -/
def State.transferGranted (u : State) (x : Transfer) : State :=
  { u with path := { u.path with holder := some (.word ⟨.command, .transfer, u.transferOp x⟩), passedOver := 0
                                 lastServed := .command }
           cmd := { u.cmd with lastSource := .transfer } }

theorem State.settle_transfer (h : u.onlyTransfers) (hh : u.path.holder = none) (ht : u.cmd.transfer = some x) :
    u.settle = u.transferGranted x := by
  obtain ⟨hq, hr, hi, hp, hrp, hrw, hc, ha⟩ := h
  have hflight : u.inFlight (· == .transfer) = false := by
    unfold State.inFlight
    rw [hh]
  have hsupply : (u.supply .transfer).isSome := by simp [State.supply, ht, hflight]
  have hfill : u.fill = { u with cmd := { u.cmd with place := some .transfer, lastSource := .transfer } } := by
    unfold State.fill
    rw [State.fillCommand_transfer hp hr hi hsupply]
    exact State.fillRing_idle hrp hrw
  have hchosen : u.fill.chosen = some .command := by
    have hwaits : u.fill.waits .command = true ∧ u.fill.waits .ring = false ∧ u.fill.waits .cycle = false ∧
        u.fill.waits .alarm = false := by
      rw [hfill]
      exact ⟨rfl, congrArg Option.isSome hrp, congrArg Option.isSome hc, congrArg Option.isSome ha⟩
    obtain ⟨h1, h2, h3, h4⟩ := hwaits
    unfold State.chosen
    cases u.fill.path.lastServed <;> simp [Requester.after, h1, h2, h3, h4]
  have hgrant : u.fill.grant .command = u.transferGranted x := by
    rw [hfill]
    refine (State.grantCommand_transfer (x := x)
      (u := { u with cmd := { u.cmd with place := some .transfer, lastSource := .transfer } }) rfl hi ht).trans ?_
    exact congrArg (fun p => ({ u with
      path := { u.path with holder := some (.word ⟨.command, .transfer, u.transferOp x⟩), passedOver := 0
                            lastServed := .command }
      cmd := { u.cmd with place := p, lastSource := .transfer } } : State)) hp.symm
  have hrefill : (u.transferGranted x).fill = u.transferGranted x := by
    unfold State.fill
    have hidle : (u.transferGranted x).supply .transfer = none := by
      simp [State.supply, State.inFlight, State.transferGranted]
    rw [State.fillCommand_idle (u := u.transferGranted x) hp hr hi hidle]
    have hword : ∀ y, (u.transferGranted x).ringWord y = u.ringWord y := by
      intro y
      cases y <;> simp [State.ringWord, State.inFlight, State.transferGranted, hh] <;> rfl
    exact State.fillRing_idle hrp fun y => (hword y).trans (hrw y)
  unfold State.settle
  rw [State.bringAccess_quiet hq]
  have harb : u.fill.arbitrate = u.fill.grant .command := by
    unfold State.arbitrate
    rw [State.fill_path, hh, hq.1, hchosen]
    rfl
  rw [harb, hgrant, hrefill]

/-- When a word of the transfer has completed and the next is the only work for the port, it is granted. -/
theorem exec_transfer_goes {m : Memory} {op : DmaOp} (h : s.onlyTransfers) {o : DmaOp}
    (hh : s.path.holder = some (.word ⟨.command, .transfer, o⟩))
    (hc : s.complete = ({ s.release with mem := m } : State).startTransfer x)
    (hop : (({ s.release with mem := m } : State).startTransfer x).transferOp x = op) :
    exec .portAccessComplete s = .next { s with
      mem := m
      path := { s.path with holder := some (.word ⟨.command, .transfer, op⟩), passedOver := 0, lastServed := .command }
      cmd := { s.cmd with transfer := some x, lastSource := .transfer } } := by
  obtain ⟨hq, hr, hi, hp, hrp, hrw, hcyc, ha⟩ := h
  rw [exec_portAccessComplete_held (by rw [hh]; rfl)]
  unfold State.portComplete
  rw [hc]
  have hword (y : RingSide) : (({ s.release with mem := m } : State).startTransfer x).ringWord y = s.ringWord y := by
    cases y <;> simp [State.ringWord, State.inFlight, State.startTransfer, State.release, hh] <;> rfl
  rw [State.settle_transfer (x := x) (u := ({ s.release with mem := m } : State).startTransfer x)
    ⟨hq, hr, hi, hp, hrp, fun y => (hword y).trans (hrw y), hcyc, ha⟩ rfl rfl]
  unfold State.transferGranted
  rw [hop]
  rfl

/-! ## The words of a transfer -/

theorem State.transferOp_image {w : ImgWord} (h : x.image? = some w) :
    u.transferOp x = .write (u.imageAddr w) (u.imageValue w) := by
  cases x with
  | setup | images | snapshot | staging => cases h
  | writeback | writeout | entryRewrite =>
    unfold State.transferOp
    dsimp only
    rw [h]

theorem getElem?_flatMap_range' {α : Type} {g : Nat → Nat → α} {lo w : Nat} (n first k : Nat) (h : k < n * w) :
    ((List.range' first n).flatMap (fun i => (List.range' lo w).map (g i)))[k]? =
      some (g (first + k / w) (lo + k % w)) := by
  induction n generalizing first k with
  | zero => omega
  | succ n ih =>
    have hw : 0 < w := Nat.pos_of_ne_zero fun h0 => by simp [h0] at h
    rw [List.range'_succ, List.flatMap_cons, List.getElem?_append, List.length_map, List.length_range']
    by_cases hk : k < w
    · rw [if_pos hk, Nat.div_eq_of_lt hk, Nat.mod_eq_of_lt hk, List.getElem?_map, List.getElem?_range' hk]
      simp
    · rw [if_neg hk, ih (first + 1) (k - w) (by rw [Nat.succ_mul] at h; omega),
        Nat.div_eq_sub_div hw (Nat.le_of_not_lt hk), Nat.mod_eq_sub_mod (Nat.le_of_not_lt hk), Nat.add_assoc, Nat.add_comm 1]

theorem tableWords_getElem? {t : Table} {first lo hi k : Nat} (h : k < (t.entries - first) * (hi - lo)) :
    (tableWords t first lo hi)[k]? = some ⟨t, first + k / (hi - lo), lo + k % (hi - lo)⟩ :=
  getElem?_flatMap_range' (g := fun i k => (⟨t, i, k⟩ : ImgWord)) _ first k h

theorem getElem?_append_tableWords {l : List ImgWord} {t : Table} {first lo hi n : Nat} :
    (tableWords t first lo hi ++ l)[n]? =
      if n < (t.entries - first) * (hi - lo) then some ⟨t, first + n / (hi - lo), lo + n % (hi - lo)⟩
      else l[n - (t.entries - first) * (hi - lo)]? := by
  rw [List.getElem?_append, tableWords_length]
  split
  · exact tableWords_getElem? ‹_›
  · rfl

/-- The image word written `n`-th by a write-back (R30). -/
def writebackWord (n : Nat) : ImgWord :=
  if n < 60 then ⟨.port, n / 5 + 1, 3 + n % 5⟩ else if n < 124 then ⟨.alarmPoint, n - 60, 3⟩ else ⟨.reference, n - 124, 1⟩

theorem writebackWords_getElem? {n : Nat} (h : n < 128) : writebackWords[n]? = some (writebackWord n) := by
  unfold writebackWords writebackWord
  rw [List.append_assoc, getElem?_append_tableWords, getElem?_append_tableWords]
  simp only [Table.entries, Nat.reduceSub, Nat.reduceMul, Nat.div_one, Nat.mod_one, Nat.add_zero, Nat.zero_add]
  by_cases hport : n < 60
  · rw [if_pos hport, if_pos hport, Nat.add_comm 1]
  · rw [if_neg hport, if_neg hport]
    by_cases hpoint : n < 124
    · rw [if_pos (show n - 60 < 64 by omega), if_pos hpoint]
    · rw [if_neg (show ¬ n - 60 < 64 by omega), if_neg hpoint,
        tableWords_getElem? (by simp only [Table.entries]; omega)]
      simp only [Nat.reduceSub, Nat.div_one, Nat.mod_one, Nat.add_zero, Nat.zero_add, Nat.sub_sub, Nat.reduceAdd]

/-- The image word written `n`-th by a write-out (R31). -/
def writeoutWord (n : Nat) : ImgWord :=
  if n < 104 then ⟨.port, n / 8, n % 8⟩
  else if n < 232 then ⟨.group, (n - 104) / 2, n % 2⟩
  else if n < 488 then ⟨.alarmPoint, (n - 232) / 4, n % 4⟩ else ⟨.reference, (n - 488) / 2, n % 2⟩

theorem writeoutWords_getElem? {n : Nat} (h : n < 496) : writeoutWords[n]? = some (writeoutWord n) := by
  unfold writeoutWords writeoutWord
  rw [List.append_assoc, List.append_assoc, getElem?_append_tableWords, getElem?_append_tableWords,
    getElem?_append_tableWords]
  simp only [Table.entries, Nat.reduceSub, Nat.reduceMul, Nat.zero_add, Nat.sub_sub, Nat.reduceAdd]
  by_cases hport : n < 104
  · rw [if_pos hport, if_pos hport]
  · rw [if_neg hport, if_neg hport]
    by_cases hgroup : n < 232
    · rw [if_pos (show n - 104 < 128 by omega), if_pos hgroup, show (n - 104) % 2 = n % 2 by omega]
    · rw [if_neg (show ¬ n - 104 < 128 by omega), if_neg hgroup]
      by_cases hpoint : n < 488
      · rw [if_pos (show n - 232 < 256 by omega), if_pos hpoint, show (n - 232) % 4 = n % 4 by omega]
      · rw [if_neg (show ¬ n - 232 < 256 by omega), if_neg hpoint,
          tableWords_getElem? (by simp only [Table.entries]; omega)]
        simp only [Nat.zero_add, Nat.reduceSub]
        rw [show (n - 488) % 2 = n % 2 by omega]

end Sys2Proof.Machine
end

section
/-! SUPPORT. The words of each kind of transfer in their order (O32). -/

namespace Sys2Proof.Machine

open Sys2Proof

variable {s t u : State} {x : Transfer}

/-! ## The transfer after one of its words -/

theorem State.transferDone_setup {addr : Nat} {got : List Word} (v : Word) (ht : u.cmd.transfer = some (.setup addr got))
    (hl : got.length < 12) : u.transferDone v = u.startTransfer (.setup addr (got ++ [v])) := by
  unfold State.transferDone
  rw [ht]
  exact if_pos hl

theorem State.transferDone_staging {k : Table} {i addr : Nat} {got : List Word} (v : Word)
    (ht : u.cmd.transfer = some (.staging k i addr got)) (hl : got.length + 1 < k.cfgWords i) :
    u.transferDone v = u.startTransfer (.staging k i addr (got ++ [v])) := by
  unfold State.transferDone
  rw [ht]
  exact if_pos (by rw [List.length_append]; exact hl)

theorem State.transferDone_images {done : List (List Word)} {k : Table} {i : Nat} {got : List Word} (v : Word)
    (ht : u.cmd.transfer = some (.images done got)) (he : loadEntries[done.length]? = some (k, i))
    (hl : got.length + 1 < k.cfgWords i) : u.transferDone v = u.startTransfer (.images done (got ++ [v])) := by
  unfold State.transferDone
  rw [ht]
  dsimp only
  unfold State.imagesRead
  rw [he]
  exact if_pos (by rw [List.length_append]; exact hl)

theorem State.transferDone_snapshot {addr k : Nat} {clear : Bool} (v : Word)
    (ht : u.cmd.transfer = some (.snapshot addr clear k)) (hk : k < 191) :
    u.transferDone v = u.startTransfer (.snapshot addr clear (k + 1)) := by
  unfold State.transferDone
  rw [ht]
  exact if_pos hk

theorem State.transferDone_writeback {k : Nat} (v : Word) (ht : u.cmd.transfer = some (.writeback k)) (hk : k < 127) :
    u.transferDone v = u.startTransfer (.writeback (k + 1)) := by
  unfold State.transferDone
  rw [ht]
  exact if_pos (by rw [writebackWords_length]; omega)

theorem State.transferDone_writeout {k : Nat} (v : Word) (ht : u.cmd.transfer = some (.writeout k)) (hk : k < 495) :
    u.transferDone v = u.startTransfer (.writeout (k + 1)) := by
  unfold State.transferDone
  rw [ht]
  exact if_pos (by rw [writeoutWords_length]; omega)

theorem State.transferDone_entryRewrite {k : Table} {i n : Nat} (v : Word)
    (ht : u.cmd.transfer = some (.entryRewrite k i n)) (hn : n + 1 < k.words) :
    u.transferDone v = u.startTransfer (.entryRewrite k i (n + 1)) := by
  unfold State.transferDone
  rw [ht]
  exact if_pos hn

theorem State.imageAddr_zones {z : ZoneSet} (hz : s.path.zones = some z) (w : ImgWord) :
    s.imageAddr w = addrOf (z.imageBase w.table + w.table.words * w.index + w.word) := by
  unfold State.imageAddr
  rw [hz]
  rfl

theorem length_snoc (got : List Word) (v : Word) (n : Nat) : n + (got ++ [v]).length = n + got.length + 1 := by
  rw [List.length_append]
  rfl

/-- Settles O32: a transfer word at the port has been granted in its turn (`exec_offers`); when one completes, the next is
granted (`exec_transfer_goes`). -/
theorem transferWordsInOrder : Obligations.TransferWordsInOrder := by
  unfold Obligations.TransferWordsInOrder
  refine ⟨fun c s t w op e hh => ?_, ?_, ?_⟩
  · rcases exec_offers (P := fun _ => True) (fun _ _ _ _ => trivial) e hh with hs | hd | ho
    · exact .inl hs
    · cases hd
    · exact .inr (ho.transfer rfl)
  · intro a s h hh goes v
    refine ⟨fun addr got ht hl => ?_, fun k i addr got ht hl => ?_, fun done got z k i ht hz he hl => ?_⟩
    · refine exec_transfer_goes (m := s.mem) h hh ((State.complete_transfer_read hh).trans
        (State.transferDone_setup (u := s.release) v ht hl)) ?_
      exact congrArg (fun n => DmaOp.read (addrOf n)) (length_snoc got v addr)
    · refine exec_transfer_goes (m := s.mem) h hh ((State.complete_transfer_read hh).trans
        (State.transferDone_staging (u := s.release) v ht hl)) ?_
      exact congrArg (fun n => DmaOp.read (addrOf n)) (length_snoc got v addr)
    · refine exec_transfer_goes (m := s.mem) h hh ((State.complete_transfer_read hh).trans
        (State.transferDone_images (u := s.release) v ht he hl)) ?_
      unfold State.transferOp
      dsimp only
      rw [he]
      dsimp only
      exact (congrArg DmaOp.read (State.imageAddr_zones hz ⟨k, i, (got ++ [v]).length⟩)).trans
        (congrArg (fun n => DmaOp.read (addrOf n)) (length_snoc got v _))
  · intro a d s h hh goes
    refine ⟨fun addr clear k ht hk => ?_, ?_, ?_, fun z k i n hz ht hn => ?_⟩
    · refine exec_transfer_goes (m := Memory.writeWord s.mem a d allBytes) h hh ((State.complete_transfer_write hh).trans
        (State.transferDone_snapshot 0 ht hk)) ?_
      rfl
    · intro z k hz ht hk n w
      refine exec_transfer_goes (m := Memory.writeWord s.mem a d allBytes) h hh ((State.complete_transfer_write hh).trans
        (State.transferDone_writeback 0 ht hk)) ?_
      exact (State.transferOp_image (w := w) (writebackWords_getElem? (by omega))).trans
        (congrArg (fun x => DmaOp.write x (s.imageValue w)) (State.imageAddr_zones hz w))
    · intro z k hz ht hk n w
      refine exec_transfer_goes (m := Memory.writeWord s.mem a d allBytes) h hh ((State.complete_transfer_write hh).trans
        (State.transferDone_writeout 0 ht hk)) ?_
      exact (State.transferOp_image (w := w) (writeoutWords_getElem? (by omega))).trans
        (congrArg (fun x => DmaOp.write x (s.imageValue w)) (State.imageAddr_zones hz w))
    · refine exec_transfer_goes (m := Memory.writeWord s.mem a d allBytes) h hh ((State.complete_transfer_write hh).trans
        (State.transferDone_entryRewrite 0 ht hn)) ?_
      exact (State.transferOp_image (w := ⟨k, i, n + 1⟩) rfl).trans
        (congrArg (fun x => DmaOp.write x (s.imageValue ⟨k, i, n + 1⟩)) (State.imageAddr_zones hz ⟨k, i, n + 1⟩))

end Sys2Proof.Machine
end

section
/-! SUPPORT. The image rewrite set holds GH412-maintained words alone (R185), the layout of these (12.5), and the order of the
words of a snapshot (12.8). -/

namespace Sys2Proof.Machine

open Sys2Proof

variable {s t u : State} {F G : Prop}

/-! ## The image rewrite set (R185) -/

/-- 12.5: the words of the GH412-maintained fields. -/
def ImgWord.maintained (w : ImgWord) : Prop :=
  w.table = .port ∧ 1 ≤ w.index ∧ w.index ≤ 12 ∧ 3 ≤ w.word ∧ w.word ≤ 7 ∨
    w.table = .alarmPoint ∧ w.index < 64 ∧ w.word = 3 ∨ w.table = .reference ∧ w.index < 4 ∧ w.word = 1

/-- Only maintained words are in the image rewrite set. -/
def State.imagesFit (s : State) : Prop := ∀ w ∈ s.cmd.images, w.maintained

theorem reimage_fits {ws : List ImgWord} (hw : ∀ w ∈ ws, w.maintained) (h : t.imagesFit) : (reimage ws s t).imagesFit := by
  have key (l : List ImgWord) (hl : ∀ w ∈ l, w.maintained) :
      ∀ w ∈ ws.foldl (fun l w => if s.imageValue w = t.imageValue w || l.contains w then l else l ++ [w]) l,
        w.maintained := by
    induction ws generalizing l with
    | nil => exact hl
    | cons x ws ih =>
      refine ih (fun w h => hw w (List.mem_cons_of_mem x h)) _ ?_
      dsimp only
      split
      · exact hl
      · intro w h
        rcases List.mem_append.mp h with h | h
        · exact hl w h
        · obtain rfl := List.mem_singleton.mp h
          exact hw w (List.mem_cons_self ..)
  intro w h
  change w ∈ (if t.imagesKept then _ else _) at h
  split at h
  · exact key t.cmd.images ‹_› w h
  · exact ‹t.imagesFit› w h

theorem slotImageWords_maintained (i : Slot) : ∀ w ∈ slotImageWords i, w.maintained := by
  intro w h
  obtain ⟨k, hk, rfl⟩ := List.mem_map.mp h
  have hk := List.mem_range'_1.mp hk
  exact .inl ⟨rfl, Nat.le_add_left .., i.isLt, hk.1, Nat.lt_succ_iff.mp hk.2⟩

theorem refImageWords_maintained : ∀ w ∈ refImageWords, w.maintained := by
  intro w h
  obtain ⟨k, hk, rfl⟩ := List.mem_map.mp h
  exact .inr (.inr ⟨rfl, List.mem_range.mp hk, rfl⟩)

theorem State.putSlot_imagesFit (i : Slot) (e : SlotEntry) (h : s.imagesFit) : (s.putSlot i e).imagesFit := by
  have h1 : (reimage (slotImageWords i) s (retouch [0x50 + i.val] s (s.setSlot i e))).imagesFit :=
    reimage_fits (slotImageWords_maintained i) h
  unfold State.putSlot
  dsimp only
  split <;> exact h1

theorem State.dropHeld_imagesFit (p : Purpose → Bool) (h : s.imagesFit) : (s.dropHeld p).imagesFit := by
  unfold State.dropHeld
  split
  · split <;> exact h
  · exact h

theorem Calm.imagesFit (h : Calm s t) (hs : s.imagesFit) : t.imagesFit := by
  cases h with
  | command c _ hi =>
    intro w hw
    rcases hi with hi | hi
    · exact hs w (hi ▸ hw)
    · exact absurd (hi ▸ hw : w ∈ []) List.not_mem_nil
  | entry i e _ => exact State.putSlot_imagesFit i e hs
  | time x _ => exact reimage_fits (t := retouch [0x34, 0x35, 0x36, 0x37] s { s with time := x }) refImageWords_maintained hs
  | dropHeld p => exact State.dropHeld_imagesFit p hs
  | _ => exact hs

theorem Bare.imagesFit (h : Bare s t) (hs : s.imagesFit) : t.imagesFit := by
  cases h with
  | calm h => exact h.imagesFit hs
  | slot i e => exact State.putSlot_imagesFit i e hs
  | point k p =>
    refine reimage_fits (fun w hw => ?_) hs
    obtain rfl := List.mem_singleton.mp hw
    exact .inr (.inl ⟨rfl, k.isLt, rfl⟩)
  | _ => exact hs

theorem Run.imagesFit (h : Run F G s t) (hs : s.imagesFit) : t.imagesFit := by
  cases h with
  | change h => exact chain_keeps Bare.imagesFit h.bares hs
  | reset => exact fun w hw => absurd hw List.not_mem_nil
  | _ => exact hs

theorem State.grant_imagesFit (who : Requester) (hs : s.imagesFit) : (s.grant who).imagesFit := by
  have hfilter (p : ImgWord → Bool) : ∀ w ∈ s.cmd.images.filter p, w.maintained := fun w hw => hs w (List.mem_filter.mp hw).1
  unfold State.grant
  cases who with
  | command =>
    dsimp only
    unfold State.grantCommand
    split
    · exact hs
    · exact hs
    · exact hfilter _
    · split
      · exact hs
      · dsimp only
        split
        · exact hfilter _
        · exact hs
  | ring =>
    dsimp only
    unfold State.grantRing
    split
    · exact hs
    · split <;> exact hs
  | cycle =>
    dsimp only
    split <;> exact hs
  | alarm =>
    dsimp only
    split <;> exact hs

theorem Row.imagesFit (h : Row s t) (hs : s.imagesFit) : t.imagesFit := by
  cases h with
  | run h _ => exact chain_keeps Run.imagesFit h hs
  | port h =>
    cases h with
    | mem | path => exact hs
    | grant who => exact State.grant_imagesFit who hs

/-! ## The layout of the maintained words (12.5) -/

theorem LaneState.code_lt (l : LaneState) : l.code < 4 := by cases l <;> decide
theorem DrainCause.code_lt (c : DrainCause) : c.code < 4 := by cases c <;> decide
theorem FailReason.code_lt (r : FailReason) : r.code < 8 := by cases r <;> decide
theorem PointState.code_lt (p : PointState) : p.code < 4 := by cases p <;> decide

theorem State.imageValue_slot (s : State) (i : Slot) (k : Nat) :
    s.imageValue ⟨.port, i.val + 1, k⟩ = (s.slot i).imageWord k := by
  unfold State.imageValue
  dsimp only
  rw [slotOf_value rfl]

/-- The longest payload of the card admitted, 0 when there is none. -/
def SlotEntry.payload (e : SlotEntry) : Nat := e.card.elim 0 (·.maxPayload)

theorem SlotEntry.word3_layout {e : SlotEntry} (hm : e.missed < 16) (hp : e.payload < 2048) :
    field (e.imageWord 3) 0 4 = e.state.code ∧ (e.imageWord 3).getLsbD 4 = e.fenced ∧
      (e.imageWord 3).getLsbD 5 = (e.active == .b) ∧ field (e.imageWord 3) 6 2 = e.laneA.code ∧
      field (e.imageWord 3) 8 2 = e.laneB.code ∧ field (e.imageWord 3) 10 4 = e.missed ∧
      (e.imageWord 3).getLsbD 14 = e.override ∧ field (e.imageWord 3) 15 2 = e.drainCause.code ∧
      field (e.imageWord 3) 17 3 = e.reason.code ∧ (e.imageWord 3).getLsbD 20 = e.card.isSome ∧
      field (e.imageWord 3) 21 11 = e.payload := by
  have hw : e.imageWord 3 = wordOf (e.state.code + 2 ^ 4 * flag e.fenced + 2 ^ 5 * flag (e.active == .b) + 2 ^ 6 * e.laneA.code
      + 2 ^ 8 * e.laneB.code + 2 ^ 10 * e.missed + 2 ^ 14 * flag e.override + 2 ^ 15 * e.drainCause.code
      + 2 ^ 17 * e.reason.code + (2 ^ 20 * flag e.card.isSome + 2 ^ 21 * e.payload)) := by
    rw [← planeCode_eq_flag]
    unfold SlotEntry.payload
    cases h : e.card <;> simp only [SlotEntry.imageWord, h] <;> rfl
  have h1 := e.state.code_lt
  have h2 := flag_le e.fenced
  have h3 := flag_le (e.active == .b)
  have h4 := e.laneA.code_lt
  have h5 := e.laneB.code_lt
  have h6 := flag_le e.override
  have h7 := e.drainCause.code_lt
  have h8 := e.reason.code_lt
  have h9 := flag_le e.card.isSome
  rw [hw]
  simp only [field_wordOf, Nat.reduceAdd, Nat.reduceLeDiff]
  exact ⟨by omega, getLsbD_wordOf (by decide) (by omega), getLsbD_wordOf (by decide) (by omega), by omega, by omega,
    by omega, getLsbD_wordOf (by decide) (by omega), by omega, by omega, getLsbD_wordOf (by decide) (by omega), by omega⟩

theorem SlotEntry.word4_layout {e : SlotEntry} (halt : e.alt < 4) (hatt : e.attempts < 4) (ha : e.delayA.value < 8192)
    (hb : e.delayB.value < 8192) :
    field (e.imageWord 4) 0 13 = e.delayA.value ∧ (e.imageWord 4).getLsbD 13 = e.delayA.valid ∧
      field (e.imageWord 4) 14 2 = e.alt ∧ field (e.imageWord 4) 16 13 = e.delayB.value ∧
      (e.imageWord 4).getLsbD 29 = e.delayB.valid ∧ field (e.imageWord 4) 30 2 = e.attempts := by
  have hw : e.imageWord 4 = wordOf (e.delayA.value + 2 ^ 13 * flag e.delayA.valid + 2 ^ 14 * e.alt
      + 2 ^ 16 * e.delayB.value + 2 ^ 29 * flag e.delayB.valid + 2 ^ 30 * e.attempts) := rfl
  have h1 := flag_le e.delayA.valid
  have h2 := flag_le e.delayB.valid
  rw [hw]
  simp only [field_wordOf, Nat.reduceAdd, Nat.reduceLeDiff]
  exact ⟨by omega, getLsbD_wordOf (by decide) (by omega), by omega, by omega, getLsbD_wordOf (by decide) (by omega),
    by omega⟩

theorem wordOf_append (a b : BitVec 16) : wordOf (b.toNat + 2 ^ 16 * a.toNat) = a ++ b := by
  refine BitVec.eq_of_toNat_eq ?_
  rw [wordOf, BitVec.toNat_ofNat, BitVec.toNat_append, ← Nat.shiftLeft_add_eq_or_of_lt b.isLt, Nat.shiftLeft_eq,
    Nat.mod_eq_of_lt] <;> omega

theorem SlotEntry.card_words (e : SlotEntry) :
    (∀ d, e.card = some d → e.imageWord 5 = d.revision ++ d.cardType ∧ e.imageWord 6 = d.serial1 ∧ e.imageWord 7 = d.serial2) ∧
      (e.card = none → e.imageWord 5 = 0 ∧ e.imageWord 6 = 0 ∧ e.imageWord 7 = 0) := by
  refine ⟨fun d hd => ?_, fun hn => ?_⟩
  · unfold SlotEntry.imageWord
    rw [hd]
    exact ⟨wordOf_append .., rfl, rfl⟩
  · unfold SlotEntry.imageWord
    rw [hn]
    exact ⟨rfl, rfl, rfl⟩

end Sys2Proof.Machine
end

section
/-! SUPPORT. The order of the words of a snapshot (12.8), and the image and snapshot words together (O33). -/

namespace Sys2Proof.Machine

open Sys2Proof

variable {s t u : State}

/-! ## Words that stand in a list from a place on -/

/-- The words `l` stand in the list from place `n` on. -/
def standAt (L : List Nat) (n : Nat) (l : List Nat) : Prop := (List.range l.length).map (fun j => L.getD (n + j) 0) = l

theorem standAt_head (l q : List Nat) : standAt (l ++ q) 0 l := by
  refine List.ext_getElem (by simp) fun j _ hj => ?_
  simp [List.getD_eq_getElem?_getD, List.getElem?_append_left hj, hj]

theorem standAt_append {p L l : List Nat} {m n : Nat} (hp : p.length = m) (h : standAt L n l) :
    standAt (p ++ L) (m + n) l := by
  subst hp
  refine Eq.trans (List.map_congr_left fun j _ => ?_) h
  rw [List.getD_eq_getElem?_getD, List.getD_eq_getElem?_getD, Nat.add_assoc,
    List.getElem?_append_right (Nat.le_add_right ..), Nat.add_sub_cancel_left]

/-- Parts of one length, one after another. -/
theorem standAt_flatMap {α : Type} {f : α → List Nat} {m : Nat} (hf : ∀ x, (f x).length = m) (q : List Nat) {l : List α}
    {k : Nat} {x : α} (hx : l[k]? = some x) : standAt (l.flatMap f ++ q) (m * k) (f x) := by
  induction l generalizing k with
  | nil => cases hx
  | cons y l ih =>
    rw [List.flatMap_cons, List.append_assoc]
    cases k with
    | zero =>
      obtain rfl := Option.some.inj hx
      exact standAt_head ..
    | succ k =>
      rw [Nat.mul_succ, Nat.add_comm]
      exact standAt_append (hf y) (ih hx)

/-! ## The snapshot (12.8) -/

theorem foldl_add_sum {α : Type} (f : α → Nat) (l : List α) : l.foldl (fun n i => n + f i) 0 = (l.map f).sum := by
  rw [List.sum_eq_foldl, List.foldl_map]

theorem State.laneWords_eq (s : State) (p : Plane) :
    s.laneWords p = [fun l : LanePort => l.partialCount, (·.setAside), (·.resend), (·.notSent)].map
      (fun f => min ((allSlots.map (fun i => f (s.lane i p))).sum) 4294967295) := by
  simp only [State.laneWords, State.laneSum, foldl_add_sum]
  rfl

/-- The words of a snapshot, part by part. -/
theorem State.snapshotWords_eq (s : State) (clear : Bool) : s.snapshotWords clear =
    [0x10412, s.cmd.record.accepted + 2 ^ 16 * flag clear, s.time.sec, s.time.ns, s.time.mark, s.sw.free] ++
    ((vget s.sw.counters 0).port0Words ++
    (allSlots.flatMap (fun i => (vget s.sw.counters (portOf i)).slotWords) ++
    (s.laneWords .a ++ (s.laneWords .b ++
    ([s.path.guardedCount, s.path.partialCount] ++ s.ring.counters.words ++
    (s.cyc.counters.words ++ [s.time.steps, s.time.setApplied, s.time.discardedRefs, s.time.intervalRejects,
      s.time.watchExpiries] ++ [s.sm.discarded, s.alarm.ignored])))))) := by
  unfold State.snapshotWords
  simp only [List.append_assoc]
  rfl

theorem length_slotCounters (s : State) :
    (allSlots.flatMap (fun i => (vget s.sw.counters (portOf i)).slotWords)).length = 144 := by
  rw [List.length_flatMap]
  rfl

theorem State.snapshotWords_length (s : State) (clear : Bool) : (s.snapshotWords clear).length = 192 := by
  rw [s.snapshotWords_eq clear]
  simp only [List.length_append, length_slotCounters]
  rfl

/-- 12.8: where each part of the snapshot stands. -/
theorem State.snapshotWords_order (s : State) (clear : Bool) :
    standAt (s.snapshotWords clear) 0
      [0x10412, s.cmd.record.accepted + 2 ^ 16 * flag clear, s.time.sec, s.time.ns, s.time.mark, s.sw.free] ∧
    standAt (s.snapshotWords clear) 6 (vget s.sw.counters 0).port0Words ∧
    (∀ i : Slot, standAt (s.snapshotWords clear) (14 + 12 * i.val) (vget s.sw.counters (portOf i)).slotWords) ∧
    standAt (s.snapshotWords clear) 158 (s.laneWords .a) ∧ standAt (s.snapshotWords clear) 162 (s.laneWords .b) ∧
    standAt (s.snapshotWords clear) 166 ([s.path.guardedCount, s.path.partialCount] ++ s.ring.counters.words) ∧
    standAt (s.snapshotWords clear) 177 (s.cyc.counters.words ++ [s.time.steps, s.time.setApplied, s.time.discardedRefs,
      s.time.intervalRejects, s.time.watchExpiries] ++ [s.sm.discarded, s.alarm.ignored]) := by
  rw [s.snapshotWords_eq clear]
  have hslots := length_slotCounters s
  refine ⟨standAt_head .., ?_, fun i => ?_, ?_, ?_, ?_, ?_⟩
  · exact standAt_append (m := 6) rfl (standAt_head ..)
  · have hi : allSlots[i.val]? = some i := by
      unfold allSlots
      rw [List.getElem?_eq_getElem (by rw [List.length_finRange]; exact i.isLt), List.getElem_finRange]
      rfl
    rw [show 14 + 12 * i.val = 6 + (8 + 12 * i.val) by omega]
    exact standAt_append (m := 6) rfl (standAt_append (m := 8) rfl (standAt_flatMap (m := 12)
      (f := fun i => (vget s.sw.counters (portOf i)).slotWords) (fun _ => rfl) _ hi))
  · exact standAt_append (m := 6) rfl (standAt_append (m := 8) rfl (standAt_append hslots (standAt_head ..)))
  · exact standAt_append (m := 6) rfl (standAt_append (m := 8) rfl (standAt_append hslots
      (standAt_append (m := 4) rfl (standAt_head ..))))
  · exact standAt_append (m := 6) rfl (standAt_append (m := 8) rfl (standAt_append hslots
      (standAt_append (m := 4) rfl (standAt_append (m := 4) rfl (standAt_head ..)))))
  · have h := standAt_head (s.cyc.counters.words ++ [s.time.steps, s.time.setApplied, s.time.discardedRefs,
      s.time.intervalRejects, s.time.watchExpiries] ++ [s.sm.discarded, s.alarm.ignored]) []
    rw [List.append_nil] at h
    exact standAt_append (m := 6) rfl (standAt_append (m := 8) rfl (standAt_append hslots
      (standAt_append (m := 4) rfl (standAt_append (m := 4) rfl (standAt_append (m := 11) rfl h)))))

/-! ## O33 -/

theorem Rows.imagesFit (h : Rows s t) (hs : s.imagesFit) : t.imagesFit := chain_keeps Row.imagesFit h hs

theorem exec_imagesFit {c : Instr} (hs : s.imagesFit) (e : exec c s = .next t) : t.imagesFit := by
  by_cases hc : c = .coldReset
  · subst hc
    rw [← Host.Outcome.next.inj e]
    exact fun w hw => absurd hw List.not_mem_nil
  · exact (exec_rows hc e).imagesFit hs

theorem State.pointWord_layout (k : Fin 64) (s : State) (h : (s.point k).count < 256) :
    let w := s.imageValue ⟨.alarmPoint, k.val, 3⟩
    field w 0 2 = (s.point k).state.code ∧ field w 8 8 = (s.point k).count ∧
      w.getLsbD 16 = (s.point k).sourceCleared := by
  have hw : s.imageValue ⟨.alarmPoint, k.val, 3⟩ =
      wordOf ((s.point k).state.code + 2 ^ 8 * (s.point k).count + 2 ^ 16 * flag (s.point k).sourceCleared) :=
    dif_pos k.isLt
  have hs := (s.point k).state.code_lt
  have hf := flag_le (s.point k).sourceCleared
  rw [hw]
  dsimp only
  rw [field_wordOf (by decide), field_wordOf (by decide)]
  exact ⟨by omega, by omega, getLsbD_wordOf (by decide) (by omega)⟩

theorem State.refWord_layout (j : Fin 4) (s : State) (h : (s.ref j).good < 4) :
    let v := s.imageValue ⟨.reference, j.val, 1⟩
    v.getLsbD 0 = (s.ref j).qualified ∧ field v 8 2 = (s.ref j).good := by
  have hv : s.imageValue ⟨.reference, j.val, 1⟩ = wordOf (flag (s.ref j).qualified + 2 ^ 8 * (s.ref j).good) :=
    dif_pos j.isLt
  have hf := flag_le (s.ref j).qualified
  rw [hv]
  dsimp only
  rw [field_wordOf (by decide)]
  exact ⟨getLsbD_wordOf (by decide) (by omega), by omega⟩

/-- Settles O33: the rewrite set change by change (`Row.imagesFit`), a word at the port as granted (`exec_offers`), and the
layouts. -/
theorem imageAndSnapshotWords : Obligations.ImageAndSnapshotWords := by
  unfold Obligations.ImageAndSnapshotWords
  refine ⟨?_, ?_, fun k j s hc hg => ?_, fun clear s => ?_⟩
  · intro c s t kept hs e
    refine ⟨exec_imagesFit hs e, fun r op hh => ?_⟩
    rcases exec_offers (P := ImgWord.maintained) (fun v hv => Rows.imagesFit hv hs) e hh with hs | hd | ho
    · exact .inl hs
    · cases hd
    · exact .inr (ho.image rfl)
  · intro i s e w hm halt hatt ha hb hcard
    have hp : e.payload < 2048 := by
      unfold SlotEntry.payload
      cases hd : e.card with
      | none => decide
      | some d => exact hcard d hd
    have hw (k : Nat) : w k = e.imageWord k := s.imageValue_slot i k
    simp only [hw]
    obtain ⟨a1, a2, a3, a4, a5, a6, a7, a8, a9, a10, a11⟩ := SlotEntry.word3_layout hm hp
    obtain ⟨b1, b2, b3, b4, b5, b6⟩ := SlotEntry.word4_layout halt hatt ha hb
    obtain ⟨c1, c2⟩ := e.card_words
    refine ⟨a1, a2, a3, a4, a5, a6, a7, a8, a9, a10, a11.trans ?_, b1, b2, b3, b4, b5, b6, c1, c2⟩
    unfold SlotEntry.payload
    cases e.card <;> rfl
  · obtain ⟨h1, h2, h3⟩ := s.pointWord_layout k hc
    obtain ⟨h4, h5⟩ := s.refWord_layout j hg
    exact ⟨h1, h2, h3, h4, h5⟩
  · obtain ⟨h1, h2, h3, h4, h5, h6, h7⟩ := s.snapshotWords_order clear
    rw [State.laneWords_eq] at h4 h5
    have hclear : 2 ^ 16 * flag clear = if clear then 65536 else 0 := by cases clear <;> rfl
    rw [hclear] at h1
    exact ⟨s.snapshotWords_length clear, h1, h2, h3, h4, h5, h6, h7⟩

end Sys2Proof.Machine
end
